-- ==== Sys2Proof/Word.lean ====
section
/-!
DEFINITION. The word types of the UZV-780: the widths that the spec gives its registers, addresses and bytes.
-/
namespace Sys2Proof

/-- A 32-bit register of the register window (R96). -/
abbrev Word := BitVec 32

/-- A byte of memory (R84). -/
abbrev Byte := BitVec 8

/-- A Talig data register value (R296). -/
abbrev DReg := BitVec 24

/-- A Talig address register value and a byte address of the device (R84, R296). -/
abbrev AReg := BitVec 48

/-- A Talig accumulator (R296). -/
abbrev XReg := BitVec 72

/-- A vector register (R296). -/
abbrev VReg := BitVec 3072

/-- A vector mask (R296). -/
abbrev MReg := BitVec 384

/-- A vector accumulator (R296). -/
abbrev VAReg := BitVec 6144

end Sys2Proof
end

