-- ==== Sys2Proof/Syntax.lean ====
section
/-!
DEFINITION. The commands the device takes and the operands they carry. A command is one row of the table of operations
and events; each is a whole step of the device.
-/
namespace Sys2Proof

/-- A Talig core: tiles 0 to 15, and 16 for the control core (R294). -/
abbrev CoreId := Fin 17

/-- A tile, and with it its array slice, drain unit and scratchpad (R1). -/
abbrev TileId := Fin 16

/-- A slot of a Talig bundle, in the order S, M, V, N of R299. -/
inductive Slot where
  | s | m | v | n
  deriving DecidableEq, Repr

/-- Who makes an access (R126). A virtual function is numbered 1 to 8 by its function; a remote device carries the
kennel its request names and whether it speaks as the cascade manager; a customer-port access carries the tile that
issued its command. -/
inductive Who where
  | cc
  | tile (t : TileId)
  | cust (t : TileId)
  | pf
  | vf (f : Fin 8)
  | smbus
  | dap
  | remote (dev : Fin 32) (ken : BitVec 3)
  deriving DecidableEq, Repr

/-- A register write: the requester, the byte offset in the 16 MiB register window (R84), and the value. -/
structure RegWr where
  who : Who
  ofs : BitVec 24
  val : BitVec 32
  deriving DecidableEq, Repr

/-- A register read. -/
structure RegRd where
  who : Who
  ofs : BitVec 24
  deriving DecidableEq, Repr

/-- What every syllable of a bundle carries: the core that issues it, the slot it stands in, its guard predicate and
sense (R300, R301), whether it holds a 1 in a bit that its format shows as 0 (R364), and whether it is the last syllable
of its bundle, after which the bundle completes. -/
structure Syl where
  core : CoreId
  slot : Slot
  guard : BitVec 3 := 0
  sense : Bool := false
  rsv : Bool := false
  last : Bool := true
  /-- Parts of vector registers that an upset has struck just before: class (0 V, 1 M, 2 VA), register and 64-bit part
  (R468). -/
  upset : List (BitVec 2 × BitVec 5 × BitVec 7) := []
  deriving DecidableEq, Repr

/-- The second operand of an ALU or compare syllable: formats ALR and CMR, or ALI and CMI (R366). -/
inductive Src where
  | reg (rb : BitVec 5)
  | imm (i : BitVec 16)
  deriving DecidableEq, Repr

/-- Formats ALR and ALI (R366). -/
structure AluOp where
  rd : BitVec 5
  ra : BitVec 5
  b : Src
  f : Bool := false
  deriving DecidableEq, Repr

/-- Format IMM (R366). -/
structure ImmOp where
  rd : BitVec 5
  imm : BitVec 24
  deriving DecidableEq, Repr

/-- Formats CMR and CMI (R366). -/
structure CmpOp where
  dk : Bool
  dst : BitVec 5
  ra : BitVec 5
  b : Src
  deriving DecidableEq, Repr

/-- Format PLG (R366). -/
structure PlgOp where
  pd : BitVec 3
  pa : BitVec 3
  pb : BitVec 3
  deriving DecidableEq, Repr

/-- Format MXF (R366). -/
structure MxOp where
  rd : BitVec 5
  ra : BitVec 5
  rb : BitVec 5
  sh : BitVec 6 := 0
  part : BitVec 2 := 0
  deriving DecidableEq, Repr

/-- Format BFD (R366); `sel` is the selector of BPERM. -/
structure BfdOp where
  rd : BitVec 5
  ra : BitVec 5
  rb : BitVec 5 := 0
  pos : BitVec 5 := 0
  lenm1 : BitVec 5 := 0
  sel : BitVec 9 := 0
  deriving DecidableEq, Repr

/-- Format BRL (R366). -/
structure BrlOp where
  al : BitVec 4
  ofs : BitVec 24
  deriving DecidableEq, Repr

/-- Format BRG (R366). -/
structure BrgOp where
  al : BitVec 4
  at_ : BitVec 4
  deriving DecidableEq, Repr

/-- Format RPT (R366): with `cs` set the count register is bits 4 to 0 of `count`, and bits 23 to 5 must be 0. -/
structure RptOp where
  lvl : Bool
  cs : Bool
  lenm1 : BitVec 12
  count : BitVec 24
  deriving DecidableEq, Repr

/-- Format STR (R366). -/
structure StrOp where
  src : BitVec 5
  rk : Bool
  deriving DecidableEq, Repr

/-- Format CTL (R366). -/
structure CtlOp where
  crn : BitVec 5
  an : BitVec 4
  deriving DecidableEq, Repr

/-- Format LDS without its size and direction (R366); in indexed mode the scale is bits 2 to 0 of `imm`. -/
structure LdsOp where
  md : BitVec 3
  rt : BitVec 5
  ab : BitVec 4
  dm : BitVec 5 := 0
  imm : BitVec 16 := 0
  deriving DecidableEq, Repr

/-- Format ADR (R366); for LEA the scale is bits 2 to 0 of `imm`. -/
structure AdrOp where
  rd : BitVec 5
  rs : BitVec 5
  dm : BitVec 5 := 0
  imm : BitVec 17 := 0
  deriving DecidableEq, Repr

/-- Format VR (R448). -/
structure VrOp where
  vd : BitVec 5
  va : BitVec 5
  vb : BitVec 5 := 0
  mask : BitVec 3 := 0
  t : BitVec 3 := 0
  g : BitVec 2 := 0
  x : BitVec 9 := 0
  deriving DecidableEq, Repr

/-- Format VI (R448). -/
structure ViOp where
  vd : BitVec 5
  va : BitVec 5
  mask : BitVec 3 := 0
  t : BitVec 3 := 0
  imm : BitVec 16
  deriving DecidableEq, Repr

/-- An integer vector ALU syllable: its register form or its immediate form (R451). -/
inductive VAlu where
  | reg (o : VrOp)
  | imm (o : ViOp)
  deriving DecidableEq, Repr

/-- Format VK (R448). -/
structure VkOp where
  md : BitVec 3
  ma : BitVec 3
  mb : BitVec 3 := 0
  deriving DecidableEq, Repr

/-- Format VX (R448). -/
structure VxOp where
  rd : BitVec 5
  rs : BitVec 5
  mask : BitVec 3 := 0
  t : BitVec 3 := 0
  lane : BitVec 9 := 0
  deriving DecidableEq, Repr

/-- Format VS without its opcode (R448). -/
structure VsOp where
  md : BitVec 3
  vr : BitVec 5
  ab : BitVec 4
  mask : BitVec 3 := 0
  dm : BitVec 5 := 0
  g : BitVec 2 := 0
  imm : BitVec 13 := 0
  deriving DecidableEq, Repr

/-- Customer command syllable CXCMD (R335). -/
structure CxOp where
  fn : BitVec 8
  an : BitVec 4
  da : BitVec 5
  db : BitVec 5
  ntf : Bool
  rcf : Bool
  ctx : BitVec 4
  deriving DecidableEq, Repr

/-- A CoaXPress stream packet as ingest has unpacked it (R714, R717, R731): the link it arrived on, its stream ID, whether its
CRC is good, whether it is the first of a new line or image and the last of it, its header's pixel format (none: another
format), the sizes an image header gives, its pixels, and the character errors met since the last packet. -/
structure StreamPkt where
  link : Fin 16
  strid : BitVec 8
  crcOk : Bool := true
  first : Bool := false
  last : Bool := false
  pfmt : Option (BitVec 2) := some 0
  img : Option (BitVec 24 × BitVec 24) := none
  pix : List (BitVec 16) := []
  cerr : BitVec 16 := 0
  deriving DecidableEq, Repr

/-- A frame as it arrives on a Vaxlin port (R752, R753): its fields, its flit, whether its CRC checks, and whether its block
was corrected (`fecc`) or could not be (`fecu`). -/
structure RxFrame where
  vc : Fin 4 := 0
  valid : Bool := true
  seq : BitVec 12 := 0
  ack : BitVec 12 := 0
  cr : List (BitVec 4) := []
  flit : List (BitVec 8) := []
  crcOk : Bool := true
  fecc : Bool := false
  fecu : Bool := false
  deriving DecidableEq, Repr

/-- What the peer of a port sends in HANDSHAKE (R761). -/
structure PeerInfo where
  uid : BitVec 64
  ident : BitVec 32
  blsup : BitVec 16
  num : BitVec 5
  valid : Bool
  port : BitVec 2
  deriving DecidableEq, Repr

/-- A memory request of a PCIe function (R805, R806): 0 the physical function, n the virtual function n; the BAR (0, 2 or 4), the
offset in it, the length, and the bytes of a write. -/
structure PcieReq where
  fn : Fin 9
  bar : BitVec 3
  ofs : BitVec 32
  len : Fin 4097
  data : Option (List (BitVec 8)) := none
  deriving DecidableEq, Repr

/-- An Ethernet frame as it arrives (R826, R827): its bytes from the destination address on, without the FCS, whether its FCS
is good, and, of a PTP event message, its sequence ID. -/
structure EthFrame where
  bytes : List (BitVec 8)
  fcsOk : Bool := true
  ptp : Option (BitVec 16) := none
  deriving DecidableEq, Repr

/-- What the boot flash holds at a slot, as the boot ROM finds it (R898, R899): whether MAGIC and HVER match, SVN, LEN and ENTRY,
whether the key's hash, the signature and the image's hash verify, and the image. -/
structure BootSlot where
  magic : Bool := false
  svn : BitVec 32 := 0
  len : BitVec 32 := 1
  entry : BitVec 48 := 0
  keyOk : Bool := true
  sigOk : Bool := true
  hashOk : Bool := true
  image : List (BitVec 8) := []
  deriving DecidableEq, Repr

/-- The boot flash (R897): whether it answers with SFDP, and its slots A and B. -/
structure BootFlash where
  sfdp : Bool := true
  a : BootSlot := {}
  b : BootSlot := {}
  deriving DecidableEq, Repr

/-- A cause of the exit from DEEP (R910). -/
inductive WakeBy where
  | smb | timer | enc
  deriving DecidableEq, Repr

/-- The commands of the device: one constructor per row of the table of operations and events. -/
inductive Instr where
  /-- `ENCODER_LEVEL_CHANGE` (R38): A level change on ENC_A, ENC_B or ENC_Z reaches the synchroniser and starts the filter count. -/
  | encoderLevelChange (pin : Fin 3) (level : Bool)
  /-- `ENCODER_FILTER_ACCEPT` (R38): A filtered encoder level has held for 8 × FILT cycles and is accepted. -/
  | encoderFilterAccept (pins : BitVec 3)
  /-- `LINE_TICK` (R42): The position passes the next line-pitch multiple above the high-water mark, and the line tick occurs 6 + 8 × FILT cycles after the edge. -/
  | lineTick
  /-- `TEST_LINE_TICK` (R76): The test generator produces a line tick every TLINE ns while SRC = TEST in test mode. -/
  | testLineTick
  /-- `CAMERA_TRIGGER` (R727): A trigger packet starts on the master uplink of a triggered LINE group at line tick + TROFS. -/
  | cameraTrigger (g : Fin 8) (delay : BitVec 8) (busy : Bool)
  /-- `FRAME_TICK_EDGE` (R59): Edge E(f) occurs FDLY after B(f); in head cycle 0 the device samples TDONE, makes the overrun check, sets FNUM, captures EDGE and starts the TICK_OUT pulse. -/
  | frameTickEdge
  /-- `TICK_HEAD_SWEEP` (R596): In head cycles 1–256 every descriptor and owner cache is swept empty. -/
  | tickHeadSweep
  /-- `LEDGER_RESERVATION` (R851): From head cycle 257 the ledger forms TBUD and reserves grants for FIXED kennels, then for POOL kennels by PRIO. -/
  | ledgerReservation
  /-- `DEFERRAL_END` (R856): The deferral of a kennel that receives a new reservation ends in head cycle 1,023. -/
  | deferralEnd
  /-- `KENNEL_RELEASE` (R61): At E + START every core of a LOCKED kennel receives the tick release and its TDONE bits are cleared. -/
  | kennelRelease (k : Fin 8)
  /-- `RELEASE_SCAN` (R813): At E(k) + 40 µs the egress releases the queued records of frame k−3 to each destination and sets EREL. -/
  | releaseScan
  /-- `HOLD_TIMEOUT` (R72): No edge for HOLDTO microseconds makes the tick unit enter FLUSH, or go straight to HOLD when no frame is open. -/
  | holdTimeout
  /-- `FLUSH_EDGE` (R73): A flush edge occurs one flush period after the previous edge, with the head of an edge. -/
  | flushEdge
  /-- `HOLD_ENTRY` (R74): At E(k+3) + 40 µs the tick unit enters HOLD and raises event 0x0104. -/
  | holdEntry
  /-- `TICK_OUT_PULSE_END` (R80): A TICK_OUT pulse ends OWID × 100 ns after it was last started. -/
  | tickOutPulseEnd
  /-- `TICK_CONFIG_WRITE` (R81): A write to TCFG, LDIV, NDIV, FDLY or ZCPR is accepted only in OFF or HOLD, except an SRC = OFF write, and sets CFGERR otherwise. -/
  | tickConfigWrite (w : RegWr)
  /-- `KSLOT_WRITE` (R66): A write to KSLOTn is held until the next tick head. -/
  | kslotWrite (w : RegWr)
  /-- `TDONE_WRITE` (R63): A tile writes 1 to its own TDONE bit; bits written by other requesters are unchanged. -/
  | tdoneWrite (w : RegWr)
  /-- `REGISTER_WRITE` (R14): A write to a register with no row of its own is checked for reach, locking and reserved bits and sets its fields by access code. -/
  | registerWrite (w : RegWr)
  /-- `READ_CLEAR_REGISTER` (R14): A read of an RC register returns its value and clears it in the same access. -/
  | readClearRegister (w : RegRd)
  /-- `REG64_LO_READ` (R99): A read of a _LO word captures the whole 64-bit value for the requester. -/
  | reg64LoRead (w : RegRd)
  /-- `REG64_LO_WRITE` (R100): A write to a _LO word is held until the requester writes the matching _HI word. -/
  | reg64LoWrite (w : RegWr)
  /-- `REG64_HI_WRITE` (R100): A _HI write applies both halves in one cycle, or is ignored when no _LO half is held. -/
  | reg64HiWrite (w : RegWr)
  /-- `PKEY_UNLOCK` (R114): The two unlock words from one requester unlock a lockable page and record LKPATH and LKKEN. -/
  | pkeyUnlock (w : RegWr)
  /-- `PKEY_LOCK` (R116): A write of 0x4C4F_434B to PKEY locks the page. -/
  | pkeyLock (w : RegWr)
  /-- `SOFT_RESET` (R107): A write of PCTL.SRST = 1 resets the block, clears PIRQS and locks the page, with BUSY set. -/
  | softReset (w : RegWr)
  /-- `SOFT_RESET_DONE` (R107): The soft reset completes within 1,024 cycles and PSTAT.BUSY clears. -/
  | softResetDone (slot : BitVec 12)
  /-- `BLOCK_FREEZE` (R108): A write of PCTL.FRZ = 1 asks the block to stop at its next stopping point. -/
  | blockFreeze (w : RegWr)
  /-- `BLOCK_FROZEN` (R108): The block reaches its stopping point and PSTAT.FROZEN is set. -/
  | blockFrozen (slot : BitVec 12)
  /-- `BLOCK_UNFREEZE` (R108): A write of FRZ = 0 resumes the block from the state it held. -/
  | blockUnfreeze (w : RegWr)
  /-- `PERRC_CLEAR` (R110): A write of PERRC.CLR = 1 clears the capture, PERRA and PSTAT.ERR. -/
  | perrcClear (w : RegWr)
  /-- `PIRQF_WRITE` (R124): A 1 written to a PIRQF bit sets the matching PIRQS bit and loads PTICK. -/
  | pirqfWrite (w : RegWr)
  /-- `KMAP_COMMIT_NOW` (R167): A CMT write with GO = 1 and WHEN = 0 validates and commits the staging map in the same cycle. -/
  | kmapCommitNow (w : RegWr)
  /-- `KMAP_COMMIT_ARM` (R167): A CMT write with GO = 1 and WHEN = 1 sets PEND for the next tick head or ledger round. -/
  | kmapCommitArm (w : RegWr)
  /-- `TILE_ZERO_FILL_DONE` (R171): The zero-fill after an owner change completes after SPSIZE ÷ 2 KiB cycles and BUSY clears. -/
  | tileZeroFillDone (t : TileId)
  /-- `KENNEL_FREEZE_DONE` (R155): The kennel's cores have stopped and its issued bursts have completed. -/
  | kennelFreezeDone (k : Fin 8)
  /-- `KENNEL_RESET_DONE` (R155): The kennel's jobs are discarded, credits returned and its pages soft-reset, and STATE becomes ACTIVE or FROZEN. -/
  | kennelResetDone (k : Fin 8)
  /-- `KENNEL_FREEZE` (R174): A write of KCTLk.FRZ = 1 runs the freeze step without setting FLT. -/
  | kennelFreeze (w : RegWr)
  /-- `KENNEL_RESUME` (R174): A write of KCTLk.FRZ = 0 resumes a frozen kennel. -/
  | kennelResume (w : RegWr)
  /-- `KENNEL_RESET` (R175): A write of KCTLk.RST = 1 freezes the kennel if needed and runs the reset step. -/
  | kennelReset (w : RegWr)
  /-- `ALLOC_ENTRY_WRITE` (R161): A write of TBL.ARWR with GO = 1 writes the staged image into one allocation entry in one cycle. -/
  | allocEntryWrite (w : RegWr)
  /-- `SCRATCHPAD_MAP_WRITE` (R234): A write to SPBMAP, SPHASH, SPPROT or SPSCRB is checked and applied, or refused with CFGERR. -/
  | scratchpadMapWrite (w : RegWr)
  /-- `SPPROT_ZERO_FILL_DONE` (R236): The zero-fill of quads whose protection changed completes and ZFILL clears. -/
  | spprotZeroFillDone (t : TileId)
  /-- `SCRATCHPAD_SCRUB_PASS` (R207): The scrubber reads the selected quads once every WPASS ms or APASS × 10 ms, correcting and poisoning chunks. -/
  | scratchpadScrubPass (t : TileId) (wgt : Bool) (errs : List (BitVec 48 × Bool))
  /-- `DMA_PORT_ACCESS` (R640): A waiting DMA-port access is served in rotation over groups E, X and O and performed at its bank. -/
  | dmaPortAccess (t : TileId)
  /-- `RING_ACTIVATE` (R228): A write of RACT.ACT = 1 reads a ring descriptor and activates a ring context, or refuses it. -/
  | ringActivate (w : RegWr)
  /-- `RING_ACTIVATE_DONE` (R228): The activation completes within 64 cycles with positions, tags, generations and shadow tags cleared. -/
  | ringActivateDone (t : TileId) (ctx : Fin 16)
  /-- `RING_DEACTIVATE` (R231): A write of RACT.DEACT = 1 deactivates a ring context. -/
  | ringDeactivate (w : RegWr)
  /-- `RING_STALL_TIMEOUT` (R216): A tagged-ring stall longer than TOUT cycles causes kennel fault 0x0302. -/
  | ringStallTimeout (t : TileId) (ctx : Fin 16)
  /-- `SLIP_LOG_READ` (R239): A read of SLOG0 returns the head slip entry and removes it. -/
  | slipLogRead (w : RegRd)
  /-- `HBM_READ_RETURN` (R260): A read in an HBM controller queue returns its data and frees its read-queue entry. -/
  | hbmReadReturn (st : Fin 4) (sid : Nat) (errs : List (BitVec 48 × Bool))
  /-- `HBM_WRITE_RETIRE` (R643): A burst in an HBM write buffer is written to DRAM and its entry returns. -/
  | hbmWriteRetire (st : Fin 4) (sid : Nat)
  /-- `HBM_PATROL_SCRUB` (R268): The patrol scrubber reads each burst of a stack once every PHRS hours. -/
  | hbmPatrolScrub (st : Fin 4) (errs : List (BitVec 48 × Bool))
  /-- `HBM_TEMPERATURE_READ` (R271): Each controller reads its stack temperature every 1 ms and sets refresh and temperature events. -/
  | hbmTemperatureRead (st : Fin 4) (temp : BitVec 8)
  /-- `HBM_SELF_REFRESH` (R1070): A write of CTL.SREF places a stack in or out of self-refresh, or is refused. -/
  | hbmSelfRefresh (w : RegWr)
  /-- `HBM_STACK_FAIL` (R288): A stack whose channels stop answering or whose training cannot be recovered reads failed with event 0x0225. -/
  | hbmStackFail (st : Fin 4)
  /-- `TRAINING_INVALIDATE` (R290): A write of HBM0.CTL.TRINV invalidates the training record. -/
  | trainingInvalidate (w : RegWr)
  /-- `HBM_TRAINING_DONE` (R290): HBM bring-up completes, with warm or cold training, and TREC.ST is set. -/
  | hbmTrainingDone (ok wrote : Bool) (why : BitVec 4)
  /-- `VIEW_RING_CONFIG_WRITE` (R279): A write of LRCFG or LRPIT is checked and applied, or refused with LSTAT.CFGERR. -/
  | viewRingConfigWrite (w : RegWr)
  /-- `NOP` (R300): A syllable of major opcode 0x00 does nothing in any slot. -/
  | nop (h : Syl)
  /-- `ADD` (R370): Adds two data values modulo 2^24, setting flags in the .F form. -/
  | add (h : Syl) (o : AluOp)
  /-- `SUB` (R370): Subtracts two data values modulo 2^24. -/
  | sub (h : Syl) (o : AluOp)
  /-- `ADDC` (R370): Adds two data values and the carry. -/
  | addc (h : Syl) (o : AluOp)
  /-- `SUBC` (R370): Subtracts with borrow. -/
  | subc (h : Syl) (o : AluOp)
  /-- `ADDS` (R370): Adds with 24-bit saturation and sets SAT on saturation. -/
  | adds (h : Syl) (o : AluOp)
  /-- `SUBS` (R370): Subtracts with 24-bit saturation. -/
  | subs (h : Syl) (o : AluOp)
  /-- `AND` (R370): Bitwise AND of two data values. -/
  | andD (h : Syl) (o : AluOp)
  /-- `OR` (R370): Bitwise OR of two data values. -/
  | orD (h : Syl) (o : AluOp)
  /-- `XOR` (R370): Bitwise exclusive OR of two data values. -/
  | xorD (h : Syl) (o : AluOp)
  /-- `ANDN` (R370): AND of a with the complement of b. -/
  | andn (h : Syl) (o : AluOp)
  /-- `SHL` (R371): Shifts left by n. -/
  | shl (h : Syl) (o : AluOp)
  /-- `SHR` (R371): Shifts right by n with zero fill. -/
  | shr (h : Syl) (o : AluOp)
  /-- `SAR` (R371): Shifts right by n with sign fill. -/
  | sar (h : Syl) (o : AluOp)
  /-- `MIN` (R370): Signed minimum. -/
  | minD (h : Syl) (o : AluOp)
  /-- `MAX` (R370): Signed maximum. -/
  | maxD (h : Syl) (o : AluOp)
  /-- `MINU` (R370): Unsigned minimum. -/
  | minu (h : Syl) (o : AluOp)
  /-- `MAXU` (R370): Unsigned maximum. -/
  | maxu (h : Syl) (o : AluOp)
  /-- `ABS` (R370): Saturated absolute value. -/
  | abs (h : Syl) (o : AluOp)
  /-- `NEG` (R370): Negation modulo 2^24. -/
  | neg (h : Syl) (o : AluOp)
  /-- `MOV` (R370): Copies a data register. -/
  | mov (h : Syl) (o : AluOp)
  /-- `MOVI` (R374): Writes a 24-bit immediate to a data register. -/
  | movi (h : Syl) (o : ImmOp)
  /-- `CMPEQ` (R375): Compares for equality into a predicate or data register. -/
  | cmpeq (h : Syl) (o : CmpOp)
  /-- `CMPNE` (R375): Compares for inequality. -/
  | cmpne (h : Syl) (o : CmpOp)
  /-- `CMPLT` (R375): Signed less-than compare. -/
  | cmplt (h : Syl) (o : CmpOp)
  /-- `CMPLE` (R375): Signed less-or-equal compare. -/
  | cmple (h : Syl) (o : CmpOp)
  /-- `CMPGT` (R375): Signed greater-than compare. -/
  | cmpgt (h : Syl) (o : CmpOp)
  /-- `CMPGE` (R375): Signed greater-or-equal compare. -/
  | cmpge (h : Syl) (o : CmpOp)
  /-- `CMPLTU` (R375): Unsigned less-than compare. -/
  | cmpltu (h : Syl) (o : CmpOp)
  /-- `CMPLEU` (R375): Unsigned less-or-equal compare. -/
  | cmpleu (h : Syl) (o : CmpOp)
  /-- `CMPGTU` (R375): Unsigned greater-than compare. -/
  | cmpgtu (h : Syl) (o : CmpOp)
  /-- `CMPGEU` (R375): Unsigned greater-or-equal compare. -/
  | cmpgeu (h : Syl) (o : CmpOp)
  /-- `PAND` (R376): Predicate AND. -/
  | pand (h : Syl) (o : PlgOp)
  /-- `POR` (R376): Predicate OR. -/
  | por (h : Syl) (o : PlgOp)
  /-- `PXOR` (R376): Predicate exclusive OR. -/
  | pxor (h : Syl) (o : PlgOp)
  /-- `PANDN` (R376): Predicate AND with the complement of PB. -/
  | pandn (h : Syl) (o : PlgOp)
  /-- `PNOT` (R376): Predicate complement. -/
  | pnot (h : Syl) (o : PlgOp)
  /-- `PMOV` (R376): Predicate copy. -/
  | pmov (h : Syl) (o : PlgOp)
  /-- `MUL` (R377): Low 24 bits of a product. -/
  | mul (h : Syl) (o : MxOp)
  /-- `MULH` (R377): High 24 bits of the signed product. -/
  | mulh (h : Syl) (o : MxOp)
  /-- `MULHU` (R377): High 24 bits of the unsigned product. -/
  | mulhu (h : Syl) (o : MxOp)
  /-- `MAC` (R377): Adds a signed product to an accumulator. -/
  | mac (h : Syl) (o : MxOp)
  /-- `MACU` (R377): Adds an unsigned product to an accumulator. -/
  | macu (h : Syl) (o : MxOp)
  /-- `MSU` (R377): Subtracts a signed product from an accumulator. -/
  | msu (h : Syl) (o : MxOp)
  /-- `XCLR` (R377): Clears an accumulator. -/
  | xclr (h : Syl) (o : MxOp)
  /-- `XRD` (R377): Reads a 24-bit part of an accumulator. -/
  | xrd (h : Syl) (o : MxOp)
  /-- `XWR` (R377): Writes a 24-bit part of an accumulator. -/
  | xwr (h : Syl) (o : MxOp)
  /-- `XSAT` (R379): Shifts an accumulator right and saturates it to 24 bits. -/
  | xsat (h : Syl) (o : MxOp)
  /-- `XRND` (R379): Rounds, shifts and saturates an accumulator to 24 bits. -/
  | xrnd (h : Syl) (o : MxOp)
  /-- `FEXT` (R380): Extracts a bit field, zero-extended. -/
  | fext (h : Syl) (o : BfdOp)
  /-- `FEXTS` (R380): Extracts a bit field, sign-extended. -/
  | fexts (h : Syl) (o : BfdOp)
  /-- `FINS` (R380): Inserts a bit field. -/
  | fins (h : Syl) (o : BfdOp)
  /-- `CLZ` (R380): Counts leading zeros of a 24-bit value. -/
  | clz (h : Syl) (o : BfdOp)
  /-- `BPERM` (R382): Permutes bytes of two data values and constants. -/
  | bperm (h : Syl) (o : BfdOp)
  /-- `BRA` (R393): Relative branch with one delay bundle. -/
  | bra (h : Syl) (o : BrlOp)
  /-- `CALL` (R393): Relative branch that writes the return address. -/
  | call (h : Syl) (o : BrlOp)
  /-- `BR` (R394): Branch to the address in an A register. -/
  | br (h : Syl) (o : BrgOp)
  /-- `CALLR` (R394): Register branch that writes the return address. -/
  | callr (h : Syl) (o : BrgOp)
  /-- `REPB` (R398): Sets up a repeat level over a block, or skips it when the count is 0. -/
  | repb (h : Syl) (o : RptOp)
  /-- `REPEAT_LOOP_BACK` (R313): The end bundle of an active level completes and the level loops back or ends. -/
  | repeatLoopBack (k : CoreId)
  /-- `MOVS` (R403): One issue of a string copy from A12 to A13. -/
  | movs (h : Syl) (o : StrOp)
  /-- `FILLS` (R404): One issue of a string fill at A13. -/
  | fills (h : Syl) (o : StrOp)
  /-- `CMPS` (R403): One issue of a string compare of A12 with A13 into a predicate. -/
  | cmps (h : Syl) (o : StrOp)
  /-- `MFC` (R412): Reads a control register into an A register. -/
  | mfc (h : Syl) (o : CtlOp)
  /-- `MTC` (R413): Writes a control register from an A register. -/
  | mtc (h : Syl) (o : CtlOp)
  /-- `MTCC` (R415): Clears software-interrupt bits through the clear form of IPEND. -/
  | mtcc (h : Syl) (o : CtlOp)
  /-- `ERET` (R321): Returns from an exception, restoring state from ESTAT. -/
  | eret (h : Syl) (code : BitVec 16)
  /-- `NRET` (R417): Returns from the NMI, restoring state from NESTAT. -/
  | nret (h : Syl) (code : BitVec 16)
  /-- `TRAP` (R320): Completes its bundle and takes exception 0x0B09 at vector 7. -/
  | trap (h : Syl) (code : BitVec 16)
  /-- `WAITT` (R344): Stops issue until the core holds a tick release. -/
  | waitt (h : Syl) (code : BitVec 16)
  /-- `LDBU` (R383): Loads a byte, zero-extended. -/
  | ldbu (h : Syl) (o : LdsOp)
  /-- `LDB` (R383): Loads a byte, sign-extended. -/
  | ldb (h : Syl) (o : LdsOp)
  /-- `LDHU` (R383): Loads two bytes, zero-extended. -/
  | ldhu (h : Syl) (o : LdsOp)
  /-- `LDH` (R383): Loads two bytes, sign-extended. -/
  | ldh (h : Syl) (o : LdsOp)
  /-- `LD` (R383): Loads a 24-bit data word. -/
  | ld (h : Syl) (o : LdsOp)
  /-- `LDA` (R383): Loads a 48-bit address value. -/
  | lda (h : Syl) (o : LdsOp)
  /-- `LDQ` (R383): Loads 4 bytes into an A register, zero-extended. -/
  | ldq (h : Syl) (o : LdsOp)
  /-- `STB` (R383): Stores a byte. -/
  | stb (h : Syl) (o : LdsOp)
  /-- `STH` (R383): Stores two bytes. -/
  | sth (h : Syl) (o : LdsOp)
  /-- `ST` (R383): Stores a 24-bit data word. -/
  | st (h : Syl) (o : LdsOp)
  /-- `STA` (R383): Stores a 48-bit address value. -/
  | sta (h : Syl) (o : LdsOp)
  /-- `STQ` (R383): Stores the low 4 bytes of an A register. -/
  | stq (h : Syl) (o : LdsOp)
  /-- `LOAD_DATA_RETURN` (R306): Data of a load on a variable-latency path returns and the held bundle issues. -/
  | loadDataReturn (k : CoreId)
  /-- `POSTED_STORE_DONE` (R306): A posted store on a variable-latency path is performed or refused. -/
  | postedStoreDone (k : CoreId)
  /-- `BUS_ERROR` (R322): A refusal reaching the core is taken as exception 0x0B03 at the next bundle boundary. -/
  | busError (k : CoreId)
  /-- `MOVA` (R391): Copies an A register. -/
  | mova (h : Syl) (o : AdrOp)
  /-- `ADDA` (R391): Adds an immediate to an A register. -/
  | adda (h : Syl) (o : AdrOp)
  /-- `ADDAD` (R391): Adds a sign-extended data register to an A register. -/
  | addad (h : Syl) (o : AdrOp)
  /-- `SUBAD` (R391): Subtracts a sign-extended data register from an A register. -/
  | subad (h : Syl) (o : AdrOp)
  /-- `MOVAL` (R391): Writes a zero-extended 24-bit immediate to an A register. -/
  | moval (h : Syl) (o : ImmOp)
  /-- `MOVAU` (R391): Writes the upper 24 bits of an A register. -/
  | movau (h : Syl) (o : ImmOp)
  /-- `MOVDA` (R391): Moves a sign-extended data register into an A register. -/
  | movda (h : Syl) (o : AdrOp)
  /-- `MOVAD` (R391): Moves the low 24 bits of an A register into a data register. -/
  | movad (h : Syl) (o : AdrOp)
  /-- `MOVAH` (R391): Moves the high 24 bits of an A register into a data register. -/
  | movah (h : Syl) (o : AdrOp)
  /-- `LEA` (R391): Forms A + D × s into an A register. -/
  | lea (h : Syl) (o : AdrOp)
  /-- `RPUT` (R408): The core applies PUT to a ring context of its tile. -/
  | rput (h : Syl) (ctx : BitVec 4)
  /-- `RFREE` (R408): The core applies FREE to a ring context of its tile. -/
  | rfree (h : Syl) (ctx : BitVec 4)
  /-- `MSYNC` (R411): Stalls issue until every posted store has been performed or refused. -/
  | msync (h : Syl)
  /-- `INTERRUPT_ACCEPT` (R326): A pending enabled interrupt line is accepted at a bundle boundary and vectors to its handler. -/
  | interruptAccept (k : CoreId)
  /-- `NMI_ACCEPT` (R327): The watchdog NMI is accepted at the next boundary, saves NEPC and NESTAT and vectors to 8. -/
  | nmiAccept (k : CoreId)
  /-- `SOFTWARE_INTERRUPT` (R355): A write of SWI sets the core's interrupt lines. -/
  | softwareInterrupt (w : RegWr)
  /-- `PROGRAM_FILL` (R348): A write of PLOAD.GO = 1 on a stopped core starts filling the program store from PBASE. -/
  | programFill (w : RegWr)
  /-- `PROGRAM_FILL_DONE` (R348): The program fill completes and PFSTAT reads done or failed. -/
  | programFillDone (k : CoreId)
  /-- `CORE_RUN` (R349): A write of CCTL.RUN = 1 starts a stopped core at ENTRY. -/
  | coreRun (w : RegWr)
  /-- `CORE_STOP` (R349): A write of CCTL.RUN = 0 stops the core at its next bundle boundary. -/
  | coreStop (w : RegWr)
  /-- `VADD` (R451): Vector integer addition. -/
  | vadd (h : Syl) (o : VAlu)
  /-- `VSUB` (R451): Vector integer subtraction. -/
  | vsub (h : Syl) (o : VAlu)
  /-- `VADDS` (R451): Vector saturated addition. -/
  | vadds (h : Syl) (o : VAlu)
  /-- `VSUBS` (R451): Vector saturated subtraction. -/
  | vsubs (h : Syl) (o : VAlu)
  /-- `VAND` (R451): Vector AND. -/
  | vand (h : Syl) (o : VAlu)
  /-- `VOR` (R451): Vector OR. -/
  | vor (h : Syl) (o : VAlu)
  /-- `VXOR` (R451): Vector exclusive OR. -/
  | vxor (h : Syl) (o : VAlu)
  /-- `VANDN` (R451): Vector AND with complement. -/
  | vandn (h : Syl) (o : VAlu)
  /-- `VSHL` (R452): Vector shift left. -/
  | vshl (h : Syl) (o : VAlu)
  /-- `VSHR` (R452): Vector logical shift right. -/
  | vshr (h : Syl) (o : VAlu)
  /-- `VSAR` (R452): Vector arithmetic shift right. -/
  | vsar (h : Syl) (o : VAlu)
  /-- `VMIN` (R451): Vector minimum. -/
  | vmin (h : Syl) (o : VAlu)
  /-- `VMAX` (R451): Vector maximum. -/
  | vmax (h : Syl) (o : VAlu)
  /-- `VMUL` (R451): Vector low product. -/
  | vmul (h : Syl) (o : VAlu)
  /-- `VMULH` (R451): Vector high product. -/
  | vmulh (h : Syl) (o : VAlu)
  /-- `VABSD` (R451): Vector saturated absolute difference. -/
  | vabsd (h : Syl) (o : VAlu)
  /-- `VAVG` (R451): Vector rounded average. -/
  | vavg (h : Syl) (o : VAlu)
  /-- `VABS` (R451): Vector saturated absolute value. -/
  | vabs (h : Syl) (o : VAlu)
  /-- `VNEG` (R451): Vector saturated negation. -/
  | vneg (h : Syl) (o : VAlu)
  /-- `VMOV` (R451): Vector register copy. -/
  | vmov (h : Syl) (o : VrOp)
  /-- `VMOVI` (R451): Writes an immediate into every active lane. -/
  | vmovi (h : Syl) (o : ViOp)
  /-- `VFADD` (R454): Vector float addition. -/
  | vfadd (h : Syl) (o : VrOp)
  /-- `VFSUB` (R454): Vector float subtraction. -/
  | vfsub (h : Syl) (o : VrOp)
  /-- `VFMUL` (R454): Vector float multiplication. -/
  | vfmul (h : Syl) (o : VrOp)
  /-- `VFMIN` (R454): Vector float minimum. -/
  | vfmin (h : Syl) (o : VrOp)
  /-- `VFMAX` (R454): Vector float maximum. -/
  | vfmax (h : Syl) (o : VrOp)
  /-- `VFABS` (R454): Clears the sign bit of float lanes. -/
  | vfabs (h : Syl) (o : VrOp)
  /-- `VFNEG` (R454): Inverts the sign bit of float lanes. -/
  | vfneg (h : Syl) (o : VrOp)
  /-- `VCMPEQ` (R455): Vector equality compare into a mask. -/
  | vcmpeq (h : Syl) (o : VrOp)
  /-- `VCMPNE` (R455): Vector inequality compare into a mask. -/
  | vcmpne (h : Syl) (o : VrOp)
  /-- `VCMPLT` (R455): Vector less-than compare into a mask. -/
  | vcmplt (h : Syl) (o : VrOp)
  /-- `VCMPLE` (R455): Vector less-or-equal compare into a mask. -/
  | vcmple (h : Syl) (o : VrOp)
  /-- `VCMPGT` (R455): Vector greater-than compare into a mask. -/
  | vcmpgt (h : Syl) (o : VrOp)
  /-- `VCMPGE` (R455): Vector greater-or-equal compare into a mask. -/
  | vcmpge (h : Syl) (o : VrOp)
  /-- `VCMPLTU` (R455): Vector unsigned less-than compare into a mask. -/
  | vcmpltu (h : Syl) (o : VrOp)
  /-- `VCMPLEU` (R455): Vector unsigned less-or-equal compare into a mask. -/
  | vcmpleu (h : Syl) (o : VrOp)
  /-- `VCMPGTU` (R455): Vector unsigned greater-than compare into a mask. -/
  | vcmpgtu (h : Syl) (o : VrOp)
  /-- `VCMPGEU` (R455): Vector unsigned greater-or-equal compare into a mask. -/
  | vcmpgeu (h : Syl) (o : VrOp)
  /-- `MAND` (R456): Mask AND. -/
  | mand (h : Syl) (o : VkOp)
  /-- `MOR` (R456): Mask OR. -/
  | mor (h : Syl) (o : VkOp)
  /-- `MXOR` (R456): Mask exclusive OR. -/
  | mxor (h : Syl) (o : VkOp)
  /-- `MANDN` (R456): Mask AND with complement. -/
  | mandn (h : Syl) (o : VkOp)
  /-- `MNOT` (R456): Mask complement. -/
  | mnot (h : Syl) (o : VkOp)
  /-- `MMOV` (R456): Mask copy. -/
  | mmov (h : Syl) (o : VkOp)
  /-- `VMAC` (R457): Adds lane products into a vector accumulator. -/
  | vmac (h : Syl) (o : VrOp)
  /-- `VMSU` (R457): Subtracts lane products from a vector accumulator. -/
  | vmsu (h : Syl) (o : VrOp)
  /-- `VACLR` (R457): Clears a vector accumulator. -/
  | vaclr (h : Syl) (o : VrOp)
  /-- `VARD` (R458): Narrows accumulator lanes to the lane type. -/
  | vard (h : Syl) (o : VrOp)
  /-- `VAMOV` (R457): Copies a VG2 group into a vector accumulator. -/
  | vamov (h : Syl) (o : VrOp)
  /-- `VAST` (R457): Copies a vector accumulator into a VG2 group. -/
  | vast (h : Syl) (o : VrOp)
  /-- `VCMUL` (R459): Complex lane product, narrowed. -/
  | vcmul (h : Syl) (o : VrOp)
  /-- `VCMAC` (R459): Complex lane product accumulated. -/
  | vcmac (h : Syl) (o : VrOp)
  /-- `VBPERM` (R460): Byte permute by index lanes. -/
  | vbperm (h : Syl) (o : VrOp)
  /-- `VSLD` (R460): Byte slide across two registers. -/
  | vsld (h : Syl) (o : VrOp)
  /-- `VSEL` (R460): Byte select under a mask. -/
  | vsel (h : Syl) (o : VrOp)
  /-- `VWIDEN` (R460): Widens 8-bit lanes to 16-bit lanes of a group. -/
  | vwiden (h : Syl) (o : VrOp)
  /-- `VNARROW` (R460): Narrows S16 lanes of a group to 8-bit lanes. -/
  | vnarrow (h : Syl) (o : VrOp)
  /-- `VCVT` (R461): Converts lanes between types of equal width. -/
  | vcvt (h : Syl) (o : VrOp)
  /-- `VBCST` (R463): Broadcasts a data register into every active lane. -/
  | vbcst (h : Syl) (o : VxOp)
  /-- `VINS` (R463): Inserts a data register into one lane. -/
  | vins (h : Syl) (o : VxOp)
  /-- `VEXT` (R463): Extracts one lane into a data register. -/
  | vext (h : Syl) (o : VxOp)
  /-- `MPOP` (R463): Counts the set bits of a mask. -/
  | mpop (h : Syl) (o : VxOp)
  /-- `VLD` (R464): Loads a vector register or group from the own scratchpad. -/
  | vld (h : Syl) (o : VsOp)
  /-- `VST` (R464): Stores a vector register or group to the own scratchpad. -/
  | vst (h : Syl) (o : VsOp)
  /-- `VECTOR_IDLE_GATE` (R441): The idle timer reaches IDLE × 64 and the vector datapath is gated. -/
  | vectorIdleGate (t : TileId)
  /-- `VECTOR_WAKE` (R443): A write of VCTL.WAKE, a SCHED write or a V-slot syllable meeting a gated unit starts a wake. -/
  | vectorWake (w : RegWr)
  /-- `VECTOR_WAKE_DONE` (R443): The wake completes 240 cycles later and the unit is on. -/
  | vectorWakeDone (t : TileId)
  /-- `ACFG` (R532): Sets AFMT, AZW, AZA or ARING for later array commands. -/
  | acfg (h : Syl) (sel : BitVec 2) (ds : BitVec 5)
  /-- `AWLD` (R533): Queues a load of the shadow weight register from a weight image. -/
  | awld (h : Syl) (an : BitVec 4)
  /-- `ASTR` (R534): Queues a stream of NPOS activation positions into AAM rows. -/
  | astr (h : Syl) (an : BitVec 4) (dn : BitVec 5) (dr : BitVec 5) (acc : Bool) (swp : Bool) (ntf : Bool)
  /-- `ASWP` (R535): Swaps the shadow weight register into the active register. -/
  | aswp (h : Syl)
  /-- `AFREE` (R535): Applies FREE to ARING.CTX after every earlier array command completes. -/
  | afree (h : Syl)
  /-- `ARRAY_COMMAND_BEGIN` (R523): The command at the head of the array queue is checked and begins at its first eligible even cycle. -/
  | arrayCommandBegin (t : TileId)
  /-- `WEIGHT_LOAD_DONE` (R525): The shadow register is ready 2 × Lw cycles after the weight load began. -/
  | weightLoadDone (t : TileId)
  /-- `ARRAY_LINE_READ` (R524): A stream reads one line of its run in its scheduled even cycle. -/
  | arrayLineRead (t : TileId)
  /-- `AAM_ROW_UPDATE` (R514): A position's contribution is written into its AAM row. -/
  | aamRowUpdate (t : TileId) (errs : List (BitVec 16 × Bool))
  /-- `ARRAY_JOB_COMPLETE` (R527): A stream completes at b + S + L, increments AJCNT and applies FREE with NTF. -/
  | arrayJobComplete (t : TileId) (bad : List (BitVec 5))
  /-- `DJOB` (R569): Queues a drain job of a profile over NROW AAM rows. -/
  | djob (h : Syl) (prof : BitVec 3) (an : BitVec 4) (dr : BitVec 5) (dn : BitVec 5) (ntf : Bool) (wa : Bool)
  /-- `DRAIN_JOB_BEGIN` (R564): The drain job at the head of the queue is checked, captures its live profile and begins at its odd cycle. -/
  | drainJobBegin (t : TileId)
  /-- `DRAIN_ROW_READ` (R566): A drain row is read from the AAM when the row buffer has room. -/
  | drainRowRead (t : TileId) (errs : List (BitVec 11 × Bool))
  /-- `DRAIN_PIECE_WRITE` (R566): A drain piece is written to the scratchpad in its odd cycle. -/
  | drainPieceWrite (t : TileId)
  /-- `DRAIN_JOB_COMPLETE` (R566): The drain job completes, increments DJCNT and applies PUT with NTF. -/
  | drainJobComplete (t : TileId)
  /-- `PCMT_NOW` (R572): Copies all staging drain profiles to the live copies at once and clears a pending ARM. -/
  | pcmtNow (w : RegWr)
  /-- `PCMT_ARM` (R572): Arms a copy of the staging drain profiles for the next tick head. -/
  | pcmtArm (w : RegWr)
  /-- `DPD_ACCESS` (R574): A DPD read or write accesses DPM word DPA and increments DPA, or is refused while busy. -/
  | dpdAccess (w : RegWr) (read : Bool)
  /-- `DMAJ` (R613): Reads a job record and queues a DMA job for an engine. -/
  | dmaj (h : Syl) (eng : BitVec 3) (an : BitVec 4)
  /-- `TDNEW` (R617): Queues creation of a table-memory entry from an image. -/
  | tdnew (h : Syl) (an : BitVec 4) (di : BitVec 5)
  /-- `TDINV` (R597): Removes a descriptor entry, or all, from every descriptor cache. -/
  | tdinv (h : Syl) (di : BitVec 5) (all : Bool)
  /-- `OTINV` (R597): Removes a range of owner entries, or all, from every owner cache. -/
  | otinv (h : Syl) (an : BitVec 4) (dn : BitVec 5) (all : Bool)
  /-- `TDNEW_COMPLETE` (R617): TDNEW checks its image and writes the entry whole, or rejects it, and sets TDRES. -/
  | tdnewComplete (k : CoreId)
  /-- `INVALIDATE_COMPLETE` (R597): A TDINV or OTINV completes within 64 cycles of reaching the head of its queue. -/
  | invalidateComplete (k : CoreId)
  /-- `DMA_JOB_ACCEPT` (R601): An engine accepts a job from a requester's queue head when its kennel is below DSH, captures descriptors and checks it. -/
  | dmaJobAccept (e : Fin 8) (parS parD : Bool)
  /-- `DMA_JOB_SLOT_GRANT` (R648): A freed running slot is given to a kennel by rotation and its oldest accepted job begins. -/
  | dmaJobSlotGrant (e : Fin 8)
  /-- `DMA_BURST_ISSUE` (R649): In its turn the engine issues one burst for the line-move slot and each running job. -/
  | dmaBurstIssue (e : Fin 8)
  /-- `DMA_JOB_COMPLETE` (R603): A job completes, increments JDONEk and applies PUT or FREE with NTF. -/
  | dmaJobComplete (e : Fin 8)
  /-- `LINE_MOVE_COMPLETE` (R610): A line move has copied its elements into the ring slot and completes. -/
  | lineMoveComplete (e : Fin 8)
  /-- `LINE_MOVE_ENABLE` (R625): A write of LMCFG.EN = 1 is checked and enables a line-move program, or is refused with 0x0526. -/
  | lineMoveEnable (w : RegWr)
  /-- `CREDIT_WAIT_TIMEOUT` (R652): A running job or line move waits longer than CWTO for a credit and is cut with kennel fault 0x0415. -/
  | creditWaitTimeout (e : Fin 8)
  /-- `CREDIT_TAKE` (R636): A waiting requester takes a freed credit in the order of R638. -/
  | creditTake
  /-- `LSMP` (R675): The learning engine performs one sample: outputs, post values and trace update. -/
  | lsmp (h : Syl) (an am : BitVec 4) (ntf : Bool) (ctx : BitVec 4)
  /-- `LREW` (R676): The learning engine applies a reward vector to the gradients. -/
  | lrew (h : Syl) (an : BitVec 4) (ntf : Bool) (ctx : BitVec 4)
  /-- `EPOCH_END_UPDATE` (R679): LECNT reaching LEN or an EPEND request starts the optimiser, weight, prune and create update. -/
  | epochEndUpdate
  /-- `PLASTIC_COMMIT` (R685): After every EVERY-th update the engine writes changed pages, the map and the record to MRAM. -/
  | plasticCommit
  /-- `PLASTIC_COMMIT_DONE` (R685): The new record is written, LCEP reads its epoch and event 0x0A02 is raised. -/
  | plasticCommitDone (bad : List (Nat × Nat))
  /-- `LOAD` (R697): Copies the committed layer into the work area and zeroes the working state. -/
  | loadLayer (w : RegWr)
  /-- `ERASE` (R697): Commits an empty layer as epoch 0 and loads it. -/
  | erase (w : RegWr)
  /-- `IMPORT` (R692): Checks an image at LXBASE, commits its pages and loads the work area. -/
  | importImg (w : RegWr)
  /-- `EXPORT` (R691): Writes an image of the committed layer, and optionally the work area, to LXBASE. -/
  | exportImg (w : RegWr)
  /-- `EPEND` (R697): Requests an epoch end at the next edge. -/
  | epend (w : RegWr)
  /-- `LRN_ENABLE` (R697): A write of LCTL.EN = 1 enables commands and epoch counting in READY. -/
  | lrnEnable (w : RegWr)
  /-- `LRN_OPERATION_DONE` (R697): A LOAD, ERASE, IMPORT or EXPORT completes and STATE takes its end state. -/
  | lrnOperationDone (errs : List (BitVec 14 × BitVec 5 × Bool))
  /-- `PLASTIC_RECORD_SELECT` (R687): Within 1 ms of core release the engine puts the valid record in force, rolling back a cut commit. -/
  | plasticRecordSelect
  /-- `LINK_LOCK` (R733): A CXP link locks after 1 ms of valid characters at its speed. -/
  | linkLock (l : Fin 16)
  /-- `CAMERA_HEARTBEAT` (R733): A heartbeat from the camera is received and keeps the link up. -/
  | cameraHeartbeat (l : Fin 16)
  /-- `HEARTBEAT_TIMEOUT` (R733): No camera heartbeat for HBTO ms takes the link down and the group DOWN. -/
  | heartbeatTimeout (l : Fin 16)
  /-- `HOST_HEARTBEAT_SEND` (R711): Ingest sends a heartbeat carrying GTIME to each camera every 100 ms. -/
  | hostHeartbeatSend
  /-- `STREAM_PACKET` (R717): A stream packet arrives; a new line begins and pairs with the oldest waiting expected line, or is unsolicited. -/
  | streamPacket (g : Fin 8) (p : StreamPkt)
  /-- `EVENT_PACKET` (R734): An event packet from a camera is discarded and counted. -/
  | eventPacket (l : Fin 16)
  /-- `LINE_WINDOW_CLOSE` (R717): An expected line's LWIN closes before its line begins and it is lost with NOARR. -/
  | lineWindowClose (g : Fin 8)
  /-- `LINE_LANDED` (R720): Ingest writes the line's metadata within 480 cycles of its last byte and the line lands. -/
  | lineLanded (g : Fin 8)
  /-- `LINE_DEADLINE` (R721): A line not landed by its deadline is lost with LATE. -/
  | lineDeadline (g : Fin 8)
  /-- `IMAGE_TRIGGER` (R729): A write of 1 to an ITRIG bit sends one trigger packet to an IMAGE group. -/
  | imageTrigger (w : RegWr)
  /-- `IMAGE_LANDED` (R731): An image's header is written last and the image lands, whole or PART. -/
  | imageLanded (g : Fin 8)
  /-- `MAILBOX_SEND` (R734): A write of MBCTL.GO frames MBCMD as a tagged control command on the target link. -/
  | mailboxSend (w : RegWr)
  /-- `MAILBOX_ACK` (R734): The matching acknowledgement is placed in MBRSP and the mailbox is done. -/
  | mailboxAck (tag : BitVec 8) (crcOk : Bool) (data : List (BitVec 8))
  /-- `MAILBOX_TIMEOUT` (R734): A command unanswered for 200 ms fails with event 0x0709. -/
  | mailboxTimeout
  /-- `LINK_SPEED_WRITE` (R735): A SPEED write to an enabled link retrains it and clears LOCK. -/
  | linkSpeedWrite (w : RegWr)
  /-- `GROUP_ENABLE` (R736): A write of GCFG.EN = 1 is checked and enables a camera group, or is refused with event 0x070A. -/
  | groupEnable (w : RegWr)
  /-- `GROUP_DISABLE` (R742): A write of EN = 0 loses every waiting line with OFF and disables the group. -/
  | groupDisable (w : RegWr)
  /-- `PORT_ENABLE` (R760): A write of LCTL.EN = 1 starts a Vaxlin port through DETECT. -/
  | portEnable (w : RegWr)
  /-- `PORT_STATE_ADVANCE` (R760): A training state of a port completes and the port moves to the next state. -/
  | portStateAdvance (p : Fin 4)
  /-- `HANDSHAKE_RECEIVED` (R761): The peer's handshake is stored and the port becomes UP or incompatible. -/
  | handshakeReceived (p : Fin 4) (h : PeerInfo)
  /-- `FRAME_RECEIVED` (R754): A received data frame is accepted in SEQ order or discarded, and its ACK and credits are applied. -/
  | frameReceived (p : Fin 4) (f : RxFrame)
  /-- `NAK_RECEIVED` (R756): A NAK control frame makes the sender resend from the named SEQ. -/
  | nakReceived (p : Fin 4) (f : RxFrame)
  /-- `REPLAY_TIMEOUT` (R756): ACK has not advanced for 2 µs and the sender resends from the oldest unacknowledged frame. -/
  | replayTimeout (p : Fin 4)
  /-- `RETRAIN_BEGIN` (R757): A port begins to retrain on resend, block or lock failure, or a write of LCTL.RETR. -/
  | retrainBegin (p : Fin 4)
  /-- `RETRAIN_COMPLETE` (R757): A retrain completes and the port is UP again with its state kept. -/
  | retrainComplete (p : Fin 4)
  /-- `PORT_LOST` (R792): A port not UP within LOSTO becomes LOST and discards its messages and credits. -/
  | portLost (p : Fin 4)
  /-- `LOST_HOLD_EXPIRY` (R760): A LOST port returns to DETECT after 1 ms. -/
  | lostHoldExpiry (p : Fin 4)
  /-- `RDREQ` (R766): A read request is performed at its destination and answered with RDRSP. -/
  | rdreq (p : Fin 4)
  /-- `WRREQ` (R766): A write request is performed at its destination and answered with WRACK. -/
  | wrreq (p : Fin 4)
  /-- `STWR` (R766): A tensor-stream write is performed at its destination and answered with WRACK. -/
  | stwr (p : Fin 4)
  /-- `REGRD` (R766): A register read is performed at its destination and answered with RDRSP. -/
  | regrd (p : Fin 4)
  /-- `REGWR` (R766): A register write is performed at its destination and answered with WRACK. -/
  | regwr (p : Fin 4)
  /-- `RDRSP` (R793): A read response reaches the requester and ends its message. -/
  | rdrsp (p : Fin 4)
  /-- `WRACK` (R793): A write acknowledgement reaches the requester and ends its message. -/
  | wrack (p : Fin 4)
  /-- `CTLM` (R765): A control message on the escape channel is received. -/
  | ctlm (p : Fin 4)
  /-- `RECF` (R811): A record for the manager arrives and is written to the kennel's forward ring. -/
  | recf (p : Fin 4)
  /-- `REMOTE_TIMEOUT` (R793): A remote message waits RTO ms without response and is ended. -/
  | remoteTimeout
  /-- `BEAT_TOKEN` (R773): The acting manager sends a BEAT heel token after CHINT ÷ 2 µs without a token. -/
  | beatToken
  /-- `HEEL_TOKEN_RECEIVED` (R774): A good heel token copy is accepted once per TSEQ and forwarded, or discarded as a duplicate. -/
  | heelTokenReceived (p : Fin 4) (bytes : List (BitVec 8)) (fecc fecu : BitVec 2)
  /-- `CASCADE_TIME_ACTION` (R776): At a token's cascade time the device performs its line tick, edge or FLUSH entry and follows POS and DIR. -/
  | cascadeTimeAction
  /-- `LISTEN_TIMEOUT` (R784): A manager in LISTEN hears no token for 3 × CHINT and becomes the acting manager. -/
  | listenTimeout
  /-- `HEEL_LOSS` (R786): A follower or standby accepts no token for 3 × CHINT and declares heel loss. -/
  | heelLoss
  /-- `PING_SEND` (R783): An UP port sends a PING every 125 µs for 8 PINGs, then every 1 ms. -/
  | pingSend (p : Fin 4)
  /-- `PING_RECEIVED` (R759): A PING is received and answered with an ECHO. -/
  | pingReceived (p : Fin 4) (f : RxFrame)
  /-- `ECHO_RECEIVED` (R783): An ECHO updates LDLY, and the 8th enables heel tokens on the port. -/
  | echoReceived (p : Fin 4) (f : RxFrame) (rtt : BitVec 32)
  /-- `CASCADE_CONFIG_WRITE` (R798): A write of a VXL cascade register is checked and applied, or refused with 0x0526. -/
  | cascadeConfigWrite (w : RegWr)
  /-- `PCIE_MEMORY_REQUEST` (R806): A PCIe request through BAR0 or BAR2 is checked and performed, or completes with Completer Abort. -/
  | pcieMemoryRequest (q : PcieReq)
  /-- `RCONS_WRITE` (R819): The host writes RCONS in BAR4, freeing result-ring entries. -/
  | rconsWrite (fn : Fin 9) (v : BitVec 32)
  /-- `CPROD_WRITE` (R822): The host writes CPROD in BAR4, offering command-ring entries. -/
  | cprodWrite (fn : Fin 9) (v : BitVec 32)
  /-- `COMMAND_FETCH` (R822): The device copies one command-ring entry into the command buffer when it has room and writes CFETCH. -/
  | commandFetch (fn : Fin 9) (entry : List (BitVec 8))
  /-- `EGRESS_POLL` (R814): Between scans each destination reads its next slot at least every 2 µs and takes a queued record. -/
  | egressPoll
  /-- `RESULT_INTERRUPT_TIMER` (R819): RITMO µs after the first unsignalled entry MSI-X vector 0 fires. -/
  | resultInterruptTimer (fn : Fin 9)
  /-- `DATAGRAM_LINGER_EXPIRY` (R824): DLING µs after its first record an open datagram is closed and sent. -/
  | datagramLingerExpiry (p : Fin 2) (k : Fin 8)
  /-- `ETH_FRAME_RECEIVED` (R826): An Ethernet frame is received and placed in the receive ring or discarded. -/
  | ethFrameReceived (p : Fin 2) (f : EthFrame)
  /-- `TIMESTAMP_READ` (R836): A read of TSRX_HI or TSTX_HI returns and removes the oldest stamp. -/
  | timestampRead (w : RegRd)
  /-- `GTIME_STEP` (R828): A write of GSTEP_HI adds GSTEP to GTIME and raises event 0x0D0B. -/
  | gtimeStep (w : RegWr)
  /-- `FUNCTION_LEVEL_RESET` (R839): A function-level reset clears the function's rings and raises event 0x0D03. -/
  | functionLevelReset (fn : Fin 9)
  /-- `HOST_ACCESS_ERROR` (R839): The host answers a ring access with an error and the function's rings are disabled with event 0x0D09. -/
  | hostAccessError (fn : Fin 9)
  /-- `PCIE_LINK_CHANGE` (R837): The PCIe link goes down or up. -/
  | pcieLinkChange (up : Bool) (speed : BitVec 3) (width : BitVec 4)
  /-- `ETH_LINK_CHANGE` (R837): An Ethernet link goes down or up. -/
  | ethLinkChange (p : Fin 2) (up : Bool)
  /-- `HOST_RING_ENABLE` (R834): A write of EN = 1 to a ring, queue or VF map is checked and applied, or refused with 0x0526. -/
  | hostRingEnable (w : RegWr)
  /-- `KENNEL_DEFERRAL` (R855): A kennel's charge reaches its deferral point and its tiles and jobs are frozen. -/
  | kennelDeferral (k : Fin 8)
  /-- `MUZZLE_WINDOW` (R859): At the end of each MWIN window the ledger raises or lowers MLVL. -/
  | muzzleWindow
  /-- `LEDGER_ROUND` (R849): In OFF or HOLD the ledger runs a 1 ms round with the steps of a tick head. -/
  | ledgerRound
  /-- `PMBUS_POLL` (R861): Every PMPER ms the PMBus master reads voltage and current of each regulator into PMPWR. -/
  | pmbusPoll (rs : List (Option (BitVec 5 × BitVec 16 × BitVec 16)))
  /-- `PMB_ALERT` (R863): PMB_ALERT_N falls, MLVL is held at 3 and STATUS_WORD is read with event 0x0805. -/
  | pmbAlert (sw : List (BitVec 16))
  /-- `CALIBRATION_CHECK` (R864): Every 1,024 ms the summed meters are compared with telemetry into CALERR. -/
  | calibrationCheck
  /-- `LEDGER_CONFIG_WRITE` (R871): An ELG configuration write is checked and applied, or refused with 0x0526. -/
  | ledgerConfigWrite (w : RegWr)
  /-- `POWER_ON_RESET` (R880): VDD_AON enters its range and POR ends 1 ms later, resetting the whole device. -/
  | powerOnReset (smba : BitVec 2)
  /-- `FUSE_LOAD_DONE` (R880): The fuse block loads within 4 ms after POR ends. -/
  | fuseLoadDone
  /-- `PWRGOOD_RISE` (R879): PWRGOOD rises after filtering. -/
  | pwrgoodRise
  /-- `PWRGOOD_FALL` (R881): PWRGOOD falls and starts a warm reset of cause PWRGD. -/
  | pwrgoodFall
  /-- `RESET_N_ASSERT` (R886): A low RESET_N level passes the filter and starts a warm reset. -/
  | resetNAssert
  /-- `RESET_N_RELEASE` (R886): A RESET_N release passes the filter. -/
  | resetNRelease
  /-- `RESET_HELD_LIMIT` (R891): RESET_N held low for 2 s sets RHELD, drives FAULT_N low and raises event 0x0C04. -/
  | resetHeldLimit
  /-- `REFCLK_LOSS` (R885): No REFCLK edge for 1 µs moves the AON clock to the ring and starts a warm reset. -/
  | refclkLoss
  /-- `REFCLK_RETURN` (R885): REFCLK has been present for 1 ms again. -/
  | refclkReturn
  /-- `SWRST` (R914): A write of the key to AON.SWRST starts a warm reset of cause SOFT. -/
  | swrst (w : RegWr)
  /-- `CORE_DOMAIN_RELEASE` (R892): 1 ms after the last release condition the core domain leaves reset, straps are sampled and the CC starts at vector 0. -/
  | coreDomainRelease (mgr : Bool)
  /-- `SELF_TEST_DONE` (R902): Power-on self-test of a unit completes and a failing unit is disabled with event 0x0C0A. -/
  | selfTestDone (unit : BitVec 6) (ok : Bool)
  /-- `IMAGE_AUTHENTICATED` (R899): A boot slot is authenticated or abandoned with FALLBK. -/
  | imageAuthenticated (flash : BootFlash)
  /-- `IMAGE_ENTRY` (R900): The CC enters the image at ENTRY after authentication and self-test. -/
  | imageEntry
  /-- `READY_SET` (R895): The image writes BOOTST.RDY and the device is inspection-ready. -/
  | readySet (w : RegWr)
  /-- `JUNCTION_TEMP_READ` (R912): Every 1 ms the AON domain reads the junction sensors and raises warnings or a thermal trip. -/
  | junctionTempRead (tj thbm : BitVec 8)
  /-- `NAP_REQUEST` (R906): A write of 1 to a TNAP bit puts a tile in NAP, or is refused with TNREF and event 0x0C07. -/
  | napRequest (w : RegWr)
  /-- `NAP_EXIT_REQUEST` (R904): A write of 0 to a TNAP bit starts the tile's NAP exit. -/
  | napExitRequest (w : RegWr)
  /-- `NAP_EXIT_DONE` (R904): A NAP exit completes after 20 µs and the tile is powered. -/
  | napExitDone (t : TileId)
  /-- `DEEP_REQUEST` (R908): A write of DEEPC.GO starts DEEP entry, or is refused with WHY and event 0x0C0B. -/
  | deepRequest (w : RegWr)
  /-- `DEEP_ENTRY_DONE` (R909): The DEEP entry steps complete, PSTATE reads DEEP and event 0x0C05 is raised. -/
  | deepEntryDone
  /-- `DEEP_WAKE` (R910): An SMBus wake write, the wake timer or an encoder edge wakes the device from DEEP. -/
  | deepWake (by_ : WakeBy)
  /-- `DEEP_EXIT_DONE` (R910): The DEEP exit completes, the CC resumes and event 0x0C06 is raised. -/
  | deepExitDone
  /-- `WDT_SERVICE` (R924): A core writes WSVC with its key to service its WDT channel, or commits a violation. -/
  | wdtService (w : RegWr)
  /-- `WDT_EXPIRY` (R926): A WDT channel's count reaches WPER × 1,024 and it writes evidence, sends the NMI and starts the hard timer. -/
  | wdtExpiry (ch : CoreId)
  /-- `WDT_HARD_TIMER_EXPIRY` (R929): A hard timer expires, faulting the tile's kennel or warm-resetting for the CC channel. -/
  | wdtHardTimerExpiry (ch : CoreId)
  /-- `SWD_SERVICE` (R924): The CC writes SSVC with its key to service the system watchdog, or commits a violation. -/
  | swdService (w : RegWr)
  /-- `SWD_EXPIRY` (R931): The system watchdog expires, writes evidence, pulses WDO_N and starts a warm reset. -/
  | swdExpiry
  /-- `WDO_PULSE_END` (R932): The WDO_N pulse ends and the core domain may leave reset 1 ms later. -/
  | wdoPulseEnd
  /-- `SWD_ENABLE` (R937): A write of SCFG.EN = 1 enables the system watchdog until power-on reset. -/
  | swdEnable (w : RegWr)
  /-- `WATCHDOG_CONFIG_WRITE` (R939): A WPER or SCFG.PER write is checked and applied, or refused with 0x0526. -/
  | watchdogConfigWrite (w : RegWr)
  /-- `DAPACC` (R949): At Update-DR the debug access port starts one aligned 32-bit access on path 0x6. -/
  | dapacc (addr : BitVec 48) (wr : Bool) (data : BitVec 32)
  /-- `DAPSTAT` (R950): The DAPSTAT register shifts out BUSY, ERR, UNLK, TESTM and ANYH. -/
  | dapstat
  /-- `EXTEST` (R948): The EXTEST instruction is accepted only while the core domain is in reset. -/
  | extest
  /-- `SAMPLE_PRELOAD` (R947): The SAMPLE/PRELOAD instruction selects the boundary register. -/
  | samplePreload
  /-- `IDCODE` (R948): The IDCODE instruction selects the 32-bit identity register. -/
  | idcode
  /-- `BYPASS` (R947): The BYPASS instruction selects the 1-bit bypass register. -/
  | bypass
  /-- `TAP_RESET` (R947): JTAG_TRST_N low or power-on reset puts the TAP in Test-Logic-Reset with IDCODE. -/
  | tapReset
  /-- `TOKEN_VERIFY` (R953): A write of TVFY.GO starts verification of the unlock token. -/
  | tokenVerify (w : RegWr)
  /-- `TOKEN_VERIFY_DONE` (R953): Verification grants debug and test rights or refuses the token, and loads a new NONCE. -/
  | tokenVerifyDone (keyOk sigOk : Bool)
  /-- `DLOCK` (R954): A write of DCTL.DLOCK clears the debug and test rights and resumes halted cores. -/
  | dlock (w : RegWr)
  /-- `TEST_MODE_WRITE` (R955): A write of DCTL.TEST enters or leaves test mode, or is refused without the test right. -/
  | testModeWrite (w : RegWr)
  /-- `HALT_REQUEST` (R956): A write of HREQ asks cores to halt at their next boundary. -/
  | haltRequest (w : RegWr)
  /-- `CORE_HALTED` (R956): A core reaches a boundary after a halt cause and halts. -/
  | coreHalted (k : CoreId)
  /-- `BREAKPOINT_HIT` (R957): An enabled breakpoint halts a core before it issues the bundle at ADDR. -/
  | breakpointHit (k : CoreId)
  /-- `HALT_RESUME` (R956): A write of HRES resumes halted cores. -/
  | haltResume (w : RegWr)
  /-- `HALT_STEP` (R958): A write of HSTEP issues one bundle on a halted core and halts it again. -/
  | haltStep (w : RegWr)
  /-- `DEBUG_REGISTER_ACCESS` (R960): An RDAT access reads or writes a word of the register RSEL names on a halted core. -/
  | debugRegisterAccess (w : RegWr) (read : Bool)
  /-- `TRACE_PACKET_WRITE` (R963): The trace writer moves a queued packet of a unit into the trace area. -/
  | tracePacketWrite (u : Fin 18)
  /-- `TRACE_SYNC_TIMER` (R961): SYNCP microseconds after its last SYNC a unit queues a SYNC packet. -/
  | traceSyncTimer (u : Fin 18)
  /-- `TRACE_MARK` (R962): A write to TMARK adds a MARK packet to a unit. -/
  | traceMark (w : RegWr)
  /-- `TRACE_CONFIG_WRITE` (R967): A TCFG write enables, stops or refuses a trace unit. -/
  | traceConfigWrite (w : RegWr)
  /-- `EVENT_RING_WRITE` (R966): The AON event ring writes one queued entry per AON clock cycle. -/
  | eventRingWrite
  /-- `EVENT_RING_READ` (R970): A read of EVD0 captures the entry at EVRIX. -/
  | eventRingRead (w : RegRd)
  /-- `ERR_ENTRY_CLOSE` (R982): A merge entry closes after MWIN, enters the log and is delivered to its class targets. -/
  | errEntryClose
  /-- `ERR_LOG_READ` (R985): A read of LD0 returns the head log entry and removes it. -/
  | errLogRead (w : RegRd)
  /-- `FAULT_CLEAR` (R989): A write of AON.FCLR.ERR clears FSRC.ERR. -/
  | faultClear (w : RegWr)
  /-- `FLOOR_ASSESSMENT` (R994): Once every stack is settled DEV.FLOOR becomes VALID, with event 0x0C0C below floor 2. -/
  | floorAssessment
  /-- `FIRMWARE_UPDATE_POLL` (R996): At floor 0 the boot ROM polls the CC-memory mailbox every 10 ms. -/
  | firmwareUpdatePoll
  /-- `FIRMWARE_UPDATE` (R997): A staged image is authenticated, written to its slot, verified and followed by a warm reset. -/
  | firmwareUpdate (keyOk sigOk hashOk flashOk : Bool)
  /-- `BEHAVIOUR_LEVEL_WRITE` (R1010): A write of DEV.BLSEL.LEVEL is applied or refused with 0x0526. -/
  | behaviourLevelWrite (w : RegWr)
  /-- `SMBUS_WRITE` (R1050): SMBus command 0x10 writes a 32-bit register at an offset. -/
  | smbusWrite (cmd count : BitVec 8) (ofs : BitVec 24) (data : BitVec 32) (badPec : Bool)
  /-- `SMBUS_READ` (R1050): SMBus command 0x11 reads a 32-bit register at an offset. -/
  | smbusRead (cmd count : BitVec 8) (ofs : BitVec 24)
  /-- `SMBUS_TIMEOUT` (R1049): SCL held low for 25–35 ms resets the SMBus interface. -/
  | smbusTimeout
  /-- `CXCMD` (R335): Reads a 64-byte argument record and queues a customer command with its TAG. -/
  | cxcmd (h : Syl) (o : CxOp)
  /-- `CXFENCE` (R335): Queues a fence that applies PUT or FREE to a ring once earlier commands complete. -/
  | cxfence (h : Syl) (rcf : Bool) (ctx : BitVec 4)
  /-- `CUSTOMER_CMD_SEND` (R336): A command leaves its tile's queue as a CMD message when the port holds credit. -/
  | customerCmdSend (t : TileId)
  /-- `CUSTOMER_RD` (R338): A chiplet RD under an outstanding TAG is checked and answered with RDRSP. -/
  | customerRd (tag : BitVec 16) (addr : BitVec 48) (len : Fin 257) (cr : BitVec 8)
  /-- `CUSTOMER_WR` (R338): A chiplet WR under an outstanding TAG is performed whole and answered with WRACK. -/
  | customerWr (tag : BitVec 16) (addr : BitVec 48) (data : List (BitVec 8)) (cr : BitVec 8)
  /-- `CUSTOMER_DONE` (R339): A DONE completes its command, retires the TAG and applies NTF. -/
  | customerDone (tag code : BitVec 16) (cr : BitVec 8)
  /-- `CUSTOMER_NOP` (R341): A NOP message returns flit credits. -/
  | customerNop (cr : BitVec 8) (retry : BitVec 16)
  /-- `CUSTOMER_BAD_MESSAGE` (R337): A message with an unlisted type or wrong direction is discarded with event 0x0B54. -/
  | customerBadMessage (ndat : BitVec 8) (cr : BitVec 8)
  /-- `CUSTOMER_CMD_TIMEOUT` (R340): A command not complete within CTO µs ends with an ABORT and kennel fault 0x0B53. -/
  | customerCmdTimeout (t : TileId)
  /-- `CUSTOMER_PORT_UP` (R342): The customer port completes training and reaches UP. -/
  | customerPortUp (rate : BitVec 2)
  /-- `CUSTOMER_PORT_DOWN` (R342): The port leaves UP and every outstanding command ends with event 0x0B55. -/
  | customerPortDown
  /-- `CUSTOMER_PORT_ENABLE` (R342): A write of CPCTL.EN starts or stops the customer port. -/
  | customerPortEnable (w : RegWr)
  /-- `CXP_LINK_LOCK_LOSS` (R733): A CoaXPress link stops receiving valid characters at its speed and loses lock, so the link goes down and its group becomes DOWN, losing lines with reason LINK. -/
  | cxpLinkLockLoss (l : Fin 16) (cerr : BitVec 16)
  /-- `PMB_ALERT_RELEASE` (R863): PMB_ALERT_N returns high, LSTAT.ALERT clears and MLVL is no longer held at 3. -/
  | pmbAlertRelease
  /-- `VDD_AON_LOSS` (R880): VDD_AON falls below its operating range and power-on reset holds the whole device, AON domain included. -/
  | vddAonLoss
  /-- `EPOCH_END_UPDATE_DONE` (R679): The epoch-end update completes, event 0x0A01 is raised, held commands are released and a due commit may begin. -/
  | epochEndUpdateDone
  /-- `HBM_SREF_EXIT_DONE` (R1070): A stack leaving self-refresh after SREF = 0 reaches ready, and accesses to it are performed again. -/
  | hbmSrefExitDone (st : Fin 4)
  deriving DecidableEq, Repr

end Sys2Proof
end

