-- ==== Sys2Proof/Decode.lean ====
section
/-!
DEFINITION. The commands that a word spells by the bits of the table of operations and events. No row of that table
gives bits, so no word spells a command.
-/
namespace Sys2Proof

/-- The command that a word spells: none, as no row of the table gives bits. -/
def decodeTableWord (_nbits _w : Nat) : Option Instr := none

end Sys2Proof
end

