-- ==== Sys2Proof/Config.lean ====
section
/-!
DEFINITION. What the spec leaves open: values that no proof can see.
-/
namespace Sys2Proof.Config

/-- A value that the spec leaves open, numbered in the order of use (log entry 2). -/
opaque freeValue : Nat → Nat

/-- The energy of an event class of a block, in picojoules, by page slot × 16 + class: a fuse of the part that the spec does
not state (log entry 3). -/
opaque meterPj : Nat → Nat

/-- The static power in milliwatts at a junction temperature: a fused table that the spec does not state (log entry 3). -/
opaque staticMw : Nat → Nat

/-- The boot ROM's bytes, which the spec does not give (log entry 5). -/
opaque romByte : Nat → BitVec 8

/-- The bytes of a memory region whose contents were not preserved: the free value's number and the address (log entry 2). -/
opaque lostByte : Nat → Nat → BitVec 8

/-- Whether VFMIN and VFMAX of two zeros of opposite sign give the second operand: the spec does not say which (log entry 2). -/
opaque zeroPick : Nat → Nat → Bool

/-- The scale word for a number `n * 2 ^ e` that is nonzero and below the least normalised magnitude: R494 states neither zero nor
the least word for it (log entry 2). -/
opaque tinyScale : Int → Int → BitVec 24

end Sys2Proof.Config
end

