-- ==== Sys2Proof/Machine/RegName.lean ====
section
/-!
DEFINITION. The names of the registers: each is a byte offset in the register window (R95, R133). A page with several
instances takes the instance number first, an array of registers its index next.
-/
namespace Sys2Proof.Machine.R

namespace DEV
/-- R3. -/
abbrev IDENT : Nat := 0x40
/-- R4. -/
abbrev FEAT : Nat := 0x44
/-- R1000. -/
abbrev FLOOR : Nat := 0x48
/-- R1000. -/
abbrev SURV : Nat := 0x4C
/-- R1000. -/
abbrev SURVX : Nat := 0x50
/-- R1009. -/
abbrev BLSEL : Nat := 0x54
/-- R1058. -/
abbrev STRAP : Nat := 0x58
end DEV

namespace AON
/-- R970. -/
abbrev EVWP : Nat := 0x1080
/-- R970. -/
abbrev EVRIX : Nat := 0x1084
/-- R970. -/
abbrev EVD0 : Nat := 0x1088
/-- R970. -/
abbrev EVD1 : Nat := 0x108C
/-- R970. -/
abbrev EVD2 : Nat := 0x1090
/-- R970. -/
abbrev EVD3 : Nat := 0x1094
/-- R970. -/
abbrev EVLOST : Nat := 0x1098
/-- R1001. -/
abbrev FCLR : Nat := 0x10A0
/-- R914. -/
abbrev RCAUSE : Nat := 0x1040
/-- R914. -/
abbrev RCNT : Nat := 0x1044
/-- R914. -/
abbrev FSRC : Nat := 0x1048
/-- R914. -/
abbrev BOOTST : Nat := 0x104C
/-- R914. -/
abbrev SWRST : Nat := 0x1050
/-- R914. -/
abbrev WAKE : Nat := 0x1054
/-- R914. -/
abbrev WKTMR : Nat := 0x1058
/-- R914. -/
abbrev TSEN : Nat := 0x105C
/-- R914. -/
abbrev TRIPS : Nat := 0x1060
/-- R1051. -/
abbrev SMBST : Nat := 0x10A4
/-- R914. -/
abbrev GTIME_LO : Nat := 0x10B0
/-- R914. -/
abbrev GTIME_HI : Nat := 0x10B4
end AON

namespace SWD
/-- R938. -/
abbrev SCFG : Nat := 0x2040
/-- R938. -/
abbrev SFUSE : Nat := 0x2044
/-- R938. -/
abbrev SSVC : Nat := 0x2048
/-- R938. -/
abbrev SST : Nat := 0x204C
/-- R938. -/
abbrev SEXP : Nat := 0x2050
/-- R938. -/
abbrev EPC_LO (n : Nat) : Nat := 0x2100 + 32 * n
/-- R938. -/
abbrev EPC_HI (n : Nat) : Nat := 0x2104 + 32 * n
/-- R938. -/
abbrev ESVC_LO (n : Nat) : Nat := 0x2108 + 32 * n
/-- R938. -/
abbrev ESVC_HI (n : Nat) : Nat := 0x210C + 32 * n
/-- R938. -/
abbrev EEXP_LO (n : Nat) : Nat := 0x2110 + 32 * n
/-- R938. -/
abbrev EEXP_HI (n : Nat) : Nat := 0x2114 + 32 * n
/-- R938. -/
abbrev ECODE (n : Nat) : Nat := 0x2118 + 32 * n
end SWD

namespace FUSE
/-- R1001. -/
abbrev UDIS0 : Nat := 0x3100
/-- R1001. -/
abbrev UDIS1 : Nat := 0x3104
end FUSE

namespace CC
/-- R355. -/
abbrev CSTAT : Nat := 0x4044
/-- R355. -/
abbrev RELOVR : Nat := 0x4064
/-- R355. -/
abbrev LCAUSE : Nat := 0x4068
/-- R355. -/
abbrev EPCM_LO : Nat := 0x4070
/-- R355. -/
abbrev EPCM_HI : Nat := 0x4074
/-- R355. -/
abbrev SWI : Nat := 0x4078
/-- R343. -/
abbrev CPCTL : Nat := 0x40C0
/-- R343. -/
abbrev CPST : Nat := 0x40C4
/-- R343. -/
abbrev CPERR : Nat := 0x40C8
/-- R623. -/
abbrev TDRES : Nat := 0x40A0
/-- R623. -/
abbrev TDRIX : Nat := 0x40A4
/-- R623. -/
abbrev TQST : Nat := 0x40A8
/-- R938. -/
abbrev WSVC : Nat := 0x40B0
end CC

namespace WDT
/-- R938. -/
abbrev WFUSE : Nat := 0x5040
/-- R938. -/
abbrev WCTL (n : Nat) : Nat := 0x5100 + 16 * n
/-- R938. -/
abbrev WPER (n : Nat) : Nat := 0x5104 + 16 * n
/-- R938. -/
abbrev WST (n : Nat) : Nat := 0x5108 + 16 * n
/-- R938. -/
abbrev WEXP (n : Nat) : Nat := 0x510C + 16 * n
end WDT

namespace ERR
/-- R999. -/
abbrev ECTL : Nat := 0x6040
/-- R999. -/
abbrev ESTAT : Nat := 0x6044
/-- R999. -/
abbrev ELOST : Nat := 0x6048
/-- R999. -/
abbrev MECC : Nat := 0x604C
/-- R999. -/
abbrev LD0 : Nat := 0x6050
/-- R999. -/
abbrev LD1 : Nat := 0x6054
/-- R999. -/
abbrev LD2 : Nat := 0x6058
/-- R999. -/
abbrev LD3 : Nat := 0x605C
/-- R999. -/
abbrev LD4 : Nat := 0x6060
/-- R999. -/
abbrev LD5 : Nat := 0x6064
/-- R999. -/
abbrev PFRT : Nat := 0x6080
/-- R999. -/
abbrev CRTE (n : Nat) : Nat := 0x6104 + 4 * n
end ERR

namespace TRC
/-- R970. -/
abbrev EVMASK : Nat := 0x7040
/-- R970. -/
abbrev SYNCP : Nat := 0x7044
/-- R970. -/
abbrev TCFG (n : Nat) : Nat := 0x7100 + 16 * n
/-- R970. -/
abbrev TWP (n : Nat) : Nat := 0x7104 + 16 * n
/-- R970. -/
abbrev TST (n : Nat) : Nat := 0x7108 + 16 * n
/-- R970. -/
abbrev TLOST (n : Nat) : Nat := 0x710C + 16 * n
/-- R970. -/
abbrev TMARK (n : Nat) : Nat := 0x7300 + 4 * n
end TRC

namespace DBG
/-- R969. -/
abbrev DSTAT : Nat := 0x8040
/-- R969. -/
abbrev DCTL : Nat := 0x8044
/-- R969. -/
abbrev NONCE_LO : Nat := 0x8048
/-- R969. -/
abbrev NONCE_HI : Nat := 0x804C
/-- R969. -/
abbrev TVFY : Nat := 0x8050
/-- R969. -/
abbrev HREQ : Nat := 0x8060
/-- R969. -/
abbrev HRES : Nat := 0x8064
/-- R969. -/
abbrev HSTEP : Nat := 0x8068
/-- R969. -/
abbrev HSTAT : Nat := 0x806C
/-- R969. -/
abbrev HCAUSE (n : Nat) : Nat := 0x8070 + 4 * n
/-- R969. -/
abbrev BP_LO (n : Nat) : Nat := 0x8100 + 16 * n
/-- R969. -/
abbrev BP_HI (n : Nat) : Nat := 0x8104 + 16 * n
/-- R969. -/
abbrev BPCTL (n : Nat) : Nat := 0x8108 + 16 * n
/-- R969. -/
abbrev RSEL : Nat := 0x8140
/-- R969. -/
abbrev RDAT : Nat := 0x8144
/-- R969. -/
abbrev TOKBUF (n : Nat) : Nat := 0x8400 + 4 * n
end DBG

namespace PWM
/-- R915. -/
abbrev PSTATE : Nat := 0x9040
/-- R915. -/
abbrev TNAP : Nat := 0x9044
/-- R915. -/
abbrev TPWR : Nat := 0x9048
/-- R915. -/
abbrev TNREF : Nat := 0x904C
/-- R915. -/
abbrev DEEPC : Nat := 0x9050
/-- R915. -/
abbrev NWAKE : Nat := 0x9054
end PWM

namespace ELG
/-- R870. -/
abbrev BUDGET : Nat := 0xA040
/-- R870. -/
abbrev BOARD : Nat := 0xA044
/-- R870. -/
abbrev OVHFIX : Nat := 0xA048
/-- R870. -/
abbrev MUZ : Nat := 0xA04C
/-- R870. -/
abbrev PMCFG : Nat := 0xA050
/-- R870. -/
abbrev PMREG (n : Nat) : Nat := 0xA054 + 4 * n
/-- R870. -/
abbrev PMPWR : Nat := 0xA074
/-- R870. -/
abbrev CALERR : Nat := 0xA078
/-- R870. -/
abbrev TBUD : Nat := 0xA07C
/-- R870. -/
abbrev TOVH : Nat := 0xA080
/-- R870. -/
abbrev TPOOL : Nat := 0xA084
/-- R870. -/
abbrev OVHMET : Nat := 0xA088
/-- R870. -/
abbrev DERATE : Nat := 0xA08C
/-- R870. -/
abbrev LSTAT : Nat := 0xA090
/-- R870. -/
abbrev KCFG (n : Nat) : Nat := 0xA100 + 16 * n
/-- R870. -/
abbrev KGRANT (n : Nat) : Nat := 0xA104 + 16 * n
/-- R870. -/
abbrev KCAP (n : Nat) : Nat := 0xA108 + 16 * n
/-- R870. -/
abbrev KST (n : Nat) : Nat := 0xA10C + 16 * n
/-- R870. -/
abbrev KMET (n : Nat) : Nat := 0xA200 + 16 * n
/-- R870. -/
abbrev KLAST (n : Nat) : Nat := 0xA204 + 16 * n
/-- R870. -/
abbrev KRES (n : Nat) : Nat := 0xA208 + 16 * n
/-- R870. -/
abbrev KDEBT (n : Nat) : Nat := 0xA20C + 16 * n
/-- R870. -/
abbrev KECNT (n : Nat) : Nat := 0xA300 + 4 * n
end ELG

namespace TICK
/-- R81. -/
abbrev TCFG : Nat := 0xB040
/-- R81. -/
abbrev LDIV : Nat := 0xB044
/-- R81. -/
abbrev NDIV : Nat := 0xB048
/-- R81. -/
abbrev FDLY : Nat := 0xB04C
/-- R81. -/
abbrev HOLDTO : Nat := 0xB050
/-- R81. -/
abbrev ZCPR : Nat := 0xB054
/-- R81. -/
abbrev TRG : Nat := 0xB058
/-- R81. -/
abbrev TOUT : Nat := 0xB05C
/-- R81. -/
abbrev TEST : Nat := 0xB060
/-- R81. -/
abbrev TSTAT : Nat := 0xB064
/-- R81. -/
abbrev TDONE : Nat := 0xB068
/-- R81. -/
abbrev PERIOD : Nat := 0xB06C
/-- R81. -/
abbrev LPER : Nat := 0xB070
/-- R81. -/
abbrev QERR : Nat := 0xB074
/-- R81. -/
abbrev HDISC : Nat := 0xB078
/-- R81. -/
abbrev POS_LO : Nat := 0xB080
/-- R81. -/
abbrev POS_HI : Nat := 0xB084
/-- R81. -/
abbrev FNUM_LO : Nat := 0xB088
/-- R81. -/
abbrev FNUM_HI : Nat := 0xB08C
/-- R81. -/
abbrev EDGE_LO : Nat := 0xB090
/-- R81. -/
abbrev EDGE_HI : Nat := 0xB094
/-- R81. -/
abbrev SPOS_LO : Nat := 0xB098
/-- R81. -/
abbrev SPOS_HI : Nat := 0xB09C
/-- R81. -/
abbrev KSLOT (n : Nat) : Nat := 0xB0A0 + 4 * n
/-- R81. -/
abbrev KCNT (n : Nat) : Nat := 0xB0C0 + 4 * n
end TICK

namespace KMAP
/-- R178. -/
abbrev TOWN0 : Nat := 0xC040
/-- R178. -/
abbrev TOWN1 : Nat := 0xC044
/-- R178. -/
abbrev MISC : Nat := 0xC048
/-- R178. -/
abbrev KATTR (n : Nat) : Nat := 0xC050 + 4 * n
/-- R178. -/
abbrev CSH0 : Nat := 0xC070
/-- R178. -/
abbrev CSH (n : Nat) : Nat := 0xC074 + 4 * n
/-- R178. -/
abbrev TRNG (n : Nat) : Nat := 0xC090 + 4 * n
/-- R178. -/
abbrev LRNG (n : Nat) : Nat := 0xC0B0 + 4 * n
/-- R178. -/
abbrev HRNG (n : Nat) : Nat := 0xC100 + 4 * n
/-- R178. -/
abbrev LIVE_TOWN0 : Nat := 0xC440
/-- R178. -/
abbrev LIVE_TOWN1 : Nat := 0xC444
/-- R178. -/
abbrev LIVE_MISC : Nat := 0xC448
/-- R178. -/
abbrev LIVE_KATTR (n : Nat) : Nat := 0xC450 + 4 * n
/-- R178. -/
abbrev LIVE_CSH0 : Nat := 0xC470
/-- R178. -/
abbrev LIVE_CSH (n : Nat) : Nat := 0xC474 + 4 * n
/-- R178. -/
abbrev LIVE_TRNG (n : Nat) : Nat := 0xC490 + 4 * n
/-- R178. -/
abbrev LIVE_LRNG (n : Nat) : Nat := 0xC4B0 + 4 * n
/-- R178. -/
abbrev LIVE_HRNG (n : Nat) : Nat := 0xC500 + 4 * n
/-- R178. -/
abbrev CMT : Nat := 0xC800
/-- R178. -/
abbrev CSTAT : Nat := 0xC804
/-- R178. -/
abbrev CSEQ : Nat := 0xC808
/-- R178. -/
abbrev KCTL (n : Nat) : Nat := 0xC810 + 4 * n
/-- R178. -/
abbrev KSTAT (n : Nat) : Nat := 0xC830 + 4 * n
end KMAP

namespace TBL
/-- R622. -/
abbrev TSTAT : Nat := 0xD040
/-- R622. -/
abbrev TDNC : Nat := 0xD044
/-- R622. -/
abbrev TDRJ : Nat := 0xD048
/-- R622. -/
abbrev TDLAST : Nat := 0xD04C
/-- R622. -/
abbrev TDLIDX : Nat := 0xD050
/-- R622. -/
abbrev TINV : Nat := 0xD054
/-- R622. -/
abbrev TECC : Nat := 0xD058
/-- R622. -/
abbrev ARSTG (n : Nat) : Nat := 0xD060 + 4 * n
/-- R622. -/
abbrev ARWR : Nat := 0xD070
end TBL

namespace LRN
/-- R700. -/
abbrev LCTL : Nat := 0xE040
/-- R700. -/
abbrev LSTAT : Nat := 0xE044
/-- R700. -/
abbrev LGEO : Nat := 0xE048
/-- R700. -/
abbrev LCFG : Nat := 0xE04C
/-- R700. -/
abbrev ISCL : Nat := 0xE050
/-- R700. -/
abbrev WSCL : Nat := 0xE054
/-- R700. -/
abbrev TSCL : Nat := 0xE058
/-- R700. -/
abbrev GSCL : Nat := 0xE05C
/-- R700. -/
abbrev MSCL : Nat := 0xE060
/-- R700. -/
abbrev RSCL : Nat := 0xE064
/-- R700. -/
abbrev ETA : Nat := 0xE068
/-- R700. -/
abbrev WMAX : Nat := 0xE06C
/-- R700. -/
abbrev PRTH : Nat := 0xE070
/-- R700. -/
abbrev MPTH : Nat := 0xE074
/-- R700. -/
abbrev CRTH : Nat := 0xE078
/-- R700. -/
abbrev WOCT : Nat := 0xE07C
/-- R700. -/
abbrev LSYN : Nat := 0xE080
/-- R700. -/
abbrev LPC : Nat := 0xE084
/-- R700. -/
abbrev LEPOCH : Nat := 0xE088
/-- R700. -/
abbrev LCMT : Nat := 0xE08C
/-- R700. -/
abbrev LECNT : Nat := 0xE090
/-- R700. -/
abbrev LEPNO : Nat := 0xE094
/-- R700. -/
abbrev LCEP : Nat := 0xE098
/-- R700. -/
abbrev LSCNT : Nat := 0xE09C
/-- R700. -/
abbrev LEVT : Nat := 0xE0A0
/-- R700. -/
abbrev LDONE : Nat := 0xE0A4
/-- R700. -/
abbrev LQ : Nat := 0xE0A8
/-- R700. -/
abbrev LWPG : Nat := 0xE0AC
/-- R700. -/
abbrev LMECC : Nat := 0xE0B0
/-- R700. -/
abbrev LWBASE_LO : Nat := 0xE0B8
/-- R700. -/
abbrev LWBASE_HI : Nat := 0xE0BC
/-- R700. -/
abbrev LXBASE_LO : Nat := 0xE0C0
/-- R700. -/
abbrev LXBASE_HI : Nat := 0xE0C4
end LRN

namespace LST
/-- R285. -/
abbrev LRCFG (n : Nat) : Nat := 0xF040 + 16 * n
/-- R285. -/
abbrev LRPIT (n : Nat) : Nat := 0xF044 + 16 * n
/-- R285. -/
abbrev LRSEQ (n : Nat) : Nat := 0xF048 + 16 * n
/-- R285. -/
abbrev LROVR (n : Nat) : Nat := 0xF04C + 16 * n
/-- R285. -/
abbrev LSLOT (n : Nat) : Nat := 0xF0C0 + 4 * n
/-- R285. -/
abbrev LECC : Nat := 0xF0E0
/-- R285. -/
abbrev LSTAT : Nat := 0xF0E4
end LST

namespace ING
/-- R738. -/
abbrev ICTL : Nat := 0x10040
/-- R738. -/
abbrev ISTAT : Nat := 0x10044
/-- R738. -/
abbrev ITRIG : Nat := 0x10048
/-- R738. -/
abbrev HBTO : Nat := 0x1004C
/-- R738. -/
abbrev LNKCTL (n : Nat) : Nat := 0x10100 + 16 * n
/-- R738. -/
abbrev LNKST (n : Nat) : Nat := 0x10104 + 16 * n
/-- R738. -/
abbrev LNKERR (n : Nat) : Nat := 0x10108 + 16 * n
/-- R738. -/
abbrev GCFG (n : Nat) : Nat := 0x10200 + 32 * n
/-- R738. -/
abbrev GWID (n : Nat) : Nat := 0x10204 + 32 * n
/-- R738. -/
abbrev GWIN (n : Nat) : Nat := 0x10208 + 32 * n
/-- R738. -/
abbrev GIMG (n : Nat) : Nat := 0x1020C + 32 * n
/-- R738. -/
abbrev GIPIT (n : Nat) : Nat := 0x10210 + 32 * n
/-- R738. -/
abbrev GSTAT (n : Nat) : Nat := 0x10214 + 32 * n
/-- R738. -/
abbrev GCNT (n : Nat) : Nat := 0x10218 + 32 * n
/-- R738. -/
abbrev GCNT2 (n : Nat) : Nat := 0x1021C + 32 * n
/-- R738. -/
abbrev MBCTL : Nat := 0x10600
/-- R738. -/
abbrev MBST : Nat := 0x10604
/-- R738. -/
abbrev MBCMD (n : Nat) : Nat := 0x10700 + 4 * n
/-- R738. -/
abbrev MBRSP (n : Nat) : Nat := 0x10800 + 4 * n
end ING

namespace PCI
/-- R835. -/
abbrev PLSTAT : Nat := 0x11040
/-- R835. -/
abbrev APBASE_LO : Nat := 0x11048
/-- R835. -/
abbrev APBASE_HI : Nat := 0x1104C
/-- R835. -/
abbrev VFMAP1 : Nat := 0x11064
/-- R835. -/
abbrev VFMAP2 : Nat := 0x11068
/-- R835. -/
abbrev VFMAP3 : Nat := 0x1106C
/-- R835. -/
abbrev VFMAP4 : Nat := 0x11070
/-- R835. -/
abbrev VFMAP5 : Nat := 0x11074
/-- R835. -/
abbrev VFMAP6 : Nat := 0x11078
/-- R835. -/
abbrev VFMAP7 : Nat := 0x1107C
/-- R835. -/
abbrev VFMAP8 : Nat := 0x11080
/-- R835. -/
abbrev VFAP_LO (n : Nat) : Nat := 0x11088 + 8 * n
/-- R835. -/
abbrev VFAP_HI (n : Nat) : Nat := 0x1108C + 8 * n
/-- R835. -/
abbrev RRB_LO (n : Nat) : Nat := 0x11100 + 64 * n
/-- R835. -/
abbrev RRB_HI (n : Nat) : Nat := 0x11104 + 64 * n
/-- R835. -/
abbrev RRWB_LO (n : Nat) : Nat := 0x11108 + 64 * n
/-- R835. -/
abbrev RRWB_HI (n : Nat) : Nat := 0x1110C + 64 * n
/-- R835. -/
abbrev RRCFG (n : Nat) : Nat := 0x11110 + 64 * n
/-- R835. -/
abbrev RRPROD (n : Nat) : Nat := 0x11114 + 64 * n
/-- R835. -/
abbrev CRB_LO (n : Nat) : Nat := 0x11118 + 64 * n
/-- R835. -/
abbrev CRB_HI (n : Nat) : Nat := 0x1111C + 64 * n
/-- R835. -/
abbrev CRWB_LO (n : Nat) : Nat := 0x11120 + 64 * n
/-- R835. -/
abbrev CRWB_HI (n : Nat) : Nat := 0x11124 + 64 * n
/-- R835. -/
abbrev CRCFG (n : Nat) : Nat := 0x11128 + 64 * n
/-- R835. -/
abbrev CFETCH (n : Nat) : Nat := 0x1112C + 64 * n
/-- R835. -/
abbrev CBBASE_LO (n : Nat) : Nat := 0x11130 + 64 * n
/-- R835. -/
abbrev CBBASE_HI (n : Nat) : Nat := 0x11134 + 64 * n
/-- R835. -/
abbrev CBCFG (n : Nat) : Nat := 0x11138 + 64 * n
/-- R835. -/
abbrev ERB_LO (n : Nat) : Nat := 0x11400 + 32 * n
/-- R835. -/
abbrev ERB_HI (n : Nat) : Nat := 0x11404 + 32 * n
/-- R835. -/
abbrev ERCFG (n : Nat) : Nat := 0x11408 + 32 * n
/-- R835. -/
abbrev FRB_LO (n : Nat) : Nat := 0x1140C + 32 * n
/-- R835. -/
abbrev FRB_HI (n : Nat) : Nat := 0x11410 + 32 * n
/-- R835. -/
abbrev FRCFG (n : Nat) : Nat := 0x11414 + 32 * n
/-- R835. -/
abbrev EDISC (n : Nat) : Nat := 0x1141C + 32 * n
/-- R835. -/
abbrev EREL_LO : Nat := 0x11500
/-- R835. -/
abbrev EREL_HI : Nat := 0x11504
/-- R835. -/
abbrev EVDISC : Nat := 0x11508
end PCI

namespace ETH
/-- R836. -/
abbrev ECTL (i : Nat) : Nat := 0x12040 + 0x1000 * i
/-- R836. -/
abbrev ESTAT (i : Nat) : Nat := 0x12044 + 0x1000 * i
/-- R836. -/
abbrev MAC_LO (i : Nat) : Nat := 0x12048 + 0x1000 * i
/-- R836. -/
abbrev MAC_HI (i : Nat) : Nat := 0x1204C + 0x1000 * i
/-- R836. -/
abbrev IP4 (i : Nat) : Nat := 0x12050 + 0x1000 * i
/-- R836. -/
abbrev IP6 (i : Nat) (n : Nat) : Nat := 0x12054 + 0x1000 * i + 4 * n
/-- R836. -/
abbrev MTU (i : Nat) : Nat := 0x12064 + 0x1000 * i
/-- R836. -/
abbrev DLING (i : Nat) : Nat := 0x12068 + 0x1000 * i
/-- R836. -/
abbrev RXB_LO (i : Nat) : Nat := 0x12070 + 0x1000 * i
/-- R836. -/
abbrev RXB_HI (i : Nat) : Nat := 0x12074 + 0x1000 * i
/-- R836. -/
abbrev RXCFG (i : Nat) : Nat := 0x12078 + 0x1000 * i
/-- R836. -/
abbrev TSRX_LO (i : Nat) : Nat := 0x12080 + 0x1000 * i
/-- R836. -/
abbrev TSRX_HI (i : Nat) : Nat := 0x12084 + 0x1000 * i
/-- R836. -/
abbrev TSTX_LO (i : Nat) : Nat := 0x12088 + 0x1000 * i
/-- R836. -/
abbrev TSTX_HI (i : Nat) : Nat := 0x1208C + 0x1000 * i
/-- R836. -/
abbrev TSRXID (i : Nat) : Nat := 0x12090 + 0x1000 * i
/-- R836. -/
abbrev TSTXID (i : Nat) : Nat := 0x12094 + 0x1000 * i
/-- R836. -/
abbrev TSST (i : Nat) : Nat := 0x12098 + 0x1000 * i
/-- R836. -/
abbrev GADJ (i : Nat) : Nat := 0x120A0 + 0x1000 * i
/-- R836. -/
abbrev GSTEP_LO (i : Nat) : Nat := 0x120A8 + 0x1000 * i
/-- R836. -/
abbrev GSTEP_HI (i : Nat) : Nat := 0x120AC + 0x1000 * i
/-- R836. -/
abbrev RXERR (i : Nat) : Nat := 0x120B0 + 0x1000 * i
/-- R836. -/
abbrev QCTL (i : Nat) (n : Nat) : Nat := 0x12100 + 0x1000 * i + 32 * n
/-- R836. -/
abbrev QDMAC_LO (i : Nat) (n : Nat) : Nat := 0x12104 + 0x1000 * i + 32 * n
/-- R836. -/
abbrev QDMAC_HI (i : Nat) (n : Nat) : Nat := 0x12108 + 0x1000 * i + 32 * n
/-- R836. -/
abbrev QDIP0 (i : Nat) (n : Nat) : Nat := 0x1210C + 0x1000 * i + 32 * n
/-- R836. -/
abbrev QDIP1 (i : Nat) (n : Nat) : Nat := 0x12110 + 0x1000 * i + 32 * n
/-- R836. -/
abbrev QDIP2 (i : Nat) (n : Nat) : Nat := 0x12114 + 0x1000 * i + 32 * n
/-- R836. -/
abbrev QDIP3 (i : Nat) (n : Nat) : Nat := 0x12118 + 0x1000 * i + 32 * n
/-- R836. -/
abbrev QPORT (i : Nat) (n : Nat) : Nat := 0x1211C + 0x1000 * i + 32 * n
/-- R836. -/
abbrev QDISC (i : Nat) (n : Nat) : Nat := 0x12200 + 0x1000 * i + 8 * n
/-- R836. -/
abbrev QDEP (i : Nat) (n : Nat) : Nat := 0x12204 + 0x1000 * i + 8 * n
end ETH

namespace VXL
/-- R796. -/
abbrev LCTL (i : Nat) : Nat := 0x18040 + 0x1000 * i
/-- R796. -/
abbrev LSTAT (i : Nat) : Nat := 0x18044 + 0x1000 * i
/-- R796. -/
abbrev LDLY (i : Nat) : Nat := 0x18048 + 0x1000 * i
/-- R796. -/
abbrev PEER (i : Nat) : Nat := 0x1804C + 0x1000 * i
/-- R796. -/
abbrev PUID_LO (i : Nat) : Nat := 0x18050 + 0x1000 * i
/-- R796. -/
abbrev PUID_HI (i : Nat) : Nat := 0x18054 + 0x1000 * i
/-- R796. -/
abbrev LERR (i : Nat) : Nat := 0x18058 + 0x1000 * i
/-- R796. -/
abbrev LRPL (i : Nat) : Nat := 0x1805C + 0x1000 * i
/-- R796. -/
abbrev LCRD (i : Nat) : Nat := 0x18060 + 0x1000 * i
/-- R796. -/
abbrev LOSTM (i : Nat) : Nat := 0x18064 + 0x1000 * i
/-- R797. -/
abbrev CROLE (i : Nat) : Nat := 0x18080 + 0x1000 * i
/-- R797. -/
abbrev CSTAT (i : Nat) : Nat := 0x18084 + 0x1000 * i
/-- R797. -/
abbrev CNUM (i : Nat) : Nat := 0x18088 + 0x1000 * i
/-- R797. -/
abbrev CLAT (i : Nat) : Nat := 0x1808C + 0x1000 * i
/-- R797. -/
abbrev CHINT (i : Nat) : Nat := 0x18090 + 0x1000 * i
/-- R797. -/
abbrev RTO (i : Nat) : Nat := 0x18094 + 0x1000 * i
/-- R797. -/
abbrev RTAB (i : Nat) (n : Nat) : Nat := 0x18098 + 0x1000 * i + 4 * n
/-- R797. -/
abbrev HMARG (i : Nat) : Nat := 0x180A8 + 0x1000 * i
/-- R797. -/
abbrev HCNT (i : Nat) : Nat := 0x180AC + 0x1000 * i
/-- R797. -/
abbrev XABT (i : Nat) : Nat := 0x180B0 + 0x1000 * i
/-- R797. -/
abbrev UID_LO (i : Nat) : Nat := 0x180B8 + 0x1000 * i
/-- R797. -/
abbrev UID_HI (i : Nat) : Nat := 0x180BC + 0x1000 * i
/-- R797. -/
abbrev GTC (i : Nat) : Nat := 0x180C0 + 0x1000 * i
/-- R797. -/
abbrev GERR (i : Nat) : Nat := 0x180C4 + 0x1000 * i
end VXL

namespace HBM
/-- R283. -/
abbrev CTL (i : Nat) : Nat := 0x20040 + 0x1000 * i
/-- R283. -/
abbrev STAT (i : Nat) : Nat := 0x20044 + 0x1000 * i
/-- R283. -/
abbrev ECC (i : Nat) : Nat := 0x20048 + 0x1000 * i
/-- R283. -/
abbrev ECTH (i : Nat) : Nat := 0x2004C + 0x1000 * i
/-- R283. -/
abbrev SCRP (i : Nat) : Nat := 0x20050 + 0x1000 * i
/-- R283. -/
abbrev THERM (i : Nat) : Nat := 0x20054 + 0x1000 * i
/-- R283. -/
abbrev TREC (i : Nat) : Nat := 0x20058 + 0x1000 * i
/-- R283. -/
abbrev BADN (i : Nat) : Nat := 0x2005C + 0x1000 * i
/-- R283. -/
abbrev BAD_LO (i : Nat) (n : Nat) : Nat := 0x20060 + 0x1000 * i + 8 * n
/-- R283. -/
abbrev BAD_HI (i : Nat) (n : Nat) : Nat := 0x20064 + 0x1000 * i + 8 * n
/-- R662. -/
abbrev WQHW (i : Nat) : Nat := 0x20080 + 0x1000 * i
/-- R662. -/
abbrev WQSHR (i : Nat) : Nat := 0x20084 + 0x1000 * i
end HBM

namespace DMA
/-- R624. -/
abbrev JSTAT (i : Nat) : Nat := 0x28040 + 0x1000 * i
/-- R624. -/
abbrev JERR (i : Nat) : Nat := 0x28044 + 0x1000 * i
/-- R624. -/
abbrev WDISC (i : Nat) : Nat := 0x28048 + 0x1000 * i
/-- R624. -/
abbrev CPAR (i : Nat) : Nat := 0x2804C + 0x1000 * i
/-- R662. -/
abbrev FCFG (i : Nat) : Nat := 0x28050 + 0x1000 * i
/-- R662. -/
abbrev CWAIT (i : Nat) : Nat := 0x28054 + 0x1000 * i
/-- R662. -/
abbrev CWTOC (i : Nat) : Nat := 0x28058 + 0x1000 * i
/-- R662. -/
abbrev RBHW (i : Nat) : Nat := 0x2805C + 0x1000 * i
/-- R624. -/
abbrev JDONE (i : Nat) (n : Nat) : Nat := 0x28060 + 0x1000 * i + 4 * n
/-- R624. -/
abbrev JUSE (i : Nat) (n : Nat) : Nat := 0x28080 + 0x1000 * i + 4 * n
/-- R624. -/
abbrev LMCFG (i : Nat) (n : Nat) : Nat := 0x28100 + 0x1000 * i + 16 * n
/-- R624. -/
abbrev LMSRC (i : Nat) (n : Nat) : Nat := 0x28104 + 0x1000 * i + 16 * n
/-- R624. -/
abbrev LMOFS (i : Nat) (n : Nat) : Nat := 0x28108 + 0x1000 * i + 16 * n
/-- R624. -/
abbrev LMDST (i : Nat) (n : Nat) : Nat := 0x2810C + 0x1000 * i + 16 * n
/-- R624. -/
abbrev LMCNT (i : Nat) (n : Nat) : Nat := 0x28180 + 0x1000 * i + 4 * n
end DMA

namespace TILE
/-- R355. -/
abbrev CCTL (i : Nat) : Nat := 0x100040 + 0x1000 * i
/-- R355. -/
abbrev CSTAT (i : Nat) : Nat := 0x100044 + 0x1000 * i
/-- R355. -/
abbrev ENTRY_LO (i : Nat) : Nat := 0x100048 + 0x1000 * i
/-- R355. -/
abbrev ENTRY_HI (i : Nat) : Nat := 0x10004C + 0x1000 * i
/-- R355. -/
abbrev PBASE_LO (i : Nat) : Nat := 0x100050 + 0x1000 * i
/-- R355. -/
abbrev PBASE_HI (i : Nat) : Nat := 0x100054 + 0x1000 * i
/-- R355. -/
abbrev PLEN (i : Nat) : Nat := 0x100058 + 0x1000 * i
/-- R355. -/
abbrev PLOAD (i : Nat) : Nat := 0x10005C + 0x1000 * i
/-- R355. -/
abbrev PFSTAT (i : Nat) : Nat := 0x100060 + 0x1000 * i
/-- R355. -/
abbrev RELOVR (i : Nat) : Nat := 0x100064 + 0x1000 * i
/-- R355. -/
abbrev LCAUSE (i : Nat) : Nat := 0x100068 + 0x1000 * i
/-- R355. -/
abbrev EPCM_LO (i : Nat) : Nat := 0x100070 + 0x1000 * i
/-- R355. -/
abbrev EPCM_HI (i : Nat) : Nat := 0x100074 + 0x1000 * i
/-- R355. -/
abbrev SWI (i : Nat) : Nat := 0x100078 + 0x1000 * i
/-- R465. -/
abbrev VCTL (i : Nat) : Nat := 0x100080 + 0x1000 * i
/-- R465. -/
abbrev VSTAT (i : Nat) : Nat := 0x100084 + 0x1000 * i
/-- R465. -/
abbrev VWAKE (i : Nat) : Nat := 0x100088 + 0x1000 * i
/-- R465. -/
abbrev VWCYC (i : Nat) : Nat := 0x10008C + 0x1000 * i
/-- R343. -/
abbrev CXST (i : Nat) : Nat := 0x1000C0 + 0x1000 * i
/-- R343. -/
abbrev CXDONE (i : Nat) : Nat := 0x1000C4 + 0x1000 * i
/-- R343. -/
abbrev CXERR (i : Nat) : Nat := 0x1000C8 + 0x1000 * i
/-- R238. -/
abbrev SPBMAP (i : Nat) : Nat := 0x100200 + 0x1000 * i
/-- R238. -/
abbrev SPHASH (i : Nat) : Nat := 0x100204 + 0x1000 * i
/-- R238. -/
abbrev SPPROT (i : Nat) : Nat := 0x100208 + 0x1000 * i
/-- R238. -/
abbrev SPSCRB (i : Nat) : Nat := 0x10020C + 0x1000 * i
/-- R238. -/
abbrev SPECC (i : Nat) : Nat := 0x100210 + 0x1000 * i
/-- R238. -/
abbrev SPETH (i : Nat) : Nat := 0x100214 + 0x1000 * i
/-- R238. -/
abbrev SPSTAT (i : Nat) : Nat := 0x100218 + 0x1000 * i
/-- R238. -/
abbrev RACT (i : Nat) : Nat := 0x100220 + 0x1000 * i
/-- R238. -/
abbrev RST (i : Nat) (n : Nat) : Nat := 0x100240 + 0x1000 * i + 16 * n
/-- R238. -/
abbrev RPOS (i : Nat) (n : Nat) : Nat := 0x100244 + 0x1000 * i + 16 * n
/-- R238. -/
abbrev RFRM (i : Nat) (n : Nat) : Nat := 0x100248 + 0x1000 * i + 16 * n
/-- R238. -/
abbrev RCNT (i : Nat) (n : Nat) : Nat := 0x10024C + 0x1000 * i + 16 * n
/-- R238. -/
abbrev SLOGN (i : Nat) : Nat := 0x100340 + 0x1000 * i
/-- R238. -/
abbrev SLOG0 (i : Nat) : Nat := 0x100344 + 0x1000 * i
/-- R238. -/
abbrev SLOG1 (i : Nat) : Nat := 0x100348 + 0x1000 * i
/-- R238. -/
abbrev SLOG2 (i : Nat) : Nat := 0x10034C + 0x1000 * i
/-- R623. -/
abbrev TDRES (i : Nat) : Nat := 0x1000A0 + 0x1000 * i
/-- R623. -/
abbrev TDRIX (i : Nat) : Nat := 0x1000A4 + 0x1000 * i
/-- R623. -/
abbrev TQST (i : Nat) : Nat := 0x1000A8 + 0x1000 * i
/-- R938. -/
abbrev WSVC (i : Nat) : Nat := 0x1000B0 + 0x1000 * i
end TILE

namespace ARY
/-- R540. -/
abbrev ASTAT (i : Nat) : Nat := 0x110040 + 0x1000 * i
/-- R540. -/
abbrev AFMT (i : Nat) : Nat := 0x110044 + 0x1000 * i
/-- R540. -/
abbrev AZW (i : Nat) : Nat := 0x110048 + 0x1000 * i
/-- R540. -/
abbrev AZA (i : Nat) : Nat := 0x11004C + 0x1000 * i
/-- R540. -/
abbrev ARING (i : Nat) : Nat := 0x110050 + 0x1000 * i
/-- R540. -/
abbrev AJCNT (i : Nat) : Nat := 0x110054 + 0x1000 * i
/-- R540. -/
abbrev ASAT (i : Nat) : Nat := 0x110058 + 0x1000 * i
/-- R540. -/
abbrev AECC (i : Nat) : Nat := 0x11005C + 0x1000 * i
/-- R540. -/
abbrev AJERR (i : Nat) : Nat := 0x110060 + 0x1000 * i
/-- R540. -/
abbrev ABUSY (i : Nat) : Nat := 0x110064 + 0x1000 * i
end ARY

namespace DRN
/-- R575. -/
abbrev DSTAT (i : Nat) : Nat := 0x120040 + 0x1000 * i
/-- R575. -/
abbrev DJCNT (i : Nat) : Nat := 0x120044 + 0x1000 * i
/-- R575. -/
abbrev PCMT (i : Nat) : Nat := 0x120048 + 0x1000 * i
/-- R575. -/
abbrev DPA (i : Nat) : Nat := 0x12004C + 0x1000 * i
/-- R575. -/
abbrev DPD (i : Nat) : Nat := 0x120050 + 0x1000 * i
/-- R575. -/
abbrev DERR (i : Nat) : Nat := 0x120054 + 0x1000 * i
/-- R575. -/
abbrev DECC (i : Nat) : Nat := 0x120058 + 0x1000 * i
/-- R575. -/
abbrev ATXLO (i : Nat) (n : Nat) : Nat := 0x120080 + 0x1000 * i + 8 * n
/-- R575. -/
abbrev ATCFG (i : Nat) (n : Nat) : Nat := 0x120084 + 0x1000 * i + 8 * n
/-- R575. -/
abbrev PCFG (i : Nat) (n : Nat) : Nat := 0x120100 + 0x1000 * i + 64 * n
/-- R575. -/
abbrev PDSCL (i : Nat) (n : Nat) : Nat := 0x120104 + 0x1000 * i + 64 * n
/-- R575. -/
abbrev POSCL (i : Nat) (n : Nat) : Nat := 0x120108 + 0x1000 * i + 64 * n
/-- R575. -/
abbrev PEXT0 (i : Nat) (n : Nat) : Nat := 0x12010C + 0x1000 * i + 64 * n
/-- R575. -/
abbrev PEXT1 (i : Nat) (n : Nat) : Nat := 0x120110 + 0x1000 * i + 64 * n
/-- R575. -/
abbrev PSTR0 (i : Nat) (n : Nat) : Nat := 0x120114 + 0x1000 * i + 64 * n
/-- R575. -/
abbrev PSTR1 (i : Nat) (n : Nat) : Nat := 0x120118 + 0x1000 * i + 64 * n
/-- R575. -/
abbrev PSTR2 (i : Nat) (n : Nat) : Nat := 0x12011C + 0x1000 * i + 64 * n
/-- R575. -/
abbrev PSTR3 (i : Nat) (n : Nat) : Nat := 0x120120 + 0x1000 * i + 64 * n
/-- R575. -/
abbrev PSTR4 (i : Nat) (n : Nat) : Nat := 0x120124 + 0x1000 * i + 64 * n
/-- R575. -/
abbrev PQNT (i : Nat) (n : Nat) : Nat := 0x120128 + 0x1000 * i + 64 * n
/-- R575. -/
abbrev PADP (i : Nat) (n : Nat) : Nat := 0x12012C + 0x1000 * i + 64 * n
/-- R575. -/
abbrev PTH (i : Nat) (n : Nat) : Nat := 0x120130 + 0x1000 * i + 64 * n
/-- R575. -/
abbrev LIVE_PCFG (i : Nat) (n : Nat) : Nat := 0x120300 + 0x1000 * i + 64 * n
/-- R575. -/
abbrev LIVE_PDSCL (i : Nat) (n : Nat) : Nat := 0x120304 + 0x1000 * i + 64 * n
/-- R575. -/
abbrev LIVE_POSCL (i : Nat) (n : Nat) : Nat := 0x120308 + 0x1000 * i + 64 * n
/-- R575. -/
abbrev LIVE_PEXT0 (i : Nat) (n : Nat) : Nat := 0x12030C + 0x1000 * i + 64 * n
/-- R575. -/
abbrev LIVE_PEXT1 (i : Nat) (n : Nat) : Nat := 0x120310 + 0x1000 * i + 64 * n
/-- R575. -/
abbrev LIVE_PSTR0 (i : Nat) (n : Nat) : Nat := 0x120314 + 0x1000 * i + 64 * n
/-- R575. -/
abbrev LIVE_PSTR1 (i : Nat) (n : Nat) : Nat := 0x120318 + 0x1000 * i + 64 * n
/-- R575. -/
abbrev LIVE_PSTR2 (i : Nat) (n : Nat) : Nat := 0x12031C + 0x1000 * i + 64 * n
/-- R575. -/
abbrev LIVE_PSTR3 (i : Nat) (n : Nat) : Nat := 0x120320 + 0x1000 * i + 64 * n
/-- R575. -/
abbrev LIVE_PSTR4 (i : Nat) (n : Nat) : Nat := 0x120324 + 0x1000 * i + 64 * n
/-- R575. -/
abbrev LIVE_PQNT (i : Nat) (n : Nat) : Nat := 0x120328 + 0x1000 * i + 64 * n
/-- R575. -/
abbrev LIVE_PADP (i : Nat) (n : Nat) : Nat := 0x12032C + 0x1000 * i + 64 * n
/-- R575. -/
abbrev LIVE_PTH (i : Nat) (n : Nat) : Nat := 0x120330 + 0x1000 * i + 64 * n
/-- R575. -/
abbrev LSAT (i : Nat) (n : Nat) : Nat := 0x120500 + 0x1000 * i + 32 * n
/-- R575. -/
abbrev LUND (i : Nat) (n : Nat) : Nat := 0x120504 + 0x1000 * i + 32 * n
/-- R575. -/
abbrev LAMXP (i : Nat) (n : Nat) : Nat := 0x120508 + 0x1000 * i + 32 * n
/-- R575. -/
abbrev LAMXN (i : Nat) (n : Nat) : Nat := 0x12050C + 0x1000 * i + 32 * n
/-- R575. -/
abbrev NSCL (i : Nat) (n : Nat) : Nat := 0x120510 + 0x1000 * i + 32 * n
/-- R575. -/
abbrev TSAT (i : Nat) (n : Nat) : Nat := 0x120514 + 0x1000 * i + 32 * n
end DRN

namespace H
/-- R103: PID of the page in slot `p`. -/
abbrev PID (p : Nat) : Nat := 0x1000 * p + 0x0
/-- R103: PVER of the page in slot `p`. -/
abbrev PVER (p : Nat) : Nat := 0x1000 * p + 0x4
/-- R103: PCAP of the page in slot `p`. -/
abbrev PCAP (p : Nat) : Nat := 0x1000 * p + 0x8
/-- R103: POWN of the page in slot `p`. -/
abbrev POWN (p : Nat) : Nat := 0x1000 * p + 0xC
/-- R103: PCTL of the page in slot `p`. -/
abbrev PCTL (p : Nat) : Nat := 0x1000 * p + 0x10
/-- R103: PSTAT of the page in slot `p`. -/
abbrev PSTAT (p : Nat) : Nat := 0x1000 * p + 0x14
/-- R103: PIRQS of the page in slot `p`. -/
abbrev PIRQS (p : Nat) : Nat := 0x1000 * p + 0x18
/-- R103: PIRQE of the page in slot `p`. -/
abbrev PIRQE (p : Nat) : Nat := 0x1000 * p + 0x1C
/-- R103: PIRQF of the page in slot `p`. -/
abbrev PIRQF (p : Nat) : Nat := 0x1000 * p + 0x20
/-- R103: PERRC of the page in slot `p`. -/
abbrev PERRC (p : Nat) : Nat := 0x1000 * p + 0x24
/-- R103: PERRA_LO of the page in slot `p`. -/
abbrev PERRA_LO (p : Nat) : Nat := 0x1000 * p + 0x28
/-- R103: PERRA_HI of the page in slot `p`. -/
abbrev PERRA_HI (p : Nat) : Nat := 0x1000 * p + 0x2C
/-- R103: PTICK of the page in slot `p`. -/
abbrev PTICK (p : Nat) : Nat := 0x1000 * p + 0x30
/-- R103: PENRG of the page in slot `p`. -/
abbrev PENRG (p : Nat) : Nat := 0x1000 * p + 0x34
/-- R103: PSCR of the page in slot `p`. -/
abbrev PSCR (p : Nat) : Nat := 0x1000 * p + 0x38
/-- R103: PKEY of the page in slot `p`. -/
abbrev PKEY (p : Nat) : Nat := 0x1000 * p + 0x3C
end H

end Sys2Proof.Machine.R
end

