-- ==== Sys2Proof/Machine/RegTable.lean ====
section
/-!
DEFINITION. The register tables of the spec, page by page: the offset of each register, its fields by access code as
bit masks (R14), and its reset value (R15). Bits in no mask are reserved (R16). A field that reads a fuse or a strap has
reset 0 here and is computed by the read. The names of the registers' offsets in the register window follow the tables.
-/
namespace Sys2Proof.Machine

/-- One register, or an array of `count` registers `stride` bytes apart. -/
structure RegRow where
  ofs : Nat
  count : Nat := 1
  stride : Nat := 4
  rw : Nat := 0
  rwl : Nat := 0
  w1c : Nat := 0
  w1s : Nat := 0
  rc : Nat := 0
  wo : Nat := 0
  ro : Nat := 0
  rst : Nat := 0
  /-- Fields with reset code "keep": warm reset leaves them. -/
  keep : Nat := 0
  /-- Present on instance 0 of the page only. -/
  inst0 : Bool := false
  deriving DecidableEq, Repr

/-- The kinds of register page (R133). -/
inductive PageKind where
  | dev | aon | swd | fuse | cc | wdt | err | trc | dbg | pwm | elg | tick | kmap | tbl | lrn | lst | ing | pci
  | eth | vxl | hbm | dma | tile | ary | drn
  deriving DecidableEq, Repr

/-- The common page header (R103). -/
def hdrRows : List RegRow :=
  [ { ofs := 0x000, ro := 0xFFFFFF00, rst := 0x100 },
    { ofs := 0x004, ro := 0xFF00FFFF },
    { ofs := 0x008, ro := 0xFFFF001F },
    { ofs := 0x00C, ro := 0x7FF, rst := 0x8 },
    { ofs := 0x010, rw := 0x5, wo := 0x2, rst := 0x1 },
    { ofs := 0x014, w1c := 0x30, ro := 0xCF },
    { ofs := 0x018, w1c := 0xFFFFFFFF },
    { ofs := 0x01C, rw := 0xFFFFFFFF },
    { ofs := 0x020, wo := 0xFFFFFFFF },
    { ofs := 0x024, wo := 0x80000000, ro := 0x407FFFFF },
    { ofs := 0x028, ro := 0xFFFFFFFF },
    { ofs := 0x02C, ro := 0xFFFF },
    { ofs := 0x030, ro := 0xFFFFFFFF },
    { ofs := 0x034, ro := 0xFFFFFFFF },
    { ofs := 0x038, rw := 0xFFFFFFFF },
    { ofs := 0x03C, wo := 0xFFFFFFFF } ]

/-- The block-specific registers of the DEV page (R3, R4, R1000, R1009, R1058). -/
def devRows : List RegRow :=
  [ { ofs := 0x040, ro := 0xFFFFFF00 },
    { ofs := 0x044, ro := 0x7FFFF },
    { ofs := 0x048, ro := 0xF103 },
    { ofs := 0x04C, ro := 0x7FFFFFFF },
    { ofs := 0x050, ro := 0x3FFFFF },
    { ofs := 0x054, rwl := 0xF, rst := 0x1 },
    { ofs := 0x058, ro := 0x7 } ]

/-- The block-specific registers of the TICK page (R81). -/
def tickRows : List RegRow :=
  [ { ofs := 0x040, rw := 0x7FF, rst := 0x188 },
    { ofs := 0x044, rw := 0xFFFFFFFF, rst := 0x10000 },
    { ofs := 0x048, rw := 0x7FF, rst := 0x40 },
    { ofs := 0x04C, rw := 0x7FFF, rst := 0x2710 },
    { ofs := 0x050, rw := 0xFFFF, rst := 0xC350 },
    { ofs := 0x054, rw := 0xFFFFFFFF },
    { ofs := 0x058, rw := 0xFFFFF },
    { ofs := 0x05C, rw := 0xFF07, rst := 0xA00 },
    { ofs := 0x060, rw := 0xFFFFF, rst := 0x1388 },
    { ofs := 0x064, w1c := 0x10, ro := 0xF, rst := 0x4 },
    { ofs := 0x068, w1s := 0xFFFF },
    { ofs := 0x06C, ro := 0xFFFFFFFF },
    { ofs := 0x070, ro := 0xFFFFFF },
    { ofs := 0x074, rc := 0xFFFFFFFF },
    { ofs := 0x078, rc := 0xFFFFFFFF },
    { ofs := 0x080, ro := 0xFFFFFFFF },
    { ofs := 0x084, ro := 0xFFFF },
    { ofs := 0x088, ro := 0xFFFFFFFF },
    { ofs := 0x08C, ro := 0xFFFFFFFF },
    { ofs := 0x090, ro := 0xFFFFFFFF },
    { ofs := 0x094, ro := 0xFFFFFFFF },
    { ofs := 0x098, ro := 0xFFFFFFFF },
    { ofs := 0x09C, ro := 0xFFFF },
    { ofs := 0x0A0, count := 8, stride := 4, rw := 0xFFFFFF07, rst := 0x4B000 },
    { ofs := 0x0C0, count := 8, stride := 4, rc := 0xFFFFFFFF } ]

/-- The block-specific registers of the KMAP page (R178). -/
def kmapRows : List RegRow :=
  [ { ofs := 0x040, rwl := 0xFFFFFF },
    { ofs := 0x044, rwl := 0xFFFFFF },
    { ofs := 0x048, rwl := 0x7 },
    { ofs := 0x050, count := 8, stride := 4, rwl := 0x7F },
    { ofs := 0x070, rwl := 0x1F3F, rst := 0x1038 },
    { ofs := 0x074, count := 7, stride := 4, rwl := 0x1F3F },
    { ofs := 0x090, count := 8, stride := 4, rwl := 0xFFFFF },
    { ofs := 0x0B0, count := 16, stride := 4, rwl := 0x3FFFFFF },
    { ofs := 0x100, count := 32, stride := 4, rwl := 0xFFFFFFFF },
    { ofs := 0x440, ro := 0xFFFFFF },
    { ofs := 0x444, ro := 0xFFFFFF },
    { ofs := 0x448, ro := 0x7 },
    { ofs := 0x450, count := 8, stride := 4, ro := 0x7F },
    { ofs := 0x470, ro := 0x1F3F, rst := 0x1038 },
    { ofs := 0x474, count := 7, stride := 4, ro := 0x1F3F },
    { ofs := 0x490, count := 8, stride := 4, ro := 0xFFFFF },
    { ofs := 0x4B0, count := 16, stride := 4, ro := 0x3FFFFFF },
    { ofs := 0x500, count := 32, stride := 4, ro := 0xFFFFFFFF },
    { ofs := 0x800, wo := 0x3 },
    { ofs := 0x804, w1c := 0x2, ro := 0xF1 },
    { ofs := 0x808, ro := 0xFFFFFFFF },
    { ofs := 0x810, count := 8, stride := 4, rw := 0x1, wo := 0x2 },
    { ofs := 0x830, count := 8, stride := 4, w1c := 0x8, ro := 0xFFFF0003 } ]

/-- The block-specific registers of the TILE page (R238, R343, R355, R465, R623, R938). -/
def tileRows : List RegRow :=
  [ { ofs := 0x040, rw := 0x7, rst := 0x4 },
    { ofs := 0x044, w1c := 0x8000, ro := 0x107 },
    { ofs := 0x048, rw := 0xFFFFFFFF },
    { ofs := 0x04C, rw := 0xFFFF },
    { ofs := 0x050, rw := 0xFFFFFFFF },
    { ofs := 0x054, rw := 0xFFFF },
    { ofs := 0x058, rw := 0x1FFF },
    { ofs := 0x05C, wo := 0x1 },
    { ofs := 0x060, ro := 0xFFFF0003 },
    { ofs := 0x064, rc := 0xFFFF },
    { ofs := 0x068, ro := 0xFFFFF },
    { ofs := 0x070, ro := 0xFFFFFFFF },
    { ofs := 0x074, ro := 0xFFFF },
    { ofs := 0x078, w1s := 0xFFFF },
    { ofs := 0x080, rw := 0x3FF, wo := 0x10000, rst := 0x10 },
    { ofs := 0x084, w1c := 0x8, ro := 0x7, rst := 0x2 },
    { ofs := 0x088, rc := 0xFFFFFFFF },
    { ofs := 0x08C, rc := 0xFFFFFFFF },
    { ofs := 0x0C0, ro := 0xF },
    { ofs := 0x0C4, ro := 0xFFFFFFFF },
    { ofs := 0x0C8, rc := 0xFFFF0000, ro := 0xFFFF },
    { ofs := 0x200, rw := 0xFFFFFF, rst := 0x6DB6DB },
    { ofs := 0x204, rw := 0xFFFFFF },
    { ofs := 0x208, rw := 0xFF },
    { ofs := 0x20C, rw := 0x3FFFFF, rst := 0x64191 },
    { ofs := 0x210, rc := 0xFFFFFFFF },
    { ofs := 0x214, rw := 0xFFFF, rst := 0x10 },
    { ofs := 0x218, w1c := 0x1, ro := 0xFF02 },
    { ofs := 0x220, wo := 0x30FFFFF },
    { ofs := 0x240, count := 16, stride := 16, ro := 0xFFFF00F3 } ] ++
  [ { ofs := 0x244, count := 16, stride := 16, ro := 0xFFFF00FF },
    { ofs := 0x248, count := 16, stride := 16, ro := 0xFFFFFFFF },
    { ofs := 0x24C, count := 16, stride := 16, rc := 0xFFFFFFFF },
    { ofs := 0x340, w1c := 0x100, ro := 0x1F },
    { ofs := 0x344, rc := 0xFFFF03FF },
    { ofs := 0x348, ro := 0xFFFFFFFF },
    { ofs := 0x34C, ro := 0xFFFFFFFF },
    { ofs := 0x0A0, ro := 0xFFFF0003 },
    { ofs := 0x0A4, ro := 0xFFFF },
    { ofs := 0x0A8, ro := 0xF },
    { ofs := 0x0B0, wo := 0xFFFF0000 } ]

/-- The block-specific registers of the CC page (R343, R355, R623, R938). -/
def ccRows : List RegRow :=
  [ { ofs := 0x044, w1c := 0x8000, ro := 0x107 },
    { ofs := 0x064, rc := 0xFFFF },
    { ofs := 0x068, ro := 0xFFFFF },
    { ofs := 0x070, ro := 0xFFFFFFFF },
    { ofs := 0x074, ro := 0xFFFF },
    { ofs := 0x078, w1s := 0xFFFF },
    { ofs := 0x0C0, rw := 0xFFFF0001, rst := 0x3E80000 },
    { ofs := 0x0C4, ro := 0xFF33 },
    { ofs := 0x0C8, rc := 0xFFFFFFFF },
    { ofs := 0x0A0, ro := 0xFFFF0003 },
    { ofs := 0x0A4, ro := 0xFFFF },
    { ofs := 0x0A8, ro := 0xF },
    { ofs := 0x0B0, wo := 0xFFFF0000 } ]

/-- The block-specific registers of the ERR page (R999). -/
def errRows : List RegRow :=
  [ { ofs := 0x040, rw := 0x3FFF, rst := 0x64 },
    { ofs := 0x044, w1c := 0x100, ro := 0x7F },
    { ofs := 0x048, rc := 0xFFFF },
    { ofs := 0x04C, rc := 0xFFFFFFFF },
    { ofs := 0x050, rc := 0xFFFFFFFF },
    { ofs := 0x054, ro := 0xFFFF0007 },
    { ofs := 0x058, ro := 0xFFFFFFFF },
    { ofs := 0x05C, ro := 0xFFFFFFFF },
    { ofs := 0x060, ro := 0xFFFFFFFF },
    { ofs := 0x064, ro := 0xFFFFFFFF },
    { ofs := 0x080, rw := 0xFFFF },
    { ofs := 0x104, count := 13, stride := 4, rw := 0x1F, rst := 0x1 } ]

/-- The block-specific registers of the DBG page (R969). -/
def dbgRows : List RegRow :=
  [ { ofs := 0x040, w1c := 0x8, ro := 0x3F7 },
    { ofs := 0x044, rw := 0xE, wo := 0x1 },
    { ofs := 0x048, ro := 0xFFFFFFFF },
    { ofs := 0x04C, ro := 0xFFFFFFFF },
    { ofs := 0x050, wo := 0x1 },
    { ofs := 0x060, w1s := 0x1FFFF },
    { ofs := 0x064, w1s := 0x1FFFF },
    { ofs := 0x068, w1s := 0x1FFFF },
    { ofs := 0x06C, ro := 0x1FFFF },
    { ofs := 0x070, count := 17, stride := 4, ro := 0x7 },
    { ofs := 0x100, count := 4, stride := 16, rwl := 0xFFFFFFFF },
    { ofs := 0x104, count := 4, stride := 16, rwl := 0xFFFF },
    { ofs := 0x108, count := 4, stride := 16, rwl := 0x8001FFFF },
    { ofs := 0x140, rw := 0x3F1FFF },
    { ofs := 0x144, rw := 0xFFFFFFFF },
    { ofs := 0x400, count := 57, stride := 4, wo := 0xFFFFFFFF } ]

/-- The block-specific registers of the TRC page (R970). -/
def trcRows : List RegRow :=
  [ { ofs := 0x040, rw := 0x3FFE },
    { ofs := 0x044, rw := 0xFFFF, rst := 0x3E8 },
    { ofs := 0x100, count := 18, stride := 16, rw := 0x1FF1FF7 },
    { ofs := 0x104, count := 18, stride := 16, ro := 0xFFFFFFFF, keep := 0xFFFFFFFF },
    { ofs := 0x108, count := 18, stride := 16, ro := 0x3 },
    { ofs := 0x10C, count := 18, stride := 16, rc := 0xFFFFFFFF },
    { ofs := 0x300, count := 18, stride := 4, wo := 0xFFFFFFFF } ]

/-- The block-specific registers of the AON page (R914, R970, R1001, R1051). -/
def aonRows : List RegRow :=
  [ { ofs := 0x080, ro := 0xFFFFFFFF, keep := 0xFFFFFFFF },
    { ofs := 0x084, rw := 0xFF },
    { ofs := 0x088, ro := 0xFFFFFFFF },
    { ofs := 0x08C, ro := 0xFFFFFFFF },
    { ofs := 0x090, ro := 0xFFFFFFFF },
    { ofs := 0x094, ro := 0xFFFFFFFF },
    { ofs := 0x098, rc := 0xFFFF },
    { ofs := 0x0A0, wo := 0x1 },
    { ofs := 0x040, w1c := 0xFF, rst := 0x1 },
    { ofs := 0x044, ro := 0xFFFFFFFF },
    { ofs := 0x048, ro := 0x8F },
    { ofs := 0x04C, w1s := 0x10000, ro := 0x7F7 },
    { ofs := 0x050, wo := 0xFFFFFFFF },
    { ofs := 0x054, rwl := 0x6, w1s := 0x1 },
    { ofs := 0x058, rwl := 0xFFFFFF },
    { ofs := 0x05C, rwl := 0xFF0000, ro := 0xFFFF, rst := 0x640000 },
    { ofs := 0x060, rc := 0xFFFF },
    { ofs := 0x0A4, w1c := 0x10000, ro := 0xFFFF },
    { ofs := 0x0B0, ro := 0xFFFFFFFF },
    { ofs := 0x0B4, ro := 0xFFFFFFFF } ]

/-- The block-specific registers of the FUSE page (R1001). -/
def fuseRows : List RegRow :=
  [ { ofs := 0x100, ro := 0x7FFFFFFF },
    { ofs := 0x104, ro := 0x3FFFFF } ]

/-- The block-specific registers of the HBM page (R283, R662). -/
def hbmRows : List RegRow :=
  [ { ofs := 0x040, rwl := 0x13, wo := 0x20, rst := 0x2, keep := 0x10 },
    { ofs := 0x044, ro := 0xFF0F },
    { ofs := 0x048, rc := 0xFFFFFFFF },
    { ofs := 0x04C, rw := 0xFFFF, rst := 0x100 },
    { ofs := 0x050, rw := 0xFF, rst := 0x18 },
    { ofs := 0x054, rw := 0xFF, rst := 0x5F },
    { ofs := 0x058, ro := 0xF03 },
    { ofs := 0x05C, w1c := 0x100, ro := 0xF },
    { ofs := 0x060, count := 4, stride := 8, ro := 0xFFFFFFFF },
    { ofs := 0x064, count := 4, stride := 8, ro := 0xFFFF },
    { ofs := 0x080, rc := 0x3F3F },
    { ofs := 0x084, rc := 0xFFFFFFFF } ]

/-- The block-specific registers of the LST page (R285). -/
def lstRows : List RegRow :=
  [ { ofs := 0x040, count := 8, stride := 16, rw := 0x803FFFFF },
    { ofs := 0x044, count := 8, stride := 16, rw := 0x1FFF },
    { ofs := 0x048, count := 8, stride := 16, ro := 0xFFFFFFFF },
    { ofs := 0x04C, count := 8, stride := 16, rc := 0xFFFFFFFF },
    { ofs := 0x0C0, count := 8, stride := 4, ro := 0xFFF },
    { ofs := 0x0E0, rc := 0xFFFF },
    { ofs := 0x0E4, w1c := 0x1 } ]

/-- The block-specific registers of the TBL page (R622). -/
def tblRows : List RegRow :=
  [ { ofs := 0x040, ro := 0x1 },
    { ofs := 0x044, ro := 0xFFFFFFFF },
    { ofs := 0x048, rc := 0xFFFF },
    { ofs := 0x04C, ro := 0x7FFFF },
    { ofs := 0x050, ro := 0xFFFF },
    { ofs := 0x054, rc := 0xFFFFFFFF },
    { ofs := 0x058, rc := 0xFFFFFFFF },
    { ofs := 0x060, count := 4, stride := 4, rw := 0xFFFFFFFF },
    { ofs := 0x070, wo := 0x800007FF } ]

/-- The block-specific registers of the DMA page (R624, R662). -/
def dmaRows : List RegRow :=
  [ { ofs := 0x040, ro := 0x1FF },
    { ofs := 0x044, ro := 0x7F },
    { ofs := 0x048, rc := 0xFFFFFFFF },
    { ofs := 0x04C, rc := 0xFFFF },
    { ofs := 0x050, rw := 0xFFFF, rst := 0x64 },
    { ofs := 0x054, rc := 0xFFFFFFFF },
    { ofs := 0x058, rc := 0xFFFF },
    { ofs := 0x05C, rc := 0x3FFFF },
    { ofs := 0x060, count := 8, stride := 4, ro := 0xFFFFFFFF },
    { ofs := 0x080, count := 8, stride := 4, ro := 0x3F },
    { ofs := 0x100, count := 4, stride := 16, rw := 0x1FFFF },
    { ofs := 0x104, count := 4, stride := 16, rw := 0x3FFFF },
    { ofs := 0x108, count := 4, stride := 16, rw := 0x7FFFF },
    { ofs := 0x10C, count := 4, stride := 16, rw := 0x3FFFFFFF },
    { ofs := 0x180, count := 4, stride := 4, rc := 0xFFFFFFFF } ]

/-- The block-specific registers of the ARY page (R540). -/
def aryRows : List RegRow :=
  [ { ofs := 0x040, ro := 0x1FFF, rst := 0x800 },
    { ofs := 0x044, ro := 0x3FF, rst := 0x11 },
    { ofs := 0x048, ro := 0xFFFF },
    { ofs := 0x04C, ro := 0xFFFF },
    { ofs := 0x050, ro := 0xF },
    { ofs := 0x054, ro := 0xFFFFFFFF },
    { ofs := 0x058, rc := 0xFFFFFFFF },
    { ofs := 0x05C, rc := 0xFFFFFFFF },
    { ofs := 0x060, ro := 0xF },
    { ofs := 0x064, rc := 0xFFFFFFFF } ]

/-- The block-specific registers of the DRN page (R575). -/
def drnRows : List RegRow :=
  [ { ofs := 0x040, w1c := 0x20, ro := 0x5F },
    { ofs := 0x044, ro := 0xFFFFFFFF },
    { ofs := 0x048, w1s := 0x1, wo := 0x2 },
    { ofs := 0x04C, rw := 0x7FF },
    { ofs := 0x050, rw := 0xFFFFFFFF },
    { ofs := 0x054, ro := 0xF },
    { ofs := 0x058, rc := 0xFFFFFFFF },
    { ofs := 0x080, count := 4, stride := 8, rw := 0xFFFFFFFF },
    { ofs := 0x084, count := 4, stride := 8, rw := 0x1FF },
    { ofs := 0x100, count := 8, stride := 64, rw := 0xFFFFF, rst := 0x80004 },
    { ofs := 0x104, count := 8, stride := 64, rw := 0xFFFFFF, rst := 0x7F4000 },
    { ofs := 0x108, count := 8, stride := 64, rw := 0xFFFFFF, rst := 0x7F4000 },
    { ofs := 0x10C, count := 8, stride := 64, rw := 0x3FFFFFF, rst := 0x2001 },
    { ofs := 0x110, count := 8, stride := 64, rw := 0x3FFFFFF, rst := 0x2001 },
    { ofs := 0x114, count := 8, stride := 64, rw := 0xFFFFFF },
    { ofs := 0x118, count := 8, stride := 64, rw := 0xFFFFFF },
    { ofs := 0x11C, count := 8, stride := 64, rw := 0xFFFFFF },
    { ofs := 0x120, count := 8, stride := 64, rw := 0xFFFFFF },
    { ofs := 0x124, count := 8, stride := 64, rw := 0xFFFFFF },
    { ofs := 0x128, count := 8, stride := 64, rw := 0xFFFFFFFF, rst := 0x210000 },
    { ofs := 0x12C, count := 8, stride := 64, rw := 0xFFFF03FF, rst := 0xFF0100E0 },
    { ofs := 0x130, count := 8, stride := 64, rw := 0xFFFFFFFF },
    { ofs := 0x300, count := 8, stride := 64, ro := 0xFFFFF, rst := 0x80004 },
    { ofs := 0x304, count := 8, stride := 64, ro := 0xFFFFFF, rst := 0x7F4000 },
    { ofs := 0x308, count := 8, stride := 64, ro := 0xFFFFFF, rst := 0x7F4000 },
    { ofs := 0x30C, count := 8, stride := 64, ro := 0x3FFFFFF, rst := 0x2001 },
    { ofs := 0x310, count := 8, stride := 64, ro := 0x3FFFFFF, rst := 0x2001 },
    { ofs := 0x314, count := 8, stride := 64, ro := 0xFFFFFF },
    { ofs := 0x318, count := 8, stride := 64, ro := 0xFFFFFF },
    { ofs := 0x31C, count := 8, stride := 64, ro := 0xFFFFFF } ] ++
  [ { ofs := 0x320, count := 8, stride := 64, ro := 0xFFFFFF },
    { ofs := 0x324, count := 8, stride := 64, ro := 0xFFFFFF },
    { ofs := 0x328, count := 8, stride := 64, ro := 0xFFFFFFFF, rst := 0x210000 },
    { ofs := 0x32C, count := 8, stride := 64, ro := 0xFFFF03FF, rst := 0xFF0100E0 },
    { ofs := 0x330, count := 8, stride := 64, ro := 0xFFFFFFFF },
    { ofs := 0x500, count := 8, stride := 32, ro := 0xFFFFFFFF },
    { ofs := 0x504, count := 8, stride := 32, ro := 0xFFFFFFFF },
    { ofs := 0x508, count := 8, stride := 32, ro := 0xFFFFFFFF },
    { ofs := 0x50C, count := 8, stride := 32, ro := 0xFFFFFFFF },
    { ofs := 0x510, count := 8, stride := 32, ro := 0xFFFFFF, rst := 0x7F4000 },
    { ofs := 0x514, count := 8, stride := 32, rc := 0xFFFFFFFF } ]

/-- The block-specific registers of the LRN page (R700). -/
def lrnRows : List RegRow :=
  [ { ofs := 0x040, rw := 0x111, wo := 0x6E, rst := 0x100 },
    { ofs := 0x044, w1c := 0x10, ro := 0x1FEF },
    { ofs := 0x048, rw := 0x1FF1FFF },
    { ofs := 0x04C, rw := 0xFFFFFF1F, rst := 0x4001 },
    { ofs := 0x050, rw := 0xFFFFFF, rst := 0x7F4000 },
    { ofs := 0x054, rw := 0xFFFFFF, rst := 0x7F4000 },
    { ofs := 0x058, rw := 0xFFFFFF, rst := 0x7F4000 },
    { ofs := 0x05C, rw := 0xFFFFFF, rst := 0x7F4000 },
    { ofs := 0x060, rw := 0xFFFFFF, rst := 0x7F4000 },
    { ofs := 0x064, rw := 0xFFFFFF, rst := 0x7F4000 },
    { ofs := 0x068, rw := 0xFFFFFF, rst := 0x7F4000 },
    { ofs := 0x06C, rw := 0xFFFFFF, rst := 0x7F4000 },
    { ofs := 0x070, rw := 0xFFFFFF },
    { ofs := 0x074, rw := 0xFFFFFF },
    { ofs := 0x078, rw := 0xFFFFFF, rst := 0x7F4000 },
    { ofs := 0x07C, rw := 0xFFFFFF },
    { ofs := 0x080, rw := 0x1FFFFF },
    { ofs := 0x084, rw := 0xFFFFFFFF },
    { ofs := 0x088, rw := 0x1FFFF, rst := 0x400 },
    { ofs := 0x08C, rw := 0xFF, rst := 0x1 },
    { ofs := 0x090, ro := 0x1FFFF },
    { ofs := 0x094, ro := 0xFFFFFFFF },
    { ofs := 0x098, ro := 0xFFFFFFFF },
    { ofs := 0x09C, ro := 0x1FFFFF },
    { ofs := 0x0A0, ro := 0xFFFFFFFF },
    { ofs := 0x0A4, ro := 0xFFFFFFFF },
    { ofs := 0x0A8, ro := 0xF1F },
    { ofs := 0x0AC, ro := 0xFFFF },
    { ofs := 0x0B0, rc := 0xFFFFFFFF },
    { ofs := 0x0B8, rw := 0xFFFFFFFF } ] ++
  [ { ofs := 0x0BC, rw := 0xFFFF },
    { ofs := 0x0C0, rw := 0xFFFFFFFF },
    { ofs := 0x0C4, rw := 0xFFFF } ]

/-- The block-specific registers of the ING page (R738). -/
def ingRows : List RegRow :=
  [ { ofs := 0x040, rw := 0x1, rst := 0x1 },
    { ofs := 0x044, w1c := 0x1 },
    { ofs := 0x048, w1s := 0xFF },
    { ofs := 0x04C, rw := 0xFFFF, rst := 0x3E8 },
    { ofs := 0x100, count := 16, stride := 16, rw := 0x107 },
    { ofs := 0x104, count := 16, stride := 16, ro := 0x3 },
    { ofs := 0x108, count := 16, stride := 16, rc := 0xFFFFFFFF },
    { ofs := 0x200, count := 8, stride := 32, rw := 0xFFFF0FFF },
    { ofs := 0x204, count := 8, stride := 32, rw := 0x3FFFF, rst := 0x1 },
    { ofs := 0x208, count := 8, stride := 32, rw := 0xFFFFF, rst := 0x2710 },
    { ofs := 0x20C, count := 8, stride := 32, rw := 0x1F01FF, rst := 0x20000 },
    { ofs := 0x210, count := 8, stride := 32, rw := 0x1FFFFF },
    { ofs := 0x214, count := 8, stride := 32, ro := 0xFFFF3FFF },
    { ofs := 0x218, count := 8, stride := 32, rc := 0xFFFFFFFF },
    { ofs := 0x21C, count := 8, stride := 32, rc := 0xFFFFFFFF },
    { ofs := 0x600, rw := 0x1FF0F, wo := 0x1000000 },
    { ofs := 0x604, ro := 0x1FF0003 },
    { ofs := 0x700, count := 64, stride := 4, rw := 0xFFFFFFFF },
    { ofs := 0x800, count := 64, stride := 4, ro := 0xFFFFFFFF } ]

/-- The block-specific registers of the VXL page (R796, R797). -/
def vxlRows : List RegRow :=
  [ { ofs := 0x040, rw := 0xFF01, wo := 0x2, rst := 0xA00 },
    { ofs := 0x044, ro := 0xF },
    { ofs := 0x048, ro := 0xFFFFFF },
    { ofs := 0x04C, ro := 0xFFFF00FF },
    { ofs := 0x050, ro := 0xFFFFFFFF },
    { ofs := 0x054, ro := 0xFFFFFFFF },
    { ofs := 0x058, rc := 0xFFFFFFFF },
    { ofs := 0x05C, rc := 0xFFFFFFFF },
    { ofs := 0x060, ro := 0xFFFFFFFF },
    { ofs := 0x064, rc := 0xFFFFFFFF },
    { ofs := 0x080, rw := 0x3, keep := 0x3, inst0 := true },
    { ofs := 0x084, ro := 0xFF01FF, inst0 := true },
    { ofs := 0x088, rw := 0x11F, keep := 0x11F, inst0 := true },
    { ofs := 0x08C, rw := 0x7FFF, rst := 0xFA0, inst0 := true },
    { ofs := 0x090, rw := 0x3FF, rst := 0x64, inst0 := true },
    { ofs := 0x094, rw := 0xFFFF, rst := 0x14, inst0 := true },
    { ofs := 0x098, count := 4, stride := 4, rw := 0xFFFFFFFF, rst := 0xFFFFFFFF, keep := 0xFFFFFFFF, inst0 := true },
    { ofs := 0x0A8, rc := 0xFFFF, rst := 0xFFFF, inst0 := true },
    { ofs := 0x0AC, rc := 0xFFFFFFFF, inst0 := true },
    { ofs := 0x0B0, rc := 0xFFFF, inst0 := true },
    { ofs := 0x0B8, ro := 0xFFFFFFFF, inst0 := true },
    { ofs := 0x0BC, ro := 0xFFFFFFFF, inst0 := true },
    { ofs := 0x0C0, rw := 0x1, inst0 := true },
    { ofs := 0x0C4, ro := 0xFFFFFFFF, inst0 := true } ]

/-- The block-specific registers of the PCI page (R835). -/
def pciRows : List RegRow :=
  [ { ofs := 0x040, ro := 0x1F7 },
    { ofs := 0x048, rwl := 0xFFFFFFFF },
    { ofs := 0x04C, rwl := 0xFFFF },
    { ofs := 0x064, rwl := 0x107 },
    { ofs := 0x068, rwl := 0x107, rst := 0x1 },
    { ofs := 0x06C, rwl := 0x107, rst := 0x2 },
    { ofs := 0x070, rwl := 0x107, rst := 0x3 },
    { ofs := 0x074, rwl := 0x107, rst := 0x4 },
    { ofs := 0x078, rwl := 0x107, rst := 0x5 },
    { ofs := 0x07C, rwl := 0x107, rst := 0x6 },
    { ofs := 0x080, rwl := 0x107, rst := 0x7 },
    { ofs := 0x088, count := 8, stride := 8, rwl := 0xFFFFFFFF },
    { ofs := 0x08C, count := 8, stride := 8, rwl := 0xFFFF },
    { ofs := 0x100, count := 9, stride := 64, rw := 0xFFFFFFFF },
    { ofs := 0x104, count := 9, stride := 64, rw := 0xFFFFFFFF },
    { ofs := 0x108, count := 9, stride := 64, rw := 0xFFFFFFFF },
    { ofs := 0x10C, count := 9, stride := 64, rw := 0xFFFFFFFF },
    { ofs := 0x110, count := 9, stride := 64, rw := 0xFFFF011F, rst := 0x10006 },
    { ofs := 0x114, count := 9, stride := 64, ro := 0xFFFFFFFF },
    { ofs := 0x118, count := 9, stride := 64, rw := 0xFFFFFFFF },
    { ofs := 0x11C, count := 9, stride := 64, rw := 0xFFFFFFFF },
    { ofs := 0x120, count := 9, stride := 64, rw := 0xFFFFFFFF },
    { ofs := 0x124, count := 9, stride := 64, rw := 0xFFFFFFFF },
    { ofs := 0x128, count := 9, stride := 64, rw := 0x11F, rst := 0x4 },
    { ofs := 0x12C, count := 9, stride := 64, ro := 0xFFFFFFFF },
    { ofs := 0x130, count := 9, stride := 64, rw := 0xFFFFFFFF },
    { ofs := 0x134, count := 9, stride := 64, rw := 0xFFFF },
    { ofs := 0x138, count := 9, stride := 64, rw := 0x1F, rst := 0x4 },
    { ofs := 0x400, count := 8, stride := 32, rwl := 0xFFFFFFFF },
    { ofs := 0x404, count := 8, stride := 32, rwl := 0xFFFF } ] ++
  [ { ofs := 0x408, count := 8, stride := 32, rwl := 0x3F1F, rst := 0xA },
    { ofs := 0x40C, count := 8, stride := 32, rwl := 0xFFFFFFFF },
    { ofs := 0x410, count := 8, stride := 32, rwl := 0xFFFF },
    { ofs := 0x414, count := 8, stride := 32, rwl := 0x11F, rst := 0xA },
    { ofs := 0x41C, count := 8, stride := 32, rc := 0xFFFFFFFF },
    { ofs := 0x500, ro := 0xFFFFFFFF },
    { ofs := 0x504, ro := 0xFFFFFFFF },
    { ofs := 0x508, rc := 0xFFFFFFFF } ]

/-- The block-specific registers of the ETH page (R836). -/
def ethRows : List RegRow :=
  [ { ofs := 0x040, rw := 0xF },
    { ofs := 0x044, ro := 0x1 },
    { ofs := 0x048, rw := 0xFFFFFFFF },
    { ofs := 0x04C, rw := 0xFFFF },
    { ofs := 0x050, rw := 0xFFFFFFFF },
    { ofs := 0x054, count := 4, stride := 4, rw := 0xFFFFFFFF },
    { ofs := 0x064, rw := 0x3FFF, rst := 0x5DC },
    { ofs := 0x068, rw := 0xFF, rst := 0x5 },
    { ofs := 0x070, rw := 0xFFFFFFFF },
    { ofs := 0x074, rw := 0xFFFF },
    { ofs := 0x078, rw := 0x11F, rst := 0x6 },
    { ofs := 0x080, rc := 0xFFFFFFFF },
    { ofs := 0x084, rc := 0xFFFFFFFF },
    { ofs := 0x088, rc := 0xFFFFFFFF },
    { ofs := 0x08C, rc := 0xFFFFFFFF },
    { ofs := 0x090, ro := 0xFFFF },
    { ofs := 0x094, ro := 0xFFFF },
    { ofs := 0x098, w1c := 0x10000, ro := 0x1F1F },
    { ofs := 0x0A0, rw := 0xFFFFFFFF, inst0 := true },
    { ofs := 0x0A8, wo := 0xFFFFFFFF, inst0 := true },
    { ofs := 0x0AC, wo := 0xFFFFFFFF, inst0 := true },
    { ofs := 0x0B0, rc := 0xFFFFFFFF },
    { ofs := 0x100, count := 8, stride := 32, rw := 0xFFFFFF },
    { ofs := 0x104, count := 8, stride := 32, rw := 0xFFFFFFFF },
    { ofs := 0x108, count := 8, stride := 32, rw := 0xFFFF },
    { ofs := 0x10C, count := 8, stride := 32, rw := 0xFFFFFFFF },
    { ofs := 0x110, count := 8, stride := 32, rw := 0xFFFFFFFF },
    { ofs := 0x114, count := 8, stride := 32, rw := 0xFFFFFFFF },
    { ofs := 0x118, count := 8, stride := 32, rw := 0xFFFFFFFF },
    { ofs := 0x11C, count := 8, stride := 32, rw := 0xFFFFFFFF } ] ++
  [ { ofs := 0x200, count := 8, stride := 8, rc := 0xFFFFFFFF },
    { ofs := 0x204, count := 8, stride := 8, ro := 0x7FF } ]

/-- The block-specific registers of the ELG page (R870). -/
def elgRows : List RegRow :=
  [ { ofs := 0x040, rwl := 0x1FFFF, rst := 0x1D4C0 },
    { ofs := 0x044, rwl := 0x3FFFF },
    { ofs := 0x048, rwl := 0xFFFFFF },
    { ofs := 0x04C, rwl := 0xFFFF, ro := 0x30000, rst := 0x5F08 },
    { ofs := 0x050, rwl := 0xFF0FFF, rst := 0x320001 },
    { ofs := 0x054, count := 8, stride := 4, rwl := 0xF7F },
    { ofs := 0x074, ro := 0x3FFFF },
    { ofs := 0x078, ro := 0xFFFF },
    { ofs := 0x07C, ro := 0xFFFFFF },
    { ofs := 0x080, ro := 0xFFFFFF },
    { ofs := 0x084, ro := 0xFFFFFF },
    { ofs := 0x088, ro := 0xFFFFFF },
    { ofs := 0x08C, ro := 0xFFFFFF },
    { ofs := 0x090, w1c := 0x8, ro := 0x7 },
    { ofs := 0x100, count := 8, stride := 16, rwl := 0xFF1F, rst := 0x1000 },
    { ofs := 0x104, count := 8, stride := 16, rwl := 0xFFFFFF },
    { ofs := 0x108, count := 8, stride := 16, rwl := 0xFFFFFF, rst := 0xFFFFFF },
    { ofs := 0x10C, count := 8, stride := 16, ro := 0x3 },
    { ofs := 0x200, count := 8, stride := 16, ro := 0xFFFFFF },
    { ofs := 0x204, count := 8, stride := 16, ro := 0xFFFFFF },
    { ofs := 0x208, count := 8, stride := 16, ro := 0xFFFFFF },
    { ofs := 0x20C, count := 8, stride := 16, ro := 0xFFFFFF },
    { ofs := 0x300, count := 8, stride := 4, rc := 0xFFFFFFFF } ]

/-- The block-specific registers of the PWM page (R915). -/
def pwmRows : List RegRow :=
  [ { ofs := 0x040, ro := 0x3, rst := 0x1 },
    { ofs := 0x044, rwl := 0xFFFF },
    { ofs := 0x048, ro := 0xFFFFFFFF },
    { ofs := 0x04C, w1c := 0xFFFF },
    { ofs := 0x050, wo := 0x1, ro := 0xF0 },
    { ofs := 0x054, rc := 0xFFFF } ]

/-- The block-specific registers of the WDT page (R938). -/
def wdtRows : List RegRow :=
  [ { ofs := 0x040, ro := 0xFF },
    { ofs := 0x100, count := 17, stride := 16, rwl := 0x1 },
    { ofs := 0x104, count := 17, stride := 16, rwl := 0xFFFFFF, rst := 0x400 },
    { ofs := 0x108, count := 17, stride := 16, ro := 0xFFFFFF0F },
    { ofs := 0x10C, count := 17, stride := 16, rc := 0xFFFFFFFF } ]

/-- The block-specific registers of the SWD page (R938). -/
def swdRows : List RegRow :=
  [ { ofs := 0x040, rwl := 0xFFFF0000, w1s := 0x1, rst := 0x7D00000 },
    { ofs := 0x044, ro := 0xF },
    { ofs := 0x048, wo := 0xFFFF0000 },
    { ofs := 0x04C, ro := 0xFFFF0007 },
    { ofs := 0x050, ro := 0xFFFFFFFF, keep := 0xFFFFFFFF },
    { ofs := 0x100, count := 18, stride := 32, ro := 0xFFFFFFFF, keep := 0xFFFFFFFF },
    { ofs := 0x104, count := 18, stride := 32, ro := 0xFFFF, keep := 0xFFFF },
    { ofs := 0x108, count := 18, stride := 32, ro := 0xFFFFFFFF, keep := 0xFFFFFFFF },
    { ofs := 0x10C, count := 18, stride := 32, ro := 0xFFFFFFFF, keep := 0xFFFFFFFF },
    { ofs := 0x110, count := 18, stride := 32, ro := 0xFFFFFFFF, keep := 0xFFFFFFFF },
    { ofs := 0x114, count := 18, stride := 32, ro := 0xFFFFFFFF, keep := 0xFFFFFFFF },
    { ofs := 0x118, count := 18, stride := 32, ro := 0xFFFFFFFF, keep := 0xFFFFFFFF } ]

/-- The rows of a page beside the header. -/
def pageRows : PageKind → List RegRow
  | .dev => devRows
  | .aon => aonRows
  | .swd => swdRows
  | .fuse => fuseRows
  | .cc => ccRows
  | .wdt => wdtRows
  | .err => errRows
  | .trc => trcRows
  | .dbg => dbgRows
  | .pwm => pwmRows
  | .elg => elgRows
  | .tick => tickRows
  | .kmap => kmapRows
  | .tbl => tblRows
  | .lrn => lrnRows
  | .lst => lstRows
  | .ing => ingRows
  | .pci => pciRows
  | .eth => ethRows
  | .vxl => vxlRows
  | .hbm => hbmRows
  | .dma => dmaRows
  | .tile => tileRows
  | .ary => aryRows
  | .drn => drnRows

end Sys2Proof.Machine
end

