-- ==== Sys2Proof/Machine/Bits.lean ====
section
/-!
DEFINITION. Bit fields, little-endian bytes, clamps and other small helpers on words and numbers.
-/
namespace Sys2Proof.Machine

/-- Field `[hi:lo]` of a word as a number (R9). -/
def fld {w : Nat} (v : BitVec w) (hi lo : Nat) : Nat := v.toNat / 2 ^ lo % 2 ^ (hi + 1 - lo)

/-- Bit `i` of a word (R9). -/
def bit {w : Nat} (v : BitVec w) (i : Nat) : Bool := v.getLsbD i

/-- The word with field `[hi:lo]` replaced. -/
def setFld (v : BitVec 32) (hi lo x : Nat) : BitVec 32 :=
  let m := 2 ^ (hi + 1 - lo)
  BitVec.ofNat 32 (v.toNat - fld v hi lo * 2 ^ lo + x % m * 2 ^ lo)

/-- The word with bit `i` set to `b`. -/
def setBit (v : BitVec 32) (i : Nat) (b : Bool) : BitVec 32 := setFld v i i (if b then 1 else 0)

/-- A flag as the number 0 or 1. -/
def b2n (b : Bool) : Nat := if b then 1 else 0

/-- Two's-complement reading of the low `n` bits of a number. -/
def sInt (n x : Nat) : Int := if x % 2 ^ n < 2 ^ (n - 1) then (x % 2 ^ n : Nat) else (x % 2 ^ n : Nat) - (2 ^ n : Nat)

/-- The low `n` bits of an integer, as a number. -/
def wrapN (n : Nat) (x : Int) : Nat := (x % (2 ^ n : Nat)).toNat

/-- Clamp to a range. -/
def clampI (lo hi x : Int) : Int := if x < lo then lo else if hi < x then hi else x

/-- A counter of `n` bits that stops at all ones. -/
def satAdd (n x d : Nat) : Nat := min (2 ^ n - 1) (x + d)

/-- The `n` bytes of a number, least significant first (R92). -/
def bytesLE : Nat → Nat → List (BitVec 8)
  | 0, _ => []
  | n + 1, v => BitVec.ofNat 8 v :: bytesLE n (v / 256)

/-- The number that a list of bytes holds, least significant first (R92). -/
def natLE : List (BitVec 8) → Nat
  | [] => 0
  | b :: r => b.toNat + 256 * natLE r

/-- Ceiling of a quotient. -/
def cdiv (a b : Nat) : Nat := (a + b - 1) / b

/-- Base-2 logarithm, rounded down, by fuel. -/
def log2F : Nat → Nat → Nat
  | 0, _ => 0
  | f + 1, x => if x < 2 then 0 else log2F f (x / 2) + 1

/-- The element of a list at an index, or a default. -/
def nth {α : Type} (d : α) (l : List α) (i : Nat) : α := l.getD i d

/-- The list with the element at an index changed. -/
def modNth {α : Type} (f : α → α) : List α → Nat → List α
  | [], _ => []
  | x :: r, 0 => f x :: r
  | x :: r, i + 1 => x :: modNth f r i

/-- Apply a step for each of `0 .. n - 1` in turn. -/
def forN {α : Type} (n : Nat) (f : Nat → α → α) (a : α) : α := (List.range n).foldl (fun x i => f i x) a

/-- Time is counted in sixths of a nanosecond, so that one MCLK cycle (R11) is five units and one nanosecond is six. -/
abbrev cyc (n : Nat) : Nat := 5 * n
/-- Nanoseconds in time units. -/
abbrev ns (n : Nat) : Nat := 6 * n
/-- Microseconds in time units. -/
abbrev us (n : Nat) : Nat := 6000 * n
/-- Milliseconds in time units. -/
abbrev ms (n : Nat) : Nat := 6000000 * n

end Sys2Proof.Machine
end

