-- ==== Sys2Proof/Machine/Store.lean ====
section
/-!
DEFINITION. The two stores of the machine, both sparse lists in one canonical form: addresses strictly rising, and no
entry equal to what an unlisted address reads as. Memory holds bytes; the register file holds 32-bit words.
-/
namespace Sys2Proof.Machine

/-- What a key holds, with a default for a key that is not listed. -/
def getKey {α : Type} (d : α) : List (Nat × α) → Nat → α
  | [], _ => d
  | (k, v) :: r, a => if a = k then v else getKey d r a

/-- Insert or replace a key, keeping the keys rising. -/
def insKey {α : Type} (a : Nat) (x : α) : List (Nat × α) → List (Nat × α)
  | [] => [(a, x)]
  | (k, v) :: r => if a < k then (a, x) :: (k, v) :: r else if a = k then (a, x) :: r else (k, v) :: insKey a x r

/-- Remove a key. -/
def delKey {α : Type} (a : Nat) : List (Nat × α) → List (Nat × α)
  | [] => []
  | (k, v) :: r => if a = k then delKey a r else (k, v) :: delKey a r

/-- Write a key in canonical form: a key that would hold its default is not listed. -/
def putKey {α : Type} [DecidableEq α] (d : α) (a : Nat) (x : α) (l : List (Nat × α)) : List (Nat × α) :=
  if x = d then delKey a l else insKey a x l

/-- The keys rise strictly. -/
def rising {α : Type} : List (Nat × α) → Bool
  | [] => true
  | [_] => true
  | (k, _) :: (k', v') :: r => k < k' && rising ((k', v') :: r)

/-- The bytes of the device's memories, keyed by address (R84). -/
abbrev Memory := List Host.Cell

/-- What a byte that nothing has written reads as (log entry 4). -/
def Memory.unwritten : BitVec 8 := 0

/-- The canonical form of memory. -/
def Memory.wf (m : Memory) : Bool := rising m && m.all (fun c => c.2 != Memory.unwritten)

/-- One byte. -/
def Memory.byte (m : Memory) (a : Nat) : BitVec 8 := getKey Memory.unwritten m a

/-- Write one byte. -/
def Memory.put (m : Memory) (a : Nat) (b : BitVec 8) : Memory := putKey Memory.unwritten a b m

/-- The `n` bytes from an address. -/
def Memory.bytes (m : Memory) (a : Nat) : Nat → List (BitVec 8)
  | 0 => []
  | n + 1 => m.byte a :: Memory.bytes m (a + 1) n

/-- Write bytes from an address on. -/
def Memory.putBytes (m : Memory) (a : Nat) : List (BitVec 8) → Memory
  | [] => m
  | b :: r => (m.put a b).putBytes (a + 1) r

/-- The `n`-byte little-endian value at an address (R92). -/
def Memory.read (m : Memory) (a n : Nat) : Nat := natLE (m.bytes a n)

/-- Write the low `n` bytes of a value at an address (R92). -/
def Memory.write (m : Memory) (a n v : Nat) : Memory := m.putBytes a (bytesLE n v)

/-- Zero-fill `n` bytes from an address on. -/
def Memory.zero (m : Memory) (a n : Nat) : Memory := m.filter (fun c => c.1 < a || a + n ≤ c.1)

end Sys2Proof.Machine
end

