-- ==== Sys2Proof/Machine/State.lean ====
section
/-!
DEFINITION. The state of the device: every register, memory, queue, counter, mode and pin the spec gives it, as plain
data, the queue of waiting commands, and the state after reset.

Registers that software reads and writes stand in one register file (`Chip.regs`), keyed by their offset in the register
window; the structures below hold what the spec gives the units beside their registers.
-/
namespace Sys2Proof.Machine

/-- Why a step ends in a fault. -/
inductive Fault where
  /-- Nothing raises it: every command ends in a next state. It keeps the type inhabited. Safe. -/
  | unreachable
  deriving DecidableEq, Repr

/-- Why the device has no meaning for a command. -/
inductive Refusal where
  /-- An arm of the dispatch whose command has no meaning yet, by the table's mnemonic. Safe: nothing is claimed. -/
  | notModelled (mnemonic : String)
  deriving DecidableEq, Repr

/-- The fuse block of the part (R1 to R6, R880): no command changes it. -/
structure Fuses where
  /-- DEV.IDENT.PART (R3): 0x0780, 0x0781 or 0x0740. -/
  part : BitVec 16 := 0x0780
  /-- DEV.IDENT.STEP and PVER.REV (R3, R103): 0xA0 or 0xB0. -/
  rev : BitVec 8 := 0xB0
  /-- PVER.BLSUP (R104). -/
  blsup : BitVec 16 := 2
  /-- DEV.FEAT.SPSIZE (R4): 1, 2 or 3 for 2, 4 or 8 MiB. -/
  spsize : BitVec 2 := 2
  /-- FUSE.UDIS0 and UDIS1 (R1001). -/
  udis0 : BitVec 31 := 0
  udis1 : BitVec 22 := 0
  /-- VXL0.UID (R797). -/
  uid : BitVec 64 := 0
  /-- DBG.DSTAT.DMODE (R951): 0 OPEN, 1 TOKEN, 2 CLOSED. -/
  dmode : BitVec 2 := 0
  /-- WDT.WFUSE and SWD.SFUSE fields (R938) and the power-on value of SWD.SCFG.EN (R937). -/
  wwin : BitVec 2 := 0
  whard : BitVec 6 := 0
  swin : BitVec 2 := 0
  spw : BitVec 2 := 0
  scfgEn : Bool := false
  /-- FUSE.MINSVN (R899). -/
  minSvn : Nat := 0
  deriving DecidableEq, Repr

/-- A message, write or packet that has left the device: the model's record of what the outside sees. -/
inductive Output where
  /-- An MSI-X vector of a PCIe function: 0 the PF, n VF n (R808, R986 to R988). -/
  | msix (fn vec : Nat)
  /-- A posted write into host memory by a PCIe function. -/
  | hostWrite (fn addr : Nat) (bytes : List (BitVec 8))
  /-- A trigger packet on the uplink of a camera group (R727, R729): group, time, and its delay field. -/
  | trigger (group at_ delay : Nat)
  /-- A control command of the mailbox or a heartbeat on a CoaXPress link (R711, R734). -/
  | cxp (link kind : Nat) (bytes : List (BitVec 8))
  /-- A Vaxlin frame of a port: control kind, sequence number and message (R753 to R759, R765). -/
  | vxl (port kind seq : Nat) (bytes : List (BitVec 8))
  /-- A UDP datagram of an Ethernet queue: port, queue, payload (R824). -/
  | datagram (port queue : Nat) (bytes : List (BitVec 8))
  /-- A message of the customer port (R337): type, tag, code and data. -/
  | cust (mt tag code : Nat) (bytes : List (BitVec 8))
  /-- A response to an SMBus transaction: acknowledged, and the data read (R1050). -/
  | smbus (ack : Bool) (data : BitVec 32)
  /-- Bits that the TAP shifts out on JTAG_TDO, by the instruction that selected their register (R947 to R950). -/
  | tdo (ir width val : Nat)
  /-- A PCIe completion: Completer Abort, and the data read (R136). -/
  | pcie (abort : Bool) (data : List (BitVec 8))
  /-- The value that a register read returns to its requester, by the register's offset in the window (R101). -/
  | read (who : Who) (key : Nat) (val : BitVec 32)
  /-- A slot image that the boot ROM writes into the boot flash: 1 slot A, 2 slot B (R997). -/
  | flash (slot : Nat) (bytes : List (BitVec 8))
  deriving DecidableEq, Repr

/-- An ECC mark of a protected unit of memory: a 16-byte chunk of scratchpad or line store, a 32-byte HBM burst, an
8-byte word of the other memories, an AAM or DPM word. An unmarked unit holds good check bits. -/
inductive EccMark where
  /-- Holds an error its code corrects. -/
  | ce
  /-- Holds an error its code detects and cannot correct; not yet met. -/
  | ue
  /-- Poisoned: an uncorrectable error was met (R204, R265). -/
  | poison
  /-- Holds an HBM error the on-die ECC corrects (R263). -/
  | odc
  deriving DecidableEq, Repr

/-- A requester as an access carries it: its path code and its kennel (R126). -/
structure Req where
  path : Nat
  ken : Nat
  deriving DecidableEq, Repr

/-- Who accesses a memory (R145, R189): a core (16 the control core), an array slice, a drain unit, a job of an engine
with its kennel and the core that issued it (17 for none), a line move, the learning engine, or an external path. -/
inductive Agent where
  | core (k : Nat)
  | ary (t : Nat)
  | drn (t : Nat)
  | job (e ken by_ : Nat)
  | lmov (e m ken : Nat)
  | lrn
  | ext (w : Who)
  deriving DecidableEq, Repr

/-- What the bus holds of each page beside its header registers (R99, R100, R107, R114). -/
structure Bus where
  /-- Slots whose unlock sequence has had its first word, and the requester that wrote it (R114). -/
  unlk : List (Nat × Who) := []
  /-- 64-bit read captures: page slot, requester, offset of the _HI word and the captured upper half (R99). -/
  cap : List (Nat × Who × Nat × BitVec 32) := []
  /-- Held _LO halves: page slot, requester, offset of the _HI word and the held lower half (R100). -/
  held : List (Nat × Who × Nat × BitVec 32) := []
  /-- Slots whose soft reset is in progress (R107). -/
  srst : List Nat := []
  /-- Slots that are asked to freeze and have not yet stopped (R108). -/
  frzing : List Nat := []
  /-- Slots whose FRZ = 0 write waits for BUSY to clear (R171). -/
  unfrz : List Nat := []
  /-- Codes raised at most once per frame tick that were raised in this tick: code and instance. -/
  once : List (Nat × Nat) := []
  deriving DecidableEq, Repr

/-- An open entry of the ERR merge stage, or an entry of its log (R982, R985). -/
structure ErrEntry where
  code : Nat
  slot : Nat
  ken : Nat
  path : Nat
  count : Nat
  at_ : Nat
  gtime : Nat
  addr : Nat
  fnum : Nat
  deriving DecidableEq, Repr

/-- The error aggregator beside its registers: the merge stage of 16 entries and the log of 64 (R982, R984). -/
structure ErrUnit where
  open_ : List ErrEntry := []
  log : List ErrEntry := []
  deriving DecidableEq, Repr

/-- One 16-byte entry of the AON event ring (R966). -/
structure EvEntry where
  gtime : Nat
  code : Nat
  slot : Nat
  ken : Nat
  path : Nat
  ptick : Nat
  deriving DecidableEq, Repr

/-- The AON event ring: 256 entries, its holding queue of 16 and the captured entry of EVD0 (R966, R970). -/
structure EvRing where
  ring : List (Nat × EvEntry) := []
  queue : List EvEntry := []
  deriving DecidableEq, Repr

/-- A 16-byte trace packet (R962): type, unit, kennel, the fields A and B, and the time stamp. -/
structure Packet where
  typ : Nat
  unit : Nat
  ken : Nat
  a : Nat
  b : Nat
  ts : Nat
  deriving DecidableEq, Repr

/-- A trace unit beside its registers (R961, R963). -/
structure TraceUnit where
  fifo : List Packet := []
  /-- Packets lost since the last written packet. -/
  lost : Nat := 0
  /-- When the unit queued its last SYNC. -/
  syncAt : Nat := 0
  /-- GTIME of the SLEEP packet while the unit is gated (R965). -/
  sleepG : Option Nat := none
  /-- MODE = 0 was written: the unit stops after its FIFO has drained (R967). -/
  closing : Bool := false
  deriving DecidableEq, Repr

/-- The TAP, the debug access port and the debug right beside their registers (R947 to R953). -/
structure Debug where
  /-- The TAP's instruction register; IDCODE after Test-Logic-Reset. -/
  ir : BitVec 8 := 0x02
  /-- DAPACC's DATA field as the next Capture-DR shifts it out. -/
  dapData : BitVec 32 := 0
  /-- DBG.NONCE reads a fresh free value after each reset and each attempt (R953). -/
  nonce : BitVec 64 := 0
  /-- The words of TOKBUF that have been written (R952). -/
  token : List (Nat × BitVec 32) := []
  /-- A DAP access to another device is busy (R949). -/
  dapBusy : Bool := false
  /-- A verification is in progress. -/
  verifying : Bool := false
  /-- Cores asked to halt, and the HCAUSE bits that are due. -/
  haltReq : List (Nat × Nat) := []
  /-- Cores that issue one bundle and halt again; of these, the cores to be resumed once they have (R972). -/
  stepping : List Nat := []
  resumeDue : List Nat := []
  /-- Kennels frozen by a debug halt under DCTL.FRZK (R959). -/
  frzk : List Nat := []
  deriving DecidableEq, Repr

/-- What the tick unit and the egress keep of a frame (R68, R73, R76, R831): GTIME of E(n), whether it was opened under TEST,
its lost lines, and for each kennel its KST and the energy metered in tick n + 1. -/
structure FrameRec where
  n : Nat
  edge : Nat := 0
  lost : Nat := 0
  kst : List Nat := List.replicate 8 6
  enrg : List Nat := List.replicate 8 0
  deriving DecidableEq, Repr

/-- The tick unit beside its registers (R37 to R80). -/
structure TickUnit where
  /-- Levels that stand on ENC_A, ENC_B, ENC_Z (bits 0 to 2), the accepted levels, and since when each pin has held. -/
  raw : BitVec 3 := 0
  acc : BitVec 3 := 0
  since : List Nat := [0, 0, 0]
  /-- The origin and the high-water mark in 1/65,536 counts, and the index of the next pitch multiple (R42, R43). -/
  origin : Int := 0
  hwm : Int := 0
  nextIx : Nat := 1
  /-- Position at which the present reversal began; and whether 0x0108 was raised for it (R43). -/
  revPeak : Option Int := none
  revDone : Bool := false
  /-- Position at the last rising ENC_Z edge (R45). -/
  zPos : Option Int := none
  /-- Line ticks that are due, by time (R44). -/
  lineDue : List Nat := []
  /-- Time of the last line tick and of the last frame-tick edge, and whether that was a flush edge. -/
  lineAt : Option Nat := none
  edgeAt : Option Nat := none
  lastFlush : Bool := false
  /-- Moment the unit left OFF or HOLD (R72). -/
  leftAt : Nat := 0
  /-- A frame is open; a frame period has completed since the unit left OFF or HOLD (R72, R73). -/
  opened : Bool := false
  perOk : Bool := false
  /-- Edges that are pending: due time and frame (R50). -/
  pend : List (Nat × Nat) := []
  /-- Row of the last line tick, its frame, and the frame that opens next (R49, R53). -/
  row : Nat := 0
  frame : Nat := 0
  nextF : Nat := 0
  /-- Flush edges still to come, when the next one is due, the flush period in ns, the first frame of the last flush, and
  whether the flush ends in OFF (R72, R73). -/
  flushLeft : Nat := 0
  flushAt : Nat := 0
  flushPer : Nat := 50000000
  flushFrom : Option Nat := none
  toOff : Bool := false
  /-- The running tick is a flush tick. -/
  flushTick : Bool := false
  /-- When HOLD is entered after the third flush edge (R74). -/
  holdAt : Option Nat := none
  /-- The KSLOT values in force (R66) and HOLDTO, TRG, TOUT and TEST as in force (R81); when the last test line tick fell. -/
  kslot : List (BitVec 32) := List.replicate 8 0x4B000
  holdto : Nat := 50000
  trg : BitVec 32 := 0
  tout : BitVec 32 := 0xA00
  test : BitVec 32 := 5000
  testAt : Nat := 0
  /-- Kennels released in this tick; kennels whose earlier frame continues under SKIP (R67, R68). -/
  released : List Nat := []
  cont : List Nat := []
  /-- Kennels not to be released in this tick: skipped, or without an energy reservation (R68, R70). -/
  noRel : List Nat := []
  /-- The frame that each kennel computes, or computed last (R54, R221). -/
  cmp : List Int := List.replicate 8 (-1)
  /-- The TICK_OUT pulse lasts until this time (R80). -/
  pulseEnd : Option Nat := none
  /-- The head actions of this tick that have been done: sweep, reservation, release scan. -/
  swept : Bool := true
  reserved : Bool := false
  scanned : Bool := true
  /-- The frames of the last ticks, newest first, and the frames opened under TEST (R817). -/
  frames : List FrameRec := []
  testF : List Nat := []
  deriving DecidableEq, Repr
/-- A kennel's control beside KCTL and KSTAT (R155, R174, R175). -/
structure KennelSt where
  /-- A fault sequence is in progress; a KCTL.RST sequence is in progress. -/
  fltSeq : Bool := false
  rstSeq : Bool := false
  /-- The fault was captured while the ledger reserved (R874). -/
  inRes : Bool := false
  /-- The tiles the sequence affects (R154). -/
  tiles : List Nat := []
  deriving DecidableEq, Repr

/-- An active ring context (R211, R220, R229). -/
structure Ring where
  active : Bool := false
  /-- An activation of this context is in progress, with its descriptor bytes; DEACT is due when it completes (R231). -/
  activating : Option (Nat × List (BitVec 8)) := none
  deactDue : Bool := false
  tag : Bool := false
  adv : Bool := false
  esc : Bool := false
  pside : Nat := 0
  cside : Nat := 0
  nslot : Nat := 0
  pw : Nat := 1
  cw : Nat := 1
  panc : Bool := false
  canc : Bool := false
  pofs : Int := 0
  cofs : Int := 0
  base : Nat := 0
  slotsz : Nat := 0
  tout : Nat := 4096
  /-- Generations of the slots, 16 bits each (R211). -/
  gen : List Nat := List.replicate 16 0
  /-- Shadow tags of the slots (R222). -/
  shadow : List (Option Int) := List.replicate 16 none
  /-- Producer frame F and consumer frame G in full (R220), and the first frame that is armed (R223). -/
  pf : Int := 0
  gf : Int := 0
  armed : Option Int := none
  /-- Slots whose slip has been recorded, with the generation or frame it was recorded in (R217). -/
  slipped : List (Nat × Nat) := []
  /-- Requesters stalled on the ring and when each stall began, oldest first (R215, R216). -/
  stalls : List (Agent × Nat) := []
  deriving DecidableEq, Repr

/-- One entry of a tile's slip log (R217). -/
structure Slip where
  ctx : Nat
  slot : Nat
  kind : Nat
  frame : Nat
  bundle : Nat
  deriving DecidableEq, Repr

/-- The scratchpad of a tile beside its registers and its bytes. -/
structure Scratch where
  rings : List Ring := List.replicate 16 {}
  slips : List Slip := []
  /-- A zero-fill of quads is in progress (R236); the whole scratchpad is being filled (R171, R245). -/
  zfill : List Nat := []
  fillAll : Bool := false
  /-- Corrected errors in WGT quads in this tick, and whether 0x0214 was raised (R208). -/
  wgtCnt : Nat := 0
  /-- When the last scrub pass of the WGT and of the STD quads ended (R207). -/
  wScrub : Nat := 0
  sScrub : Nat := 0
  deriving DecidableEq, Repr

/-- A read that waits in an HBM read queue (R635): its pseudo-channel, address and length, and the transfer of an engine
that it is for, with the place of its data in that transfer's buffer. -/
structure HbmRead where
  pch : Nat
  addr : Nat
  len : Nat
  eng : Nat
  id : Nat
  ofs : Nat
  deriving DecidableEq, Repr

/-- An HBM controller beside its page (R635, R643): the pseudo-channel and holder group of each buffered write, and the
waiting reads; for each pool, the group last served from its shared part (R638). -/
structure HbmCtl where
  wbuf : List (Nat × Nat) := []
  rq : List HbmRead := []
  rotW : Nat := 11
  rotR : Nat := 11
  /-- Corrections in the running second of GTIME, and whether 0x0224 was raised in it (R269). -/
  ceSec : Nat := 0
  second : Nat := 0
  /-- The stack was at or above TWARN; it was at or above 105 degrees and not yet below 100 (R271). -/
  warm : Bool := false
  hot : Bool := false
  deriving DecidableEq, Repr

/-- A Vaxlin message (R765): the fields of its header flit, and its data. -/
structure Msg where
  mt : Nat
  dst : Nat
  src : Nat
  ken : Nat
  tag : Nat
  addr : Nat := 0
  len : Nat := 0
  code : Nat := 0
  rlen : Nat := 0
  /-- Eight 2-bit ports. -/
  route : Nat := 0
  hops : Nat := 0
  data : List (BitVec 8) := []
  deriving DecidableEq, Repr

/-- Who waits for the response of a message this device has sent (R793, R794). -/
inductive Waiter where
  /-- A load or a posted store of a core, or an element of a string issue. -/
  | core (k : Nat)
  /-- An operation of a DMA job, or of a line move: engine and number. -/
  | job (e id : Nat)
  /-- An external path, whose request was a read or a write. -/
  | ext (w : Who)
  deriving DecidableEq, Repr

/-- A message sent that waits for its response: its tag, the port it left by, and when (R793). -/
structure Sent where
  tag : Nat
  msg : Msg
  wait : Waiter
  port : Nat
  at_ : Nat
  deriving DecidableEq, Repr

/-- A message queued on a port: its kennel and the flits still to be sent; begun once its first flit has been sent. -/
structure TxMsg where
  vc : Nat
  ken : Nat
  flits : List (List (BitVec 8))
  /-- It is a record for the manager (R763). -/
  rec_ : Bool := false
  begun : Bool := false
  /-- The port it arrived on, whose buffers it still fills (R763). -/
  from_ : Option Nat := none
  deriving DecidableEq, Repr

/-- A Vaxlin port beside its page (R753 to R763, R783). -/
structure VxlPort where
  /-- Next SEQ to give, and the SEQ expected (R754). -/
  txSeq : Nat := 0
  rxSeq : Nat := 0
  /-- Frames sent and not yet acknowledged: SEQ, virtual channel, whether it ends a message, and flit (R755). -/
  replay : List (Nat × Nat × Bool × List (BitVec 8)) := []
  /-- Time of the last ACK progress or resend; resends of the oldest SEQ without progress (R756, R757). -/
  ackAt : Nat := 0
  resends : Nat := 0
  nakSent : Bool := false
  /-- Consecutive uncorrectable blocks (R757). -/
  badRun : Nat := 0
  txq : List TxMsg := []
  /-- Channel 0 or 2 was sent last (R764); kennel of the record forwarded last (R763). -/
  turn : Nat := 0
  lastRec : Nat := 0
  /-- Credits taken and not yet returned, oldest first: channel and kennel (R650, R763). -/
  held : List (Nat × Nat) := []
  /-- Credits to return to the peer by channel (R763). -/
  owed : List Nat := [0, 0, 0, 0]
  /-- Flits of a message that has not wholly arrived, by channel; messages that wait to be performed (R766). -/
  rx : List (List (List (BitVec 8))) := [[], [], [], []]
  inbox : List (Nat × Msg) := []
  /-- PINGs sent since UP, the next is due (R783); half round trips of the last ECHOs in ps, newest first. -/
  pings : Nat := 0
  pingAt : Nat := 0
  echoes : List Nat := []
  echoCnt : Nat := 0
  /-- Start of the retrain or of the LOST hold (R757, R760). -/
  since : Nat := 0
  deriving DecidableEq, Repr

/-- A heel token (R773). -/
structure Token where
  kind : Nat
  boundary : Bool
  test : Bool
  dir : Bool
  hops : Nat
  mgrid : Nat
  mepo : Nat
  tseq : Nat
  fnum : Nat
  gtime : Nat
  /-- POS as its 48 bits. -/
  pos : Nat
  row : Nat
  state : Nat
  age : Nat
  fdly : Nat
  fper : Nat
  deriving DecidableEq, Repr

/-- The cascade beside the VXL0 page (R768 to R791). -/
structure Cascade where
  /-- Messages that wait for a response, and the next TAG. -/
  sent : List Sent := []
  tag : Nat := 0
  /-- TSEQ of the next token sent, and when the last was sent (R773). -/
  txTseq : Nat := 0
  tokAt : Nat := 0
  /-- Manager, epoch and TSEQ of the last accepted token (R774, R785), when it was accepted, and its FNUM and position. -/
  last : Option (Nat × Nat × Nat) := none
  rxAt : Nat := 0
  lastFnum : Nat := 0
  lastPos : Int := 0
  /-- The standby's own position at that token (R778), and the decoded position recorded at the last line tick (R787). -/
  sposAt : Int := 0
  /-- Accepted tokens and the cascade times at which they act, in order (R776). -/
  due : List (Nat × Token) := []
  /-- Highest epoch seen (R785). -/
  epoch : Option Nat := none
  /-- LISTEN ends at this time (R784). -/
  listen : Option Nat := none
  /-- Cascade time of the last LINE token (R778); a lost token may have carried BOUNDARY: the frame opened last (R782). -/
  lineAt : Option Nat := none
  lastB : Option Nat := none
  gap : Bool := false
  deriving DecidableEq, Repr

/-- What a core does: CSTAT.STATE (R355). -/
inductive CoreRun where
  | stopped | run | waitt | stalled | halted | frozen | filling
  deriving DecidableEq, Repr

/-- Where a load delivers its value. -/
inductive LoadDest where
  | d (r : Nat) | a (r : Nat)
  | v (r : Nat) (mask : BitVec 384)
  /-- The source bytes of one issue of a string syllable (R403, R406). -/
  | str
  deriving DecidableEq, Repr

/-- An outstanding load (R308, R306): its destination, the bundles still to pass before it delivers, its value once it is
known, and, for a variable-latency path, the access that is still under way. -/
structure Load where
  dest : LoadDest
  age : Nat
  val : Option Nat
  addr : Nat
  size : Nat
  sext : Bool
  bundle : Nat
  /-- Last beat of a vector load, in MCLK cycles (R432). -/
  beat : Nat := 0
  /-- TAG of the remote message that reads it (R765). -/
  tag : Option Nat := none
  /-- Its place among the core's accesses on variable-latency paths, in the order issued (R101). -/
  seq : Nat := 0
  deriving DecidableEq, Repr

/-- A posted store on a variable-latency path (R306). -/
structure Posted where
  addr : Nat
  bytes : List (BitVec 8)
  bundle : Nat
  /-- TAG of the remote message that writes it (R765). -/
  tag : Option Nat := none
  /-- Its place among the core's accesses on variable-latency paths, in the order issued (R101). -/
  seq : Nat := 0
  deriving DecidableEq, Repr

/-- A refusal that has reached a core and is not yet taken (R322). -/
structure BusErr where
  code : Nat
  addr : Nat
  bundle : Nat
  deriving DecidableEq, Repr

/-- A command of an attached unit as an N-slot syllable carries it, with its operand values read (R332). -/
inductive Attach where
  | acfg (reg : Nat) (val : BitVec 24)
  | awld (addr : Nat)
  | astr (addr dn dr : Nat) (acc swp ntf : Bool)
  | aswp
  | afree
  /-- With the live profile captured at issue, and the number of array commands issued before it (R551, R564). -/
  | djob (prof addr dr dn : Nat) (ntf wa : Bool) (words : List (BitVec 32)) (aseq : Nat)
  | dmaj (eng addr : Nat) (rec_ : List (BitVec 8))
  | tdnew (idx addr : Nat) (img : List (BitVec 8))
  | tdinv (idx : Nat) (all : Bool)
  | otinv (idx n : Nat) (all : Bool)
  | lsmp (addr out : Nat) (ntf : Bool) (ctx : Nat)
  | lrew (addr : Nat) (ntf : Bool) (ctx : Nat)
  | cxcmd (fn da db : Nat) (ntf rcf : Bool) (ctx addr : Nat) (arg : List (BitVec 8))
  | cxfence (rcf : Bool) (ctx : Nat)
  deriving DecidableEq, Repr

/-- An effect of a syllable, held until its bundle completes (R302). -/
inductive Eff where
  | wd (r : Nat) (v : BitVec 24)
  | wa (r : Nat) (v : BitVec 48)
  | wx (r : Nat) (v : BitVec 72)
  | wp (r : Nat) (v : Bool)
  /-- N, Z, C, V (bits 0 to 3). -/
  | flags (v : BitVec 4)
  | sat
  /-- A vector register's new value in the bytes of a mask. -/
  | wv (r : Nat) (mask : BitVec 384) (v : BitVec 3072)
  | wm (r : Nat) (mask v : BitVec 384)
  | wva (r : Nat) (mask : BitVec 768) (v : BitVec 6144)
  /-- A read of a V (0), M (1) or VA (2) register whose parity is checked at the bundle's end (R468). -/
  | par (cls r : Nat)
  | load (dest : LoadDest) (addr size : Nat) (sext : Bool)
  | store (addr : Nat) (bytes : List (BitVec 8))
  | vload (r g : Nat) (mask : BitVec 384) (addr : Nat)
  | vstore (r g : Nat) (mask : BitVec 384) (addr : Nat)
  | branch (target : BitVec 48)
  | repb (lvl : Bool) (lenm1 : Nat) (count : Nat)
  /-- CYC into an address register (R346). -/
  | cyc (r : Nat)
  | strop (op : Nat) (src : Nat) (val : Nat)
  | mtc (n : Nat) (v : BitVec 48)
  | mtcc (v : BitVec 48)
  | eret | nret | waitt | msync
  | trap (code : BitVec 16)
  | ring (free : Bool) (ctx : Nat)
  | attach (a : Attach)
  deriving DecidableEq, Repr

/-- One syllable of the bundle being issued (R299 to R302): its slot, whether it executes, and what it asks for. -/
structure SylRec where
  slot : Nat
  ran : Bool
  /-- It is a branch syllable or a REPB (R311, R314, R400, R420). -/
  branch : Bool := false
  /-- It must be the only executing syllable of its bundle (R317, R419). -/
  alone : Bool := false
  /-- The exception it raises and its address where there is one: an encoding fault, a privilege fault or an access outside
  the core's reach (R319, R364, R389, R421). -/
  exc : Option (Nat × Option (BitVec 48)) := none
  /-- It breaks a rule of the repeat levels (R314, R354, R399). -/
  rep : Bool := false
  effs : List Eff := []
  /-- Beats of a V-slot syllable, and whether they use the vector port (R429, R436). -/
  beats : Nat := 0
  vmem : Bool := false
  /-- Registers it reads or writes, and those that its beats write, by class and number (R431). -/
  touch : List (Nat × Nat) := []
  late : List (Nat × Nat) := []
  deriving DecidableEq, Repr

/-- A Talig core: the register classes of R296, the control registers of R353, and its issue state. -/
structure Core where
  run : CoreRun := .stopped
  d : List (BitVec 24) := List.replicate 32 0
  a : List (BitVec 48) := List.replicate 16 0
  x : List (BitVec 72) := List.replicate 8 0
  /-- P0 to P7; bit 0 reads 1. -/
  p : BitVec 8 := 1
  v : List (BitVec 3072) := List.replicate 32 0
  m : List (BitVec 384) := List.replicate 8 0
  va : List (BitVec 6144) := List.replicate 4 0
  fl : BitVec 5 := 0
  ie : Bool := false
  priv : Bool := true
  exl : Bool := false
  nxl : Bool := false
  epc : BitVec 48 := 0
  estat : BitVec 16 := 0
  ecause : BitVec 20 := 0
  eaddr : BitVec 48 := 0
  ebt : BitVec 48 := 0
  ebnd : BitVec 48 := 0
  ivb : BitVec 48 := 0
  ien : BitVec 16 := 0
  nepc : BitVec 48 := 0
  nestat : BitVec 16 := 0
  lc : List (BitVec 24) := [0, 0]
  ls : List (BitVec 48) := [0, 0]
  le : List (BitVec 48) := [0, 0]
  repst : BitVec 2 := 0
  scnt : BitVec 24 := 0
  sdir : BitVec 3 := 0
  /-- Time of the last tick release; CYC counts from it (R346). -/
  relAt : Nat := 0
  fnum : BitVec 24 := 0
  sscr : List (BitVec 48) := [0, 0, 0, 0]
  /-- Address of the next bundle, and the branch target that waits for the delay bundle (R310). -/
  pc : BitVec 48 := 0
  target : Option (BitVec 48) := none
  /-- Bundle address of the branch whose target waits (R397), and whether the last bundle was a taken-branch bundle. -/
  brPc : BitVec 48 := 0
  takenBr : Bool := false
  /-- The end bundle of an active level has completed and the loop-back is still to be decided (R313). -/
  loopDue : Bool := false
  /-- Source bytes of a string issue that have returned (R406): address and bytes. -/
  strData : List (Nat × List (BitVec 8)) := []
  bundle : List SylRec := []
  /-- A completed bundle waits: a tagged ring, a full queue (R294). -/
  held : Bool := false
  /-- A string bundle has begun (R957). -/
  inString : Bool := false
  loads : List Load := []
  posted : List Posted := []
  /-- Place of the next access on a variable-latency path. -/
  accSeq : Nat := 0
  busErrs : List BusErr := []
  relPend : Bool := false
  nmi : Bool := false
  /-- A stop is asked for and takes effect when the outstanding loads have written their destinations (R349). -/
  stopReq : Bool := false
  /-- What the core did before it was frozen or halted. -/
  before : CoreRun := .run
  cfgErr : Bool := false
  /-- The breakpoint at the next bundle has been met and the core resumed from it (R957). -/
  bpPast : Bool := false
  /-- Parts of V, M and VA registers with bad parity: class, register, part (R468). -/
  badPar : List (Nat × Nat × Nat) := []
  /-- Cycle of the last issue, earliest cycle of the next, last beat of the datapath and of the vector port, and until
  when a destination is waited for: class, register, cycle (R429 to R437), in MCLK cycles. -/
  issued : Nat := 0
  ready : Nat := 0
  vBeat : Nat := 0
  vPort : Nat := 0
  waits : List (Nat × Nat × Nat) := []
  /-- Start of the idle timer and end of a wake in progress (R441, R443). -/
  idleAt : Nat := 0
  wakeEnd : Option Nat := none
  /-- Bundles held in the program store, by index: 24 bytes each, and the fill in progress (R347, R348). -/
  fillAt : Option Nat := none
  deriving DecidableEq, Repr

/-- The control core after core reset: its vector base is the boot ROM (R296, R361). -/
def Core.cc : Core := { ivb := 0x80000000, pc := 0x80000000 }

/-- A command of the array slice that waits: the command, its bundle, its issue cycle and its number (R523, R531). -/
structure AryCmd where
  cmd : Attach
  bundle : Nat
  at_ : Nat
  seq : Nat
  deriving DecidableEq, Repr

/-- A weight register that holds an image: the format it was loaded with, the image, and the columns whose parity is bad
(R511, R543). -/
structure WReg where
  fmt : Nat
  img : List (BitVec 8)
  bad : List Nat := []
  deriving DecidableEq, Repr

/-- A weight load in progress: its begin cycle and the lines it has read (R525). -/
structure ALoad where
  addr : Nat
  fmt : Nat
  beg : Nat
  data : List (BitVec 8) := []
  seq : Nat
  bundle : Nat
  deriving DecidableEq, Repr

/-- A stream in progress (R524 to R527): what it was given, its begin cycle, the lines of its run, the lines read, and the
positions whose rows are updated. -/
structure ARun where
  addr : Nat
  npos : Nat
  b0 : Nat
  row : Nat
  acc : Bool
  ntf : Bool
  ctx : Nat
  af : Nat
  zw : Int
  za : Int
  w : WReg
  /-- 0 I32, 1 BF, 2 F32 (R512). -/
  kind : Nat
  cls : Nat
  closing : Bool
  beg : Nat
  lines : List Nat
  data : List (List (BitVec 8)) := []
  pos : Nat := 0
  seq : Nat
  bundle : Nat
  deriving DecidableEq, Repr

/-- An array slice beside its page (R509 to R547). -/
structure ArySt where
  queue : List AryCmd := []
  /-- Commands issued so far. -/
  seq : Nat := 0
  shadow : Option WReg := none
  active : Option WReg := none
  loading : Option ALoad := none
  runs : List ARun := []
  /-- Class of the last stream, end of the last port use, completion of the last stream and of the last command (R523). -/
  cls : Option Nat := none
  portEnd : Nat := 0
  streamDone : Nat := 0
  lastDone : Nat := 0
  /-- The accumulator memory's bytes by offset, and its marked words (R512, R542). -/
  aam : Memory := []
  aamEcc : List (Nat × EccMark) := []
  /-- The zero-fill of the accumulator and drain parameter memories ends in this cycle (R547, R581). -/
  fillUntil : Nat := 0
  deriving DecidableEq, Repr

/-- A drain job that waits: the job, its bundle and its issue cycle (R564). -/
structure DrnCmd where
  cmd : Attach
  bundle : Nat
  at_ : Nat
  deriving DecidableEq, Repr

/-- A piece of a drain job: the bytes it writes, by address, the rows it holds, and whether it holds exponents
(R565). -/
structure Piece where
  bytes : List (Nat × BitVec 8)
  rows : List Nat
  exps : Bool
  deriving DecidableEq, Repr

/-- A drain job in progress (R566): its captured profile, the cycles in which its rows were read, and its pieces not yet
written, in order. -/
structure DrnJob where
  prof : Nat
  addr : Nat
  row : Nat
  nrow : Nat
  ntf : Bool
  words : List (BitVec 32)
  beg : Nat
  bundle : Nat
  reads : List Nat := []
  pieces : List Piece := []
  /-- The exponent bytes of the group being collected, and the group (R565). -/
  expo : List (Nat × BitVec 8) := []
  group : Option Int := none
  /-- Cycle of the last write that holds element data of a row (R566). -/
  lastw : List (Nat × Nat) := []
  deriving DecidableEq, Repr

/-- A drain unit beside its page (R549 to R582). -/
structure DrnSt where
  queue : List DrnCmd := []
  jobs : List DrnJob := []
  /-- Cycle of the last row read of the previous job, and of the last piece written (R564, R566). -/
  lastRead : Nat := 0
  wprev : Nat := 0
  /-- The drain parameter memory: words that are not 0, and marked words (R552, R577). -/
  dpm : List (Nat × BitVec 32) := []
  dpmEcc : List (Nat × EccMark) := []
  /-- Counts of the running tick by profile: saturations, underuse, and the largest magnitudes as FP32 bits (R557, R560). -/
  sat : List Nat := List.replicate 8 0
  und : List Nat := List.replicate 8 0
  maxp : List Nat := List.replicate 8 0
  maxn : List Nat := List.replicate 8 0
  deriving DecidableEq, Repr

/-- A job record or table syllable in the queue of a requester (R615, R619). -/
structure Queued where
  ent : Attach
  bundle : Nat
  /-- TDNEW, TDINV or OTINV is at the head and under way since this time. -/
  began : Option Nat := none
  deriving DecidableEq, Repr

/-- One burst of a transfer: a read into its buffer, a write from it, or a rearrangement of the buffer (R606, R607). -/
inductive DmaOp where
  | rd (a n ofs : Nat)
  | wr (a n ofs : Nat)
  | turn (fmt : Nat) (sum : Bool)
  deriving DecidableEq, Repr

/-- What a running job or line move is doing (R602, R649, R652). -/
structure Xfer where
  id : Nat := 0
  /-- Next unit of work, and the bursts of the present unit still to be issued. -/
  unit : Nat := 0
  ops : List DmaOp := []
  /-- The first of them has been placed and has not completed: in a read queue, at a DMA port, or on a link. -/
  busy : Bool := false
  /-- The tile at whose DMA port it waits (R640). -/
  port : Option Nat := none
  buf : Memory := []
  /-- Read-buffer bytes reserved (R639). -/
  resv : Nat := 0
  /-- Since when it waits for a credit, and until when it may (R652, R663). -/
  wait : Option (Nat × Nat) := none
  /-- Its remote message was ended: the job ends aborted (R794). -/
  abort : Bool := false
  deriving DecidableEq, Repr

/-- A job an engine has accepted (R598, R601 to R603). -/
structure Job where
  ken : Nat
  who : Nat
  bundle : Nat
  rec_ : List (BitVec 8)
  src : List (BitVec 8)
  dst : List (BitVec 8)
  /-- The kennel's rotation has given it a running slot (R648). -/
  running : Bool := false
  x : Xfer := {}
  /-- Owner entries this job has read: address and value (R598). -/
  owners : List (Nat × Nat) := []
  deriving DecidableEq, Repr

/-- A line move issued and not yet complete (R609, R612): program, view, line sequence, slot, frame, row. -/
structure LineMove where
  prog : Nat
  view : Nat
  lseq : Nat
  slot : Nat
  frame : Nat
  row : Nat
  x : Xfer := {}
  deriving DecidableEq, Repr

/-- A DMA engine beside its page (R601, R594, R609). -/
structure Engine where
  jobs : List Job := []
  moves : List LineMove := []
  /-- Number of the next transfer. -/
  next : Nat := 0
  /-- Descriptor cache: index and entry, most recently used first (R594). -/
  cache : List (Nat × List (BitVec 8)) := []
  /-- Turns taken (R649, R860). -/
  turns : Nat := 0
  /-- Rotation pointers: last kennel given a slot, last requester accepted from (R647, R648). -/
  rotSlot : Nat := 7
  rotReq : Nat := 16
  deriving DecidableEq, Repr

/-- A requester of jobs: a tile core, or the control core (R594, R615). -/
structure JobPort where
  queue : List Queued := []
  /-- Descriptor cache of the tile, and owner cache (R594). -/
  cache : List (Nat × List (BitVec 8)) := []
  owners : List (Nat × Nat) := []
  deriving DecidableEq, Repr

/-- The learning engine beside its page (R671 to R709). -/
structure LrnSt where
  /-- Commands that wait: the command, the tile that issued it and the bundle (R677). -/
  queue : List (Attach × Nat × Nat) := []
  /-- A PUT that meets a tagged ring and waits: tile, context, bundle (R694). -/
  ntf : Option (Nat × Nat × Nat) := none
  /-- An epoch end is due, and the queued commands that are performed before it (R678); EPEND has asked for one. -/
  due : Bool := false
  first : Nat := 0
  epend : Bool := false
  /-- Updates since the last scheduled commit, and a commit is due (R684). -/
  updates : Nat := 0
  commitDue : Bool := false
  /-- The state to which EXPORT returns (R697). -/
  before : Nat := 0
  /-- Logical pages that were damaged when they were loaded (R703). -/
  dirty : List Nat := []
  /-- The record in force has been selected since the core domain left reset (R708). -/
  selected : Bool := false
  deriving DecidableEq, Repr

/-- A customer command that waits or is outstanding (R335, R336, R340): its TAG once sent, and when it entered the queue. -/
structure CustCmd where
  a : Attach
  bundle : Nat
  tag : Nat
  sent : Bool
  at_ : Nat
  ken : Nat
  deriving DecidableEq, Repr

/-- A tile's side of the customer port (R336): its waiting and outstanding commands in issue order, how many it has sent, and
the ring commands of completed commands that wait on a tagged ring (R339): context, FREE, bundle. -/
structure CustSt where
  queue : List CustCmd := []
  cnt : Nat := 0
  ntf : List (Nat × Bool × Nat) := []
  deriving DecidableEq, Repr

/-- An RD or WR message that waits to be performed (R338). -/
structure CustMsg where
  tag : Nat
  addr : Nat
  len : Nat
  /-- The data of a WR; none for an RD. -/
  data : Option (List (BitVec 8))
  deriving DecidableEq, Repr

/-- A message to the chiplet that waits for flit credits (R337): type, tile, kennel, tag, address and length, code, data. -/
structure CustOut where
  mt : Nat
  tile : Nat
  ken : Nat
  tag : Nat
  addr : Nat := 0
  len : Nat := 0
  code : Nat := 0
  data : List (BitVec 8) := []
  deriving DecidableEq, Repr

/-- The customer port beside its registers (R341): credits to send, credits to return, and the messages that wait. -/
structure CustPort where
  tx : Nat := 0
  owed : Nat := 0
  inq : List CustMsg := []
  outq : List CustOut := []
  deriving DecidableEq, Repr

/-- An expected line of a camera group (R716): its number, frame, row and slot, when its line tick occurred, the fields of
its metadata, and how far it has come. -/
structure ExpLine where
  n : Nat
  frame : Nat
  row : Nat
  slot : Nat
  at_ : Nat
  tgt : Nat
  pos : Nat
  test : Bool
  tdrop : Bool := false
  /-- Its payload has begun, and has ended; its deadline has passed (R717, R720, R721). -/
  begun : Bool := false
  ended : Bool := false
  dead : Bool := false
  npix : Nat := 0
  long : Bool := false
  deriving DecidableEq, Repr

/-- An image being received (R730, R731): its buffer, and how far it has come. -/
structure ImgRx where
  base : Nat
  fnum : Nat
  fgt : Nat
  xsize : Nat
  ysize : Nat
  pix : Nat := 0
  ended : Bool := false
  part : Bool := false
  crc : Bool := false
  deriving DecidableEq, Repr

/-- A camera group beside its registers. -/
structure IngGroup where
  /-- The pairing queue, oldest first. -/
  queue : List ExpLine := []
  /-- Payload that arrives is discarded: its line is unsolicited or lost. -/
  skip : Bool := false
  img : Option ImgRx := none
  /-- Images landed since enable. -/
  seq : Nat := 0
  /-- Triggers that fall due: line and time (R727). -/
  trig : List (Nat × Nat) := []
  deriving DecidableEq, Repr

/-- Camera ingest beside its page (R710 to R746). -/
structure Ingest where
  groups : List IngGroup := List.replicate 8 {}
  /-- Per link: since when it has trained, and when its last heartbeat arrived (R733). -/
  since : List Nat := List.replicate 16 0
  hb : List (Option Nat) := List.replicate 16 none
  /-- When the host heartbeats were last sent (R711). -/
  hbAt : Nat := 0
  /-- Tag of the last mailbox command, and when it was sent (R734). -/
  tag : Nat := 0
  mbAt : Nat := 0
  deriving DecidableEq, Repr

/-- A PCIe function beside its registers (R819, R822): its doorbells, and the result-ring entries not yet signalled, with the
time of the first. -/
structure PcieFn where
  rcons : Nat := 0
  cprod : Nat := 0
  unsig : Nat := 0
  sigAt : Option Nat := none
  deriving DecidableEq, Repr

/-- An egress queue of an Ethernet port (R820, R823, R824): records held, oldest first, the next DSEQ, the records displaced
since the last datagram, and when a datagram opened outside a scan took its first record. -/
structure EthQ where
  recs : List (List (BitVec 8)) := []
  dseq : Nat := 0
  qdrop : Nat := 0
  openAt : Option Nat := none
  deriving DecidableEq, Repr

/-- An Ethernet port beside its page (R826, R827): its queues, the time stamps held (GTIME and sequence ID), and the next entry of
its receive ring. -/
structure EthPort where
  qs : List EthQ := List.replicate 8 {}
  tsrx : List (Nat × Nat) := []
  tstx : List (Nat × Nat) := []
  rxNext : Nat := 0
  deriving DecidableEq, Repr

/-- The egress unit and the host interfaces beside their pages (R802 to R841). Positions and discards stand by kennel × 4 +
destination: 0 PCIE, 1 ETH0, 2 ETH1, 3 CASC. -/
structure Egress where
  pos : List Nat := List.replicate 32 0
  fpos : List Nat := List.replicate 32 0
  disc : List Nat := List.replicate 32 0
  /-- Next forward sequence number of each kennel (R811). -/
  fseq : List Nat := List.replicate 8 0
  /-- A release scan has ended since reset: EREL names a frame (R813, R814). -/
  rel : Bool := false
  /-- The event buffer, its next number, and each destination's position (R832). -/
  evs : List (Nat × ErrEntry) := []
  evseq : Nat := 0
  evpos : List Nat := List.replicate 4 0
  fns : List PcieFn := List.replicate 9 {}
  eth : List EthPort := List.replicate 2 {}
  deriving DecidableEq, Repr
/-- The energy ledger beside its page (R842 to R876). Energies are in picojoules where not said otherwise; what they come to
depends on the part's coefficients (log entry 3). -/
structure Energy where
  /-- Events counted since power-on: by page slot × 16 + class (R842, R844). -/
  tot : List (Nat × Nat) := []
  /-- Charges of the present tick by kennel, with overhead last; all charges since power-on; what the static term has put
  on the PWM page. -/
  chg : List Nat := List.replicate 9 0
  all : Nat := 0
  static : Nat := 0
  staticAt : Nat := 0
  /-- Junction temperature as last read, in degrees. -/
  temp : Nat := 25
  /-- The shared remainder TPOOL, and each kennel's charge that it could not cover (R854, R858). -/
  pool : Nat := 0
  unc : List Nat := List.replicate 8 0
  /-- A reservation has been made; each kennel's, in µJ, whether it holds one, and whether this head gave it a new one. -/
  formed : Bool := false
  res : List Nat := List.replicate 8 0
  rsv : List Bool := List.replicate 8 false
  newRes : List Bool := List.replicate 8 false
  /-- DEBT, KLAST, OVHMET and TOVH, in µJ. -/
  debt : List Nat := List.replicate 8 0
  klast : List Nat := List.replicate 8 0
  ovhmet : Nat := 0
  tovh : Nat := 0
  /-- KCFG, KGRANT and KCAP as in force (R869). -/
  kcfg : List (BitVec 32) := List.replicate 8 0x1000
  kgrant : List Nat := List.replicate 8 0
  kcap : List Nat := List.replicate 8 0xFFFFFF
  /-- The muzzle level, and the start of its window: time and total charge (R859). -/
  mlvl : Nat := 0
  winAt : Nat := 0
  winAll : Nat := 0
  /-- The present or last 1 ms round began (R849). -/
  roundAt : Nat := 0
  /-- PMBus: when the regulators were last read, the exponents read at start-up, each regulator's last power in mW, the last
  8 sums, consecutive failures, and whether their average is above BOARD (R861, R862, R873). -/
  pollAt : Nat := 0
  vexp : List (Option (BitVec 5)) := List.replicate 8 none
  last : List Nat := List.replicate 8 0
  hist : List Nat := []
  fails : Nat := 0
  aboveBud : Bool := false
  /-- Telemetry energy since the last calibration check in µJ, its time, the total charge then, and CALERR (R864). -/
  tel : Nat := 0
  calAt : Nat := 0
  calAll : Nat := 0
  calErr : Int := 0
  deriving DecidableEq, Repr

/-- Power, reset and start-up beside their registers (R877 to R918). -/
structure Power where
  /-- Levels of the pins RESET_N, PWRGOOD and REFCLK's presence, as filtered; the straps MGR and SMB_A. -/
  resetN : Bool := true
  pwrgood : Bool := false
  refclk : Bool := true
  mgr : Bool := false
  smba : BitVec 2 := 0
  /-- VDD_AON is in range and power-on reset has ended; the fuses have loaded (R880). -/
  porDone : Bool := true
  fused : Bool := false
  /-- When the last release condition of the core domain was met (R892), and since when RESET_N has been low (R891). -/
  relAt : Nat := 0
  lowAt : Option Nat := none
  /-- The thermal trip holds the core domain in reset until the temperature allows (R912). -/
  tripHold : Bool := false
  /-- WDO_N is low until this time; its pulse holds the core domain in reset (R931 to R933). -/
  wdoEnd : Option Nat := none
  swdHold : Bool := false
  /-- When the last warm reset was taken (R918). -/
  rstAt : Option Nat := none
  /-- Deviation of the AON clock from its nominal rate while it runs from the ring, in parts per billion: a free value within
  10 % (R884, log entry 2). -/
  ringDev : Int := 0
  /-- No core-domain release has followed the last power-on reset (R1058). -/
  firstRel : Bool := true
  /-- The units whose self-test at this start is still to complete (R902), by bit of DEV.SURV, or 32 and bit of DEV.SURVX; 63 is
  the CC memory. The CC memory has failed, and the core domain is held in reset (R901). -/
  testing : List Nat := []
  ccBad : Bool := false
  /-- DEEP: 0 not in it, 1 entering, 2 in it, 3 leaving (R908 to R910); time of entry; a wake is held for its end. -/
  deep : Nat := 0
  deepAt : Nat := 0
  wakeHeld : Bool := false
  /-- The junction temperature was at or above TJWARN (R912). -/
  tjWarn : Bool := false
  /-- Tiles whose NAP exit is in progress, and when it completes (R904). -/
  napExit : List (Nat × Nat) := []
  /-- The boot slots abandoned so far: 1 A, 2 B; and the entry address of the image that was authenticated (R899, R900). -/
  tried : List Nat := []
  authed : Option Nat := none
  /-- The HBM training record is valid (R289, R290). -/
  trec : Bool := false
  /-- A firmware-update request has been found in the mailbox and is in progress (R996). -/
  updating : Bool := false
  deriving DecidableEq, Repr

/-- A watchdog channel: the WDT channels 0 to 16 count MCLK cycles, channel 17 is the system watchdog (R919 to R937). -/
structure Watchdog where
  /-- Counted time since the last service or restart, as accumulated up to `at_`, and whether the count is paused. -/
  acc : Nat := 0
  at_ : Nat := 0
  paused : Bool := false
  running : Bool := false
  /-- The period in force (R936), in the register's units. -/
  period : Nat := 1024
  /-- In BARK: the accumulated time is the hard timer's (R926, R929). -/
  bark : Bool := false
  deriving DecidableEq, Repr

/-- The scope that a code's table gives it (R976). -/
inductive Scope where
  | event | kfault | refusal | reset
  deriving DecidableEq, Repr

/-- Everything the device holds beside the queue of waiting commands. -/
structure Chip where
  /-- The time, in sixths of a nanosecond (the model's own clock, log entry 1). -/
  now : Nat := 0
  /-- How many free values have been used (the model's own field, log entry 2). -/
  fresh : Nat := 0
  fuse : Fuses := {}
  /-- The register file: offset in the register window and value; a register that is not listed holds its reset value. -/
  regs : List (Nat × BitVec 32) := []
  bus : Bus := {}
  /-- The memories of R84 by physical location (R194), the program stores by tile, and the MRAM pages. -/
  mem : Memory := []
  pstore : Memory := []
  /-- ECC marks, by the address of the protected unit. -/
  ecc : List (Nat × EccMark) := []
  err : ErrUnit := {}
  ev : EvRing := {}
  trace : List TraceUnit := List.replicate 18 {}
  dbg : Debug := {}
  tick : TickUnit := {}
  kens : List KennelSt := List.replicate 8 {}
  sp : List Scratch := List.replicate 16 {}
  hbm : List HbmCtl := List.replicate 4 {}
  cores : List Core := List.replicate 16 ({} : Core) ++ [Core.cc]
  /-- The core domain is out of reset (R892). -/
  coreUp : Bool := false
  /-- Event records that wait for K0's egress destinations (R832, R986). -/
  netEv : List ErrEntry := []
  /-- GTIME at time `gtAt`, in units of 1/6,000,000,000 ns, and the offset in parts per billion by which the cascade slews it
  (R791, R913). -/
  gtBase : Nat := 0
  gtAt : Nat := 0
  gtSlew : Int := 0
  pwr : Power := {}
  wdt : List Watchdog := List.replicate 18 {}
  engines : List Engine := List.replicate 8 {}
  ports : List JobPort := List.replicate 17 {}
  /-- Memory regions whose contents a reset or a mode change did not preserve (R255, R247, R293), and the number of the
  free values that their bytes hold (log entry 2). -/
  lost : List (Nat × Nat) := []
  /-- The map of the record in force: logical page of the plastic store to physical page; no entry reads 0 (R684, R690). -/
  plmap : List (Nat × Nat) := []
  ary : List ArySt := List.replicate 16 {}
  drn : List DrnSt := List.replicate 16 {}
  lrn : LrnSt := {}
  cust : List CustSt := List.replicate 16 {}
  cport : CustPort := {}
  vxl : List VxlPort := List.replicate 4 {}
  casc : Cascade := {}
  /-- Line sequence number last begun to land in each slot of each view ring, plus 1 (R277). -/
  landing : List (Nat × Nat) := []
  /-- Engine that the DMA port of each tile served last (R640). -/
  dport : List Nat := List.replicate 16 7
  ing : Ingest := {}
  elg : Energy := {}
  egr : Egress := {}
  /-- The MSI-X table and the pending bits of each function (R807): by function × 0x1000 + offset in BAR4. -/
  msixTab : List (Nat × BitVec 32) := []
  /-- What has left the device, newest first. -/
  out : List Output := []
  deriving DecidableEq, Repr

/-- The state: the device and the queue of commands that wait, first in, first out. -/
structure State where
  pending : List Instr := []
  chip : Chip := {}
  deriving DecidableEq, Repr

/-- The device right after power-on reset. -/
def Chip.reset : Chip := {}

/-- The state right after reset: nothing waits, and the device is as power-on reset leaves it. -/
def State.reset : State := { pending := [], chip := Chip.reset }

end Sys2Proof.Machine
end

