-- ==== Sys2Proof/Machine/Ops.lean ====
section
/-!
DEFINITION. The named operations over the register file, the clock and the error reporting of the device.
-/
namespace Sys2Proof.Machine

/-! ### Pages and the register file -/

/-- The page kind and instance of a slot (R133). -/
def pageOf (slot : Nat) : Option (PageKind × Nat) :=
  if slot = 0x000 then some (.dev, 0) else if slot = 0x001 then some (.aon, 0)
  else if slot = 0x002 then some (.swd, 0) else if slot = 0x003 then some (.fuse, 0)
  else if slot = 0x004 then some (.cc, 0) else if slot = 0x005 then some (.wdt, 0)
  else if slot = 0x006 then some (.err, 0) else if slot = 0x007 then some (.trc, 0)
  else if slot = 0x008 then some (.dbg, 0) else if slot = 0x009 then some (.pwm, 0)
  else if slot = 0x00A then some (.elg, 0) else if slot = 0x00B then some (.tick, 0)
  else if slot = 0x00C then some (.kmap, 0) else if slot = 0x00D then some (.tbl, 0)
  else if slot = 0x00E then some (.lrn, 0) else if slot = 0x00F then some (.lst, 0)
  else if slot = 0x010 then some (.ing, 0) else if slot = 0x011 then some (.pci, 0)
  else if 0x012 ≤ slot ∧ slot < 0x014 then some (.eth, slot - 0x012)
  else if 0x018 ≤ slot ∧ slot < 0x01C then some (.vxl, slot - 0x018)
  else if 0x020 ≤ slot ∧ slot < 0x024 then some (.hbm, slot - 0x020)
  else if 0x028 ≤ slot ∧ slot < 0x030 then some (.dma, slot - 0x028)
  else if 0x100 ≤ slot ∧ slot < 0x110 then some (.tile, slot - 0x100)
  else if 0x110 ≤ slot ∧ slot < 0x120 then some (.ary, slot - 0x110)
  else if 0x120 ≤ slot ∧ slot < 0x130 then some (.drn, slot - 0x120)
  else none

/-- PID.TYPE of a page (R133). -/
def PageKind.typ : PageKind → Nat
  | .dev => 0x01 | .aon => 0x02 | .swd => 0x03 | .fuse => 0x04 | .cc => 0x05 | .wdt => 0x06 | .err => 0x07
  | .trc => 0x08 | .dbg => 0x09 | .pwm => 0x0A | .elg => 0x0B | .tick => 0x0C | .kmap => 0x0D | .tbl => 0x0E
  | .lrn => 0x0F | .lst => 0x10 | .ing => 0x11 | .pci => 0x12 | .eth => 0x13 | .vxl => 0x14 | .hbm => 0x15
  | .dma => 0x16 | .tile => 0x17 | .ary => 0x18 | .drn => 0x19

/-- PCAP of a page (R1068). -/
def PageKind.cap : PageKind → Nat
  | .dev | .aon | .swd | .fuse | .wdt | .dbg | .elg | .kmap => 0x03
  | .cc | .ing | .eth | .vxl => 0x05
  | .err | .trc | .tick | .tbl | .lst => 0x01
  | .pwm | .pci | .hbm => 0x07
  | .lrn | .dma => 0x15
  | .tile | .ary | .drn => 0x1D

/-- The page has locking (R113, R1068). -/
def PageKind.lockable (k : PageKind) : Bool := k.cap.testBit 1

/-- The page has soft reset, freeze (R1068). -/
def PageKind.hasSrst (k : PageKind) : Bool := k.cap.testBit 3
def PageKind.hasFrz (k : PageKind) : Bool := k.cap.testBit 4

/-- The page lies in the always-on domain (R131, R133). -/
def PageKind.aonDom : PageKind → Bool
  | .dev | .aon | .swd | .fuse => true
  | _ => false

/-- Slots of the multi-instance pages (R133). -/
abbrev slotEth (i : Nat) : Nat := 0x012 + i
abbrev slotVxl (i : Nat) : Nat := 0x018 + i
abbrev slotHbm (i : Nat) : Nat := 0x020 + i
abbrev slotDma (i : Nat) : Nat := 0x028 + i
abbrev slotTile (i : Nat) : Nat := 0x100 + i
abbrev slotAry (i : Nat) : Nat := 0x110 + i
abbrev slotDrn (i : Nat) : Nat := 0x120 + i

/-- The row that holds an offset. -/
def RegRow.holds (r : RegRow) (inst ofs : Nat) : Bool :=
  (!r.inst0 || inst == 0) && r.ofs ≤ ofs && (ofs - r.ofs) % r.stride == 0 && (ofs - r.ofs) / r.stride < r.count

/-- Interrupt sources of a page (R125, R739, R999, R1067). -/
def PageKind.irqMask : PageKind → Nat
  | .err => 0xE0000007
  | .ing => 0xE001FFFF
  | _ => 0xE0000000

/-- A header row as a page has it: its interrupt sources, and the SRST and FRZ bits that its PCAP shows (R106, R125). -/
def PageKind.hdr (k : PageKind) (r : RegRow) : RegRow :=
  if r.ofs = 0x010 then { r with rw := 1 + 4 * b2n k.hasFrz, wo := 2 * b2n k.hasSrst }
  else if r.ofs = 0x018 then { r with w1c := k.irqMask }
  else if r.ofs = 0x01C then { r with rw := k.irqMask }
  else if r.ofs = 0x020 then { r with wo := k.irqMask }
  else r

/-- The row of a register by page and offset (R98, R103). -/
def rowAt (k : PageKind) (inst ofs : Nat) : Option RegRow :=
  if ofs < 0x040 then (hdrRows.find? (·.holds inst ofs)).map k.hdr else (pageRows k).find? (·.holds inst ofs)

/-- The row of a register by its offset in the register window. -/
def rowOf (key : Nat) : Option RegRow :=
  match pageOf (key / 0x1000) with
  | some (k, i) => rowAt k i (key % 0x1000)
  | none => none

/-- The value a register holds when nothing has written it: its reset value (R15). -/
def resetOf (key : Nat) : BitVec 32 :=
  match rowOf key with
  | some r => BitVec.ofNat 32 r.rst
  | none => 0

namespace Chip

/-- The value a register holds. -/
def r (c : Chip) (key : Nat) : BitVec 32 := getKey (resetOf key) c.regs key

/-- Set a register. -/
def w (c : Chip) (key : Nat) (v : BitVec 32) : Chip := { c with regs := putKey (resetOf key) key v c.regs }

/-- A field of a register, as a number. -/
def rf (c : Chip) (key hi lo : Nat) : Nat := fld (c.r key) hi lo

/-- Set a field of a register. -/
def wf (c : Chip) (key hi lo x : Nat) : Chip := c.w key (setFld (c.r key) hi lo x)

/-- A bit of a register. -/
def rb (c : Chip) (key i : Nat) : Bool := bit (c.r key) i

/-- Set a bit of a register. -/
def wb (c : Chip) (key i : Nat) (b : Bool) : Chip := c.w key (setBit (c.r key) i b)

/-- A 64-bit register by its _LO word (R99). -/
def r64 (c : Chip) (lo : Nat) : Nat := (c.r lo).toNat + 2 ^ 32 * (c.r (lo + 4)).toNat

/-- Set a 64-bit register by its _LO word. -/
def w64 (c : Chip) (lo v : Nat) : Chip := (c.w lo (BitVec.ofNat 32 v)).w (lo + 4) (BitVec.ofNat 32 (v / 2 ^ 32))

/-- Add to a counter field that stops at all ones. -/
def cnt (c : Chip) (key hi lo d : Nat) : Chip := c.wf key hi lo (satAdd (hi + 1 - lo) (c.rf key hi lo) d)

/-- Add to a counter field that wraps. -/
def inc (c : Chip) (key hi lo d : Nat) : Chip := c.wf key hi lo (c.rf key hi lo + d)

/-- A free value (log entry 2), and the device with its counter advanced. -/
def free (c : Chip) : Nat × Chip := (Config.freeValue c.fresh, { c with fresh := c.fresh + 1 })

/-- Record a message that leaves the device. -/
def emit (c : Chip) (o : Output) : Chip := { c with out := o :: c.out }

/-- MSI-X vectors of a function: 64 of the physical function, 16 of each virtual function (R802). -/
def msixCount (fn : Nat) : Nat := if fn = 0 then 64 else 16

/-- A word of a function's MSI-X table or pending bits (R807); the mask bit of an entry that nothing has written is set. -/
def msixWord (c : Chip) (fn ofs : Nat) : BitVec 32 := getKey (if ofs < 0xC00 ∧ ofs % 16 = 12 then 1 else 0) c.msixTab (fn * 0x1000 + ofs)
def setMsixWord (c : Chip) (fn ofs : Nat) (v : BitVec 32) : Chip :=
  { c with msixTab := putKey (if ofs < 0xC00 ∧ ofs % 16 = 12 then 1 else 0) (fn * 0x1000 + ofs) v c.msixTab }

/-- An MSI-X vector of a function fires (R808): one whose mask bit is set is held pending. -/
def msi (c : Chip) (fn vec : Nat) : Chip :=
  if bit (c.msixWord fn (0x80C + 16 * vec)) 0 then
    c.setMsixWord fn (0xC00 + vec / 32 * 4) (c.msixWord fn (0xC00 + vec / 32 * 4) ||| BitVec.ofNat 32 (2 ^ (vec % 32)))
  else c.emit (.msix fn vec)

/-- Move the clock forward to a due time, never back (log entry 1). -/
def waitTo (c : Chip) (t : Nat) : Chip := { c with now := max c.now t }

/-- The MCLK cycle of the present time. -/
def cycle (c : Chip) : Nat := c.now / 5

/-! ### The part -/

/-- Tiles, stacks, camera links, Vaxlin ports built (R1, R4). -/
def tiles (c : Chip) : Nat := if c.fuse.part = 0x0740 then 8 else 16
def stackCnt (c : Chip) : Nat := if c.fuse.part = 0x0740 then 2 else 4
def cxps (c : Chip) : Nat := if c.fuse.part = 0x0740 then 8 else 16
def vxls (c : Chip) : Nat := if c.fuse.part = 0x0740 then 2 else 4

/-- The customer opcode block is present (R1, R4). -/
def hasCust (c : Chip) : Bool := c.fuse.part == 0x0781

/-- Scratchpad bytes per tile: SPSIZE (R4). -/
def spSize (c : Chip) : Nat := 2 ^ (20 + c.fuse.spsize.toNat)

/-- DEV.FEAT (R4). -/
def feat (c : Chip) : BitVec 32 :=
  BitVec.ofNat 32 (c.tiles + c.stackCnt * 2 ^ 5 + c.cxps * 2 ^ 8 + c.vxls * 2 ^ 13 + b2n c.hasCust * 2 ^ 16
    + c.fuse.spsize.toNat * 2 ^ 17)

/-- A unit survives, by its bit of DEV.SURV or DEV.SURVX (R1000). -/
def surv (c : Chip) (b : Nat) : Bool := c.rb R.DEV.SURV b
def survx (c : Chip) (b : Nat) : Bool := c.rb R.DEV.SURVX b

/-! ### Kennels -/

/-- The kennel of a tile under the live map (R142, R166). -/
def owner (c : Chip) (t : Nat) : Nat :=
  if t < 8 then c.rf R.KMAP.LIVE_TOWN0 (3 * t + 2) (3 * t) else c.rf R.KMAP.LIVE_TOWN1 (3 * (t - 8) + 2) (3 * (t - 8))

/-- The tiles of a kennel. -/
def tilesOf (c : Chip) (k : Nat) : List Nat := (List.range c.tiles).filter (fun t => c.owner t == k)

/-- The kennel of the learning engine (R143). -/
def lrnk (c : Chip) : Nat := c.rf R.KMAP.LIVE_MISC 2 0

/-- The kennel of a virtual function n = 1 to 8 (R804). -/
def vfKen (c : Chip) (n : Nat) : Nat := c.rf (R.PCI.VFMAP1 + 4 * (n - 1)) 2 0

/-- The enabled virtual function that carries a kennel. -/
def vfOf (c : Chip) (k : Nat) : Option Nat :=
  (List.range' 1 8).find? (fun n => c.rb (R.PCI.VFMAP1 + 4 * (n - 1)) 8 && c.vfKen n == k)

/-- The path and kennel that a requester carries (R126). -/
def req (c : Chip) : Who → Req
  | .cc => ⟨0, 0⟩
  | .tile t => ⟨1, c.owner t⟩
  | .cust t => ⟨2, c.owner t⟩
  | .pf => ⟨3, 0⟩
  | .vf f => ⟨4, c.vfKen (f + 1)⟩
  | .smbus => ⟨5, 0⟩
  | .dap => ⟨6, 0⟩
  | .remote _ k => ⟨7, k.toNat⟩

/-! ### Time -/

/-- TICK.FNUM (R53). -/
def fnum (c : Chip) : Nat := c.r64 R.TICK.FNUM_LO

/-- GTIME in units of 1/6,000,000,000 ns: the value last set, plus the time since at the rate of ETH0.GADJ, or of the
cascade's slew while GTC.GDIS = 1, or of the ring while REFCLK is absent (R791, R828, R913). -/
def gtFine (c : Chip) : Nat :=
  let adj : Int := if !c.pwr.refclk then c.pwr.ringDev else if c.rb (R.VXL.GTC 0) 0 then c.gtSlew
    else sInt 32 (c.r (R.ETH.GADJ 0)).toNat
  (c.gtBase + ((c.now - c.gtAt : Nat) : Int) * (1000000000 + adj)).toNat

/-- GTIME in nanoseconds (R913). -/
def gtime (c : Chip) : Nat := c.gtFine / 6000000000 % 2 ^ 64

/-- Note GTIME as it stands, before its rate changes. -/
def gtMark (c : Chip) : Chip := { c with gtBase := c.gtFine, gtAt := c.now }

/-- Step GTIME by signed nanoseconds (R791, R828). -/
def gtStep (c : Chip) (d : Int) : Chip :=
  let c := c.gtMark
  { c with gtBase := wrapN 64 ((c.gtBase / 6000000000 : Nat) + d) * 6000000000 + c.gtBase % 6000000000 }

/-! ### Interrupts -/

/-- The CC interrupt line of a page (R988). -/
def ccLine (c : Chip) (slot : Nat) : Option Nat :=
  match pageOf slot with
  | some (.err, _) => some 0
  | some (.tick, _) => some 1
  | some (.kmap, _) | some (.tbl, _) => some 2
  | some (.elg, _) | some (.pwm, _) => some 3
  | some (.dev, _) | some (.aon, _) | some (.swd, _) | some (.fuse, _) | some (.wdt, _) => some 4
  | some (.hbm, _) => some 5
  | some (.dma, _) => some 6
  | some (.ing, _) | some (.lst, _) => some 7
  | some (.vxl, _) => some 8
  | some (.pci, _) | some (.eth, _) => some 9
  | some (.lrn, _) => some 10
  | some (.cc, _) | some (.trc, _) | some (.dbg, _) => some 11
  | some (.tile, t) | some (.ary, t) | some (.drn, t) => if c.owner t = 0 then some 12 else none
  | none => none

/-- The page interrupt is active (R122). -/
def irqActive (c : Chip) (slot : Nat) : Bool := (c.r (R.H.PIRQS slot) &&& c.r (R.H.PIRQE slot)) != 0

/-- The tile of a TILE, ARY or DRN page. -/
def tileOfSlot (slot : Nat) : Option Nat := if 0x100 ≤ slot ∧ slot < 0x130 then some (slot % 16) else none

/-- A page interrupt that becomes active also reaches the host (R988): the physical function where PFRT selects its line,
and the virtual function of the kennel of a tile's page. -/
def irqToHost (c : Chip) (slot : Nat) : Chip :=
  let c := match c.ccLine slot with
    | some n => if c.rb R.ERR.PFRT n then c.msi 0 (2 + n) else c
    | none => c
  match tileOfSlot slot with
  | some t => if c.owner t = 0 then c else
      match c.vfOf (c.owner t) with
      | some v => c.msi v 3
      | none => c
  | none => c

/-- Set PIRQS bits of a page (R121). -/
def setIrq (c : Chip) (slot mask : Nat) : Chip :=
  let was := c.irqActive slot
  let c := c.w (R.H.PIRQS slot) (c.r (R.H.PIRQS slot) ||| BitVec.ofNat 32 mask)
  if !was && c.irqActive slot then c.irqToHost slot else c

/-! ### The error aggregator -/

/-- A closed entry enters the log and is delivered to the targets its class selects (R984, R986). -/
def errClose (c : Chip) (e : ErrEntry) : Chip :=
  let c := if c.err.log.length < 64 then { c with err := { c.err with log := c.err.log ++ [e] } }
    else ((c.wb R.ERR.ESTAT 8 true).cnt R.ERR.ELOST 15 0 1).setIrq 6 2
  let c := c.wf R.ERR.ESTAT 6 0 c.err.log.length
  let cls := e.code / 0x100
  let t := c.r (R.ERR.CRTE (cls - 1))
  let c := if bit t 0 then c.setIrq 6 1 else c
  let c := if bit t 1 then c.msi 0 (18 + (cls - 1)) else c
  let c := if bit t 2 then { c with netEv := c.netEv ++ [e] } else c
  let c := if bit t 3 then c.wb R.AON.FSRC 7 true else c
  if bit t 4 && e.ken != 0 then
    match c.vfOf e.ken with
    | some v => c.msi v 4
    | none => c
  else c

/-- Count an arriving code in the open entry it matches; `none` when it matches none (R982). -/
def mergeErr (e : ErrEntry) : List ErrEntry → Option (List ErrEntry)
  | [] => none
  | x :: r =>
    if x.code = e.code ∧ x.slot = e.slot ∧ x.ken = e.ken then some ({ x with count := satAdd 16 x.count 1 } :: r)
    else (mergeErr e r).map (x :: ·)

/-- A code reaches the aggregator (R975, R982). While the core domain is in reset it does not (R1003). -/
def errArrive (c : Chip) (slot code ken path addr : Nat) : Chip :=
  if !c.coreUp then c else
  let e : ErrEntry := ⟨code, slot, ken, path, 1, c.now, c.gtime, addr, c.fnum % 2 ^ 16⟩
  match mergeErr e c.err.open_ with
  | some l => { c with err := { c.err with open_ := l } }
  | none =>
    if c.rf R.ERR.ECTL 13 0 = 0 ∨ 16 ≤ c.err.open_.length then c.errClose e
    else { c with err := { c.err with open_ := c.err.open_ ++ [e] } }

/-! ### The AON event ring -/

/-- The codes that the spec does not state are copied into the AON event ring: those of the address map and of
chapter "Faults, error reporting and the service floor" (R135, R978), and the core exceptions (R357). -/
def evCopied (code : Nat) : Bool :=
  !((0x0520 ≤ code && code ≤ 0x0525) || code == 0x0271 || code == 0x0272 || code == 0x0281 || code == 0x0282
    || (0x0B01 ≤ code && code ≤ 0x0B07) || code == 0x0B09 || code == 0x0C0C)

/-- An entry joins the holding queue of the AON event ring, or is lost (R966). -/
def evPush (c : Chip) (slot code ken path : Nat) : Chip :=
  let e : EvEntry := ⟨c.gtime, code, slot, ken, path, c.fnum % 2 ^ 16⟩
  if c.ev.queue.length < 16 then { c with ev := { c.ev with queue := c.ev.queue ++ [e] } }
  else c.cnt R.AON.EVLOST 15 0 1

/-! ### Reporting a code -/

/-- Raise something at most once per frame tick: `true` the first time in the tick. -/
def onceTick (c : Chip) (code inst : Nat) : Bool × Chip :=
  if (code, inst) ∈ c.bus.once then (false, c)
  else (true, { c with bus := { c.bus with once := (code, inst) :: c.bus.once } })

/-- Capture a code in a page (R109, R111, R1067). -/
def capture (c : Chip) (slot code : Nat) (sc : Scope) (q : Req) (addr : Nat) : Chip :=
  let c := if c.rb (R.H.PSTAT slot) 1 then c.wb (R.H.PERRC slot) 30 true
    else
      let c := c.w (R.H.PERRC slot) (BitVec.ofNat 32 (code + q.ken * 2 ^ 16 + q.path * 2 ^ 19))
      let c := c.w64 (R.H.PERRA_LO slot) (addr % 2 ^ 48)
      c.wb (R.H.PSTAT slot) 1 true
  let c := c.w (R.H.PTICK slot) (BitVec.ofNat 32 c.fnum)
  let ref := decide (0x0520 ≤ code) && decide (code ≤ 0x0526) && code != 0x0523
  let m := (match sc with
    | .event | .reset => 2 ^ 29
    | .kfault => 2 ^ 30
    | .refusal => 0) ||| (if ref then 2 ^ 31 else 0)
  c.setIrq slot m

/-- Report a code to a page without a trace packet (R109, R975). -/
def reportBase (c : Chip) (slot code : Nat) (sc : Scope) (q : Req) (addr : Nat) : Chip :=
  let c := c.capture slot code sc q addr
  let c := c.errArrive slot code q.ken q.path addr
  if evCopied code then c.evPush slot code q.ken q.path else c

/-- A packet joins a trace unit's FIFO of 32, of which two are held for SLEEP and WAKE; a packet that finds it full is
lost and counted, with event 0x0B44 once per frame tick (R963). Nothing is traced while the unit is gated (R965). -/
def tracePush (c : Chip) (u : Nat) (p : Packet) (room : Nat) : Chip :=
  let t := nth {} c.trace u
  if !c.rb (R.TRC.TST u) 1 || t.sleepG.isSome || t.closing then c
  else if t.fifo.length < room && !c.rb (R.TRC.TST u) 0 then
    { c with trace := modNth (fun t => { t with fifo := t.fifo ++ [p] }) c.trace u }
  else
    let c := { c with trace := modNth (fun t => { t with lost := t.lost + 1 }) c.trace u }
    let c := c.cnt (R.TRC.TLOST u) 31 0 1
    match c.onceTick 0x0B44 u with
    | (true, c) => c.reportBase 7 0x0B44 .event ⟨0, 0⟩ 0
    | (false, c) => c

/-- A packet of a unit, with its kennel and time stamp (R962). -/
def traceAdd (c : Chip) (u typ a b : Nat) : Chip :=
  let ken := if u < 16 then c.owner u else 0
  c.tracePush u ⟨typ, u, ken, a % 2 ^ 48, b % 2 ^ 32, c.gtime % 2 ^ 32⟩ 30

/-- Report a code to a page: capture, PTICK, PIRQS, the error aggregator, the AON event ring, and unit 17's trace where
EVMASK selects the class (R109, R111, R961, R975, R1067). -/
def report (c : Chip) (slot code : Nat) (sc : Scope) (q : Req) (addr : Nat) : Chip :=
  let c := c.reportBase slot code sc q addr
  if c.rb R.TRC.EVMASK (code / 0x100) then c.traceAdd 17 0x06 addr (code + slot * 2 ^ 16) else c

/-- Report an event that carries no requester and no address. -/
def event (c : Chip) (slot code : Nat) : Chip := c.report slot code .event ⟨0, 0⟩ 0

/-- Report an event at most once per frame tick. -/
def eventOnce (c : Chip) (slot code inst : Nat) : Chip :=
  match c.onceTick code inst with
  | (true, c) => c.event slot code
  | (false, c) => c

/-- Change one core. -/
def modCore (c : Chip) (k : Nat) (f : Core → Core) : Chip := { c with cores := modNth f c.cores k }

/-- One core. -/
def core (c : Chip) (k : Nat) : Core := nth {} c.cores k

/-- The page of a core: a TILE page, or the CC page for core 16. -/
def corePage (k : Nat) : Nat := if k = 16 then 4 else slotTile k

/-- Change a tile's scratchpad state. -/
def modSp (c : Chip) (t : Nat) (f : Scratch → Scratch) : Chip := { c with sp := modNth f c.sp t }

/-- A tile's scratchpad state. -/
def scratch (c : Chip) (t : Nat) : Scratch := nth {} c.sp t

/-- Change the tick unit's hidden state. -/
def modTick (c : Chip) (f : TickUnit → TickUnit) : Chip := { c with tick := f c.tick }

/-- Change what is kept of a frame; the frames of the last eight ticks are kept. -/
def modFrame (c : Chip) (n : Nat) (f : FrameRec → FrameRec) : Chip :=
  c.modTick fun t =>
    let l := if t.frames.any (fun r => r.n == n) then t.frames else { n := n } :: t.frames
    { t with frames := (l.map (fun r => if r.n == n then f r else r)).filter (fun r => decide (n < r.n + 8)) }

/-- What is kept of a frame. -/
def frameRec (c : Chip) (n : Nat) : FrameRec := (c.tick.frames.find? (fun r => r.n == n)).getD { n := n }

/-! ### Energy -/

/-- Charge an energy in picojoules to a kennel, or with 8 to overhead (R843, R854, R858, R866): what its reservation does not
cover is drawn from TPOOL. -/
def charge (c : Chip) (ken e : Nat) : Chip :=
  let g := c.elg
  let old := nth 0 g.chg ken
  let new := old + e
  let cap := if ken < 8 then nth 0 g.res ken * 1000000 else g.tovh * 1000000
  let held := if ken < 8 then nth false g.rsv ken else true
  let draw := if !held then e
    else if ken < 8 && bit (nth 0 g.kcfg ken) 0 then 0
    else (new - cap) - (old - cap)
  let cov := min draw g.pool
  { c with elg := { g with chg := modNth (fun _ => new) g.chg ken, all := g.all + e, pool := g.pool - cov,
                           unc := if held then g.unc else modNth (fun u => u + (e - cov)) g.unc ken } }

/-- A block's meter counts `n` events of a class and charges them (R842). -/
def meter (c : Chip) (slot cls ken n : Nat) : Chip :=
  if n = 0 then c
  else
    let key := slot * 16 + cls
    let c := { c with elg := { c.elg with tot := putKey 0 key (getKey 0 c.elg.tot key + n) c.elg.tot } }
    c.charge ken (n * Config.meterPj key)

/-- A block's energy since power-on in µJ, modulo 2^32 (R844). -/
def penrg (c : Chip) (slot : Nat) : Nat :=
  let p := (c.elg.tot.filter (fun x => x.1 / 16 == slot)).foldl (fun n x => n + x.2 * Config.meterPj x.1) 0
  (p + (if slot = 0x009 then c.elg.static else 0)) / 1000000 % 2 ^ 32

/-! ### Watchdog counts -/

/-- A watchdog's count stands: a WDT channel for the state of its core or tile, or in BARK only for a debug halt, or with MCLK
stopped (R921, R928, R945); the system watchdog, channel 17, while the CC is halted or the device is in DEEP (R922). -/
def wdtPaused (c : Chip) (i : Nat) : Bool :=
  let r := (c.core (min i 16)).run
  if i = 17 then r == .halted || c.pwr.deep != 0
  else !c.coreUp || c.pwr.deep != 0 || r == .halted ||
    (!(nth {} c.wdt i).bark && (r == .stopped || r == .waitt || r == .frozen || r == .filling ||
      (decide (i < 16) && (c.rb R.PWM.TPWR i || !c.surv i))))

/-- A count as it stands now. -/
def wdtTime (c : Chip) (i : Nat) : Nat :=
  let w := nth {} c.wdt i
  w.acc + (if w.running && !w.paused then c.now - w.at_ else 0)

/-- Change a watchdog's hidden state. -/
def modWdt (c : Chip) (i : Nat) (f : Watchdog → Watchdog) : Chip := { c with wdt := modNth f c.wdt i }

/-- A watchdog's count begins again from 0. -/
def wdtZero (c : Chip) (i : Nat) : Chip := c.modWdt i fun w => { w with acc := 0, at_ := c.now, bark := false }

/-- Counts that begin or cease to pause are brought up to date. -/
def wdtSync (c : Chip) : Chip :=
  forN 18 (fun i (c : Chip) =>
    let w := nth {} c.wdt i
    if !w.running || w.paused == c.wdtPaused i then c
    else
      let t := c.wdtTime i
      c.modWdt i fun w => { w with acc := t, at_ := c.now, paused := !w.paused }) c

end Chip

/-- A command whose effect on the device is `f`: the queue is left alone, and no command changes the fuse block (R5,
R14). -/
def State.on (s : State) (f : Chip → Chip) : Host.Outcome State Fault Refusal :=
  .next { s with chip := { (f s.chip).wdtSync with fuse := s.chip.fuse } }

/-- A command of the core domain: it has no effect while the core domain is in reset or the device is in DEEP (R139, R909). -/
def State.up (s : State) (f : Chip → Chip) : Host.Outcome State Fault Refusal :=
  s.on fun c => if c.coreUp && c.pwr.deep != 2 then f c else c

end Sys2Proof.Machine
end

