-- ==== Sys2Proof/Machine/Clock.lean ====
section
/-!
DEFINITION. What passes when no command waits: one MCLK cycle.
-/
namespace Sys2Proof.Machine

/-- One MCLK cycle passes (log entry 1). Counters that run with the clock are computed from the time. -/
def Chip.idle (c : Chip) : Chip := { c with now := c.now + 5 }

end Sys2Proof.Machine
end

