-- ==== Sys2Proof/Machine/Float.lean ====
section
/-!
DEFINITION. Number formats: floats, the scale word SW24, block-scaled packing, and rounding, all over exact dyadic numbers.
-/
namespace Sys2Proof.Machine

/-- A dyadic number `n * 2 ^ e`. -/
structure Dy where
  n : Int
  e : Int
  deriving DecidableEq, Repr

/-- `m * 2 ^ k` rounded to the nearest integer, ties to even (R500). -/
def rneNat (m : Nat) (k : Int) : Nat :=
  if 0 ≤ k then m * 2 ^ k.toNat
  else
    let d := 2 ^ (-k).toNat
    let q := m / d
    let r := m % d
    if d < 2 * r ∨ (2 * r = d ∧ q % 2 = 1) then q + 1 else q

/-- A dyadic rounded to the nearest integer, ties to even. -/
def Dy.rne (x : Dy) : Int := if x.n < 0 then -(rneNat x.n.natAbs x.e : Int) else (rneNat x.n.natAbs x.e : Int)

def Dy.zero : Dy := ⟨0, 0⟩
def Dy.ofInt (n : Int) : Dy := ⟨n, 0⟩
def Dy.mul (x y : Dy) : Dy := ⟨x.n * y.n, x.e + y.e⟩
def Dy.neg (x : Dy) : Dy := ⟨-x.n, x.e⟩
def Dy.shift (x : Dy) (k : Int) : Dy := ⟨x.n, x.e + k⟩
/-- The exact sum. -/
def Dy.add (x y : Dy) : Dy :=
  let e := min x.e y.e
  ⟨x.n * 2 ^ (x.e - e).toNat + y.n * 2 ^ (y.e - e).toNat, e⟩
def Dy.sub (x y : Dy) : Dy := x.add y.neg
def Dy.lt (x y : Dy) : Bool := decide ((x.sub y).n < 0)
def Dy.le (x y : Dy) : Bool := decide ((x.sub y).n ≤ 0)
def Dy.abs (x : Dy) : Dy := ⟨x.n.natAbs, x.e⟩
def Dy.max (x y : Dy) : Dy := if x.lt y then y else x
def Dy.min (x y : Dy) : Dy := if y.lt x then y else x
/-- Exponent of the leading bit of a nonzero dyadic: the floor of its base-2 logarithm. -/
def Dy.log2 (x : Dy) : Int := (x.n.natAbs.log2 : Int) + x.e

/-- A float format: exponent bits, mantissa bits, and whether its all-ones exponent holds infinities (R482, R483). -/
structure FFmt where
  eb : Nat
  mb : Nat
  inf : Bool
  deriving DecidableEq, Repr

def e4m3 : FFmt := ⟨4, 3, false⟩
def e5m2 : FFmt := ⟨5, 2, true⟩
def bf16 : FFmt := ⟨8, 7, true⟩
def fp16 : FFmt := ⟨5, 10, true⟩
def fp32 : FFmt := ⟨8, 23, true⟩

namespace FFmt
def bias (f : FFmt) : Int := 2 ^ (f.eb - 1) - 1
def width (f : FFmt) : Nat := 1 + f.eb + f.mb
def signBit (f : FFmt) : Nat := 2 ^ (f.eb + f.mb)
/-- The canonical NaN (R482, R485). -/
def nan (f : FFmt) : Nat := if f.inf then (2 ^ f.eb - 1) * 2 ^ f.mb + 2 ^ (f.mb - 1) else 2 ^ (f.eb + f.mb) - 1
/-- Infinity, where the format has one. -/
def infty (f : FFmt) : Nat := (2 ^ f.eb - 1) * 2 ^ f.mb
/-- The largest finite value (R482). -/
def big (f : FFmt) : Nat := if f.inf then f.infty - 1 else f.nan - 1
end FFmt

/-- A float value: NaN, infinity, or a finite value with its sign. -/
inductive Fv where
  | nan
  | inf (neg : Bool)
  | fin (neg : Bool) (m : Nat) (e : Int)
  deriving DecidableEq, Repr

/-- The value that a format's bits hold (R482 to R484). -/
def FFmt.decode (f : FFmt) (x : Nat) : Fv :=
  let s := x / f.signBit % 2 == 1
  let e := x / 2 ^ f.mb % 2 ^ f.eb
  let m := x % 2 ^ f.mb
  if e = 2 ^ f.eb - 1 ∧ f.inf then (if m = 0 then .inf s else .nan)
  else if x % f.signBit = f.nan ∧ ¬f.inf then .nan
  else if e = 0 then .fin s m (1 - f.bias - (f.mb : Int))
  else .fin s (m + 2 ^ f.mb) ((e : Int) - f.bias - (f.mb : Int))

/-- A finite magnitude rounded into a format, and whether it saturates (R484, R501 to R503). -/
def FFmt.round (f : FFmt) (neg : Bool) (m : Nat) (e : Int) : Nat × Bool :=
  let s := if neg then f.signBit else 0
  if m = 0 then (s, false)
  else
    let q := max ((m.log2 : Int) + e) (1 - f.bias) - (f.mb : Int)
    let r := rneNat m (e - q)
    let (r, q) := if 2 ^ (f.mb + 1) ≤ r then (r / 2, q + 1) else (r, q)
    let b : Int := if r < 2 ^ f.mb then 0 else q + (f.mb : Int) + f.bias
    let v := if b ≤ 0 then r else b.toNat * 2 ^ f.mb + (r - 2 ^ f.mb)
    if f.big < v then (s + f.big, true) else (s + v, false)

/-- A value converted into a format, and whether it saturates (R501). -/
def FFmt.encode (f : FFmt) : Fv → Nat × Bool
  | .nan => (f.nan, false)
  | .inf s => if f.inf then ((if s then f.signBit else 0) + f.infty, false) else ((if s then f.signBit else 0) + f.big, true)
  | .fin s m e => f.round s m e

/-- The exact number of a finite value. -/
def Fv.dy : Fv → Dy
  | .fin s m e => ⟨if s then -(m : Int) else m, e⟩
  | _ => Dy.zero

def Fv.isNan : Fv → Bool
  | .nan => true
  | _ => false

def Fv.neg? : Fv → Bool
  | .nan => false
  | .inf s => s
  | .fin s _ _ => s

def Fv.neg : Fv → Fv
  | .nan => .nan
  | .inf s => .inf (!s)
  | .fin s m e => .fin (!s) m e

/-- A dyadic as a finite value; a zero takes the given sign. -/
def Fv.ofDy (x : Dy) (zeroNeg : Bool) : Fv :=
  if x.n = 0 then .fin zeroNeg 0 0 else .fin (decide (x.n < 0)) x.n.natAbs x.e

/-- The exact product (IEEE 754). -/
def Fv.mul (x y : Fv) : Fv :=
  match x, y with
  | .nan, _ | _, .nan => .nan
  | .inf s, .inf t => .inf (s != t)
  | .inf s, .fin t m _ => if m = 0 then .nan else .inf (s != t)
  | .fin s m _, .inf t => if m = 0 then .nan else .inf (s != t)
  | .fin s m e, .fin t n d => .fin (s != t) (m * n) (e + d)

/-- The exact sum (IEEE 754, to nearest): a zero sum is negative only when both terms are. -/
def Fv.add (x y : Fv) : Fv :=
  match x, y with
  | .nan, _ | _, .nan => .nan
  | .inf s, .inf t => if s = t then .inf s else .nan
  | .inf s, .fin .. | .fin .., .inf s => .inf s
  | .fin s m e, .fin t n d => Fv.ofDy ((Fv.fin s m e).dy.add (Fv.fin t n d).dy) (s && t)

/-- Order of two values that are no NaN: -1, 0 or 1. -/
def Fv.cmp (x y : Fv) : Int :=
  match x, y with
  | .inf s, .inf t => if s = t then 0 else if s then -1 else 1
  | .inf s, _ => if s then -1 else 1
  | _, .inf s => if s then 1 else -1
  | x, y => (x.dy.sub y.dy).n.sign

/-- A value converted to an integer range: rounded, saturated, NaN gives 0 (R461, R501). -/
def Fv.toInt (lo hi : Int) : Fv → Int × Bool
  | .nan => (0, false)
  | .inf s => (if s then lo else hi, true)
  | .fin s m e => let r := (Fv.fin s m e).dy.rne; if r < lo then (lo, true) else if hi < r then (hi, true) else (r, false)

/-! ### SW24 -/

/-- The value of a scale word (R493). -/
def sw24 (w : Nat) : Dy :=
  let ex : Nat := w / 2 ^ 16 % 256
  if ex = 0 then Dy.zero else ⟨sInt 16 w, (ex : Int) - 127 - 14⟩

/-- A number rounded to a normalised scale word (R494); what a nonzero number below the least normalised magnitude gives is open. -/
def toSw24 (x : Dy) : Nat :=
  if x.n = 0 then 0
  else
    let l := x.log2
    let m := rneNat x.n.natAbs (x.e - l + 14)
    let (m, l) := if m = 32768 then (16384, l + 1) else (m, l)
    let ex := l + 127
    let (m, ex) : Nat × Int := if 255 < ex then (32767, 255) else (m, ex)
    if ex < 1 then (Config.tinyScale x.n x.e).toNat
    else ex.toNat * 2 ^ 16 + wrapN 16 (if x.n < 0 then -(m : Int) else m)

/-- A scale is positive and normalised (R494, R495). -/
def sw24Scale (w : Nat) : Bool := w / 2 ^ 16 % 256 ≠ 0 && 16384 ≤ w % 2 ^ 16 && w % 2 ^ 16 ≤ 32767

/-! ### Division by a scale -/

/-- Comparison of `r * 2 ^ e` with a quotient `a / b` of dyadics, `b` positive: whether the quotient, rounded to the
nearest integer, ties to even, is found exactly from the remainder. -/
def divRne (a b : Dy) : Int :=
  if b.n ≤ 0 then 0
  else
    let e := a.e - b.e
    let num := if 0 ≤ e then a.n.natAbs * 2 ^ e.toNat else a.n.natAbs
    let den := if 0 ≤ e then b.n.natAbs else b.n.natAbs * 2 ^ (-e).toNat
    let q := num / den
    let r := num % den
    let q := if den < 2 * r ∨ (2 * r = den ∧ q % 2 = 1) then q + 1 else q
    if a.n < 0 then -(q : Int) else q

/-! ### Blocks -/

/-- A block format: `K`, `MMAX` and mantissa bytes for BS8 and BS4 (R490). -/
def blkK (bs4 : Bool) : Int := if bs4 then 2 else 6
def blkMax (bs4 : Bool) : Int := if bs4 then 7 else 127

/-- One value of a block before packing, as a fraction `num / den` of dyadics with a positive denominator; or a NaN or an
infinity. -/
inductive Bv where
  | nan
  | inf (neg : Bool)
  | q (num den : Dy)
  deriving DecidableEq, Repr

/-- The floor of the base-2 logarithm of the magnitude of a nonzero quotient. -/
def quotLog2 (a b : Dy) : Int :=
  let l := a.log2 - b.log2
  -- 2^l / 2 < |a / b| < 2^l * 2
  if (b.shift l).abs.le a.abs then l else l - 1

/-- Whether the magnitude of one quotient is below that of another. -/
def quotLt (a b c d : Dy) : Bool := (a.abs.mul d).lt (c.abs.mul b)

/-- Mantissas of a block under a shared exponent (R490). -/
def blkMant (e : Int) (x : Bv) : Option Int :=
  match x with
  | .nan => some 0
  | .inf _ => none
  | .q a b => some (divRne (a.shift (127 - e)) b)

/-- Pack one block of values: the exponent, the mantissas, and how many saturate (R490). -/
def blkPack (bs4 : Bool) (xs : List Bv) : Nat × List Int × Nat :=
  let mm := blkMax bs4
  let anyInf := xs.any (fun x => match x with | .inf _ => true | _ => false)
  let amax : Option (Dy × Dy) := xs.foldl (fun acc x => match x with
    | .q a b => if a.n = 0 then acc else
        match acc with
        | none => some (a.abs, b)
        | some (c, d) => if quotLt c d a b then some (a.abs, b) else acc
    | _ => acc) none
  if !anyInf && amax.isNone then (0, xs.map (fun _ => 0), 0)
  else
    let e : Int := if anyInf then 255 else match amax with
      | none => 255
      | some (a, b) => min (max (quotLog2 a b - blkK bs4 + 127) 1) 255
    let mants (e : Int) : List Int := xs.map (fun x => match x with
      | .inf s => if s then -(mm + 1) else mm + 1
      | x => (blkMant e x).getD 0)
    let fitsNot (l : List Int) : Bool := l.any (fun m => mm < m.natAbs)
    let e := if fitsNot (mants e) ∧ e < 255 then e + 1 else e
    let ms := mants e
    let sat := (ms.filter (fun m => mm < m.natAbs)).length
    let ms := ms.map (clampI (-mm) mm)
    (if ms.all (· == 0) then 0 else e.toNat, ms, sat)

/-! ### Format codes -/

/-- Bits per element of a format code (R475); block formats by their mantissas. -/
def fmtBits (f : Nat) : Nat :=
  match f with
  | 0 | 1 | 7 | 8 | 12 => 8
  | 2 => 12
  | 3 | 4 | 9 | 10 => 16
  | 5 => 24
  | 6 | 13 => 4
  | 11 => 32
  | _ => 0

/-- The float format of a code. -/
def fmtFloat (f : Nat) : Option FFmt :=
  match f with
  | 7 => some e4m3 | 8 => some e5m2 | 9 => some bf16 | 10 => some fp16 | 11 => some fp32
  | _ => none

/-- The integer range of a plain integer format (R475). -/
def fmtRange (f : Nat) : Option (Int × Int) :=
  match f with
  | 0 => some (0, 255) | 1 => some (-128, 127) | 2 => some (0, 4095) | 3 => some (0, 65535)
  | 4 => some (-32768, 32767) | 5 => some (-8388608, 8388607) | 6 => some (-8, 7)
  | _ => none

/-- Bytes of a run of `n` elements of a plain format (R477 to R480). -/
def runBytes (f n : Nat) : Nat :=
  match f with
  | 2 => 3 * ((n + 1) / 2)
  | 6 => (n + 1) / 2
  | _ => n * (fmtBits f / 8)

/-- The raw bits of element `i` of a run (R477 to R479). -/
def elemGet (f : Nat) (bs : List (BitVec 8)) (i : Nat) : Nat :=
  match f with
  | 2 => natLE ((bs.drop (i / 2 * 3)).take 3) / 2 ^ (12 * (i % 2)) % 4096
  | 6 | 13 => (nth 0 bs (i / 2)).toNat / 2 ^ (4 * (i % 2)) % 16
  | _ => let w := fmtBits f / 8; natLE ((bs.drop (i * w)).take w)

/-- The stored integer of element `i` of an integer or mantissa run. -/
def elemInt (f : Nat) (bs : List (BitVec 8)) (i : Nat) : Int :=
  let x := elemGet f bs i
  match f with
  | 1 | 4 | 5 | 6 | 12 | 13 => sInt (fmtBits f) x
  | _ => Int.ofNat x

/-- Lay raw element bits out as a run; the unused half of an odd run is 0 (R480). -/
def elemsPut (f : Nat) (xs : List Nat) : List (BitVec 8) :=
  match f with
  | 2 => (List.range ((xs.length + 1) / 2)).flatMap (fun i => bytesLE 3 (nth 0 xs (2 * i) % 4096 + nth 0 xs (2 * i + 1) % 4096 * 4096))
  | 6 | 13 => (List.range ((xs.length + 1) / 2)).flatMap (fun i => bytesLE 1 (nth 0 xs (2 * i) % 16 + nth 0 xs (2 * i + 1) % 16 * 16))
  | _ => xs.flatMap (bytesLE (fmtBits f / 8))

end Sys2Proof.Machine
end

