-- ==== Sys2Proof/Machine/Bus.lean ====
section
/-!
DEFINITION. The register window: which pages a requester reaches, what a register reads as, how a write sets its fields
by access code, and how a refusal reaches its requester.
-/
namespace Sys2Proof.Machine

/-- Bits of a register that no field uses (R16). -/
def RegRow.reserved (r : RegRow) : BitVec 32 :=
  ~~~ (BitVec.ofNat 32 (r.rw ||| r.rwl ||| r.w1c ||| r.w1s ||| r.rc ||| r.wo ||| r.ro))

/-- A register's new value when a write sets its fields by access code (R14); RWL fields change only when allowed. -/
def RegRow.apply (r : RegRow) (rwl : Bool) (old val : BitVec 32) : BitVec 32 :=
  let rw := BitVec.ofNat 32 (r.rw ||| (if rwl then r.rwl else 0))
  let v := (old &&& ~~~ rw) ||| (val &&& rw)
  (v &&& ~~~ (val &&& BitVec.ofNat 32 r.w1c)) ||| (val &&& BitVec.ofNat 32 r.w1s)

namespace Chip

/-! ### Availability -/

/-- The page's slot is empty on this part (R134). -/
def slotEmpty (c : Chip) (slot : Nat) : Bool :=
  match pageOf slot with
  | none => true
  | some (.tile, t) | some (.ary, t) | some (.drn, t) => c.tiles ≤ t
  | some (.hbm, s) => c.stackCnt ≤ s
  | some (.vxl, v) => c.vxls ≤ v
  | some _ => false

/-- The unit of a page is disabled by fuse or self-test (R86, R990). -/
def pageDis (c : Chip) (slot : Nat) : Bool :=
  match pageOf slot with
  | some (.tile, t) | some (.ary, t) | some (.drn, t) => !c.surv t
  | some (.hbm, s) => !c.surv (16 + s)
  | some (.dma, n) => !c.surv (20 + n)
  | some (.lst, _) => !c.surv 28
  | some (.tbl, _) => !c.surv 29
  | some (.pci, _) => !c.surv 30
  | some (.vxl, v) => !c.survx (16 + v)
  | some (.eth, e) => !c.survx (20 + e)
  | _ => false

/-- Tile t is in NAP (R904). -/
def napped (c : Chip) (t : Nat) : Bool := c.rb R.PWM.TPWR t

/-- PSTAT.PWR of a page: 0 on, 1 NAP, 2 retained, 3 off or disabled (R103). -/
def pagePwr (c : Chip) (slot : Nat) : Nat :=
  if c.pageDis slot then 3
  else match pageOf slot with
    | some (k, t) =>
      if k.aonDom then 0
      else if c.pwr.deep = 2 then 2
      else match tileOfSlot slot with
        | some _ => if c.napped t then 1 else 0
        | none => 0
    | none => 0

/-- Offsets of the block-specific registers that soft reset keeps: PBASE, ENTRY, PLEN, PFSTAT (R359) and SPBMAP, SPHASH,
SPPROT, SPSCRB (R242) of a TILE page. -/
def srstKeeps (k : PageKind) (ofs : Nat) : Bool :=
  k == .tile && ((0x048 ≤ ofs && ofs < 0x05C) || ofs == 0x060 || (0x200 ≤ ofs && ofs < 0x210))

/-- A page is in soft reset: by a write of SRST, or in the reset step of its kennel (R107, R155). -/
def inSrst (c : Chip) (slot : Nat) : Bool :=
  c.bus.srst.contains slot ||
    (match tileOfSlot slot with
     | some t => c.rf (R.KMAP.KSTAT (c.owner t)) 1 0 == 3
     | none => false)

/-- A page is busy with a soft reset or with the fill after an owner change (R107, R171). -/
def pageBusy (c : Chip) (slot : Nat) : Bool :=
  c.inSrst slot || (match tileOfSlot slot with | some t => (c.scratch t).fillAll | none => false)

/-- The page cannot be reached at all: a core-domain page while the core domain is in reset or the device is in DEEP
(R139). -/
def pageGone (c : Chip) (slot : Nat) : Bool :=
  match pageOf slot with
  | some (k, _) => !k.aonDom && (!c.coreUp || c.pwr.deep == 2)
  | none => false

/-- The owning kennel of a page (R105). -/
def pageOwner (c : Chip) (slot : Nat) : Nat :=
  match tileOfSlot slot with
  | some t => c.owner t
  | none => 0

/-! ### Reach -/

/-- The cascade manager's number as this device follows it (R127, R772). -/
def mgrId (c : Chip) : Nat := c.rf (R.VXL.CSTAT 0) 8 4

/-- A requester in K0 that has the reach of the PCIe physical function: every page but DBG, and no write of FUSE. -/
def reachK0 (k : PageKind) (write : Bool) : Bool :=
  match k with
  | .dbg => false
  | .fuse => !write
  | _ => true

/-- A requester in K1 to K7: its own pages, and for reads DEV and TICK (R127). -/
def reachOwn (own : Bool) (k : PageKind) (write : Bool) : Bool :=
  own || (!write && (k == .dev || k == .tick))

/-- The page is within the reach of a requester's path (R127); `ofs` is the offset in the page. -/
def inReach (c : Chip) (who : Who) (k : PageKind) (slot ofs : Nat) (write : Bool) : Bool :=
  let q := c.req who
  let own := c.pageOwner slot == q.ken
  match who with
  | .cc => true
  | .tile _ => if q.ken = 0 then reachK0 k write
      else reachOwn own k write || (write && k == .tick && ofs == 0x068)
  | .pf => reachK0 k write
  | .vf _ => if q.ken = 0 then reachK0 k write else reachOwn own k write
  | .smbus => if write then k == .aon else
      match k with
      | .dev | .aon | .swd | .fuse | .err | .pwm | .elg | .tick => true
      | _ => false
  | .dap => if c.rb R.DBG.DSTAT 0 then true else k == .dbg || (!write && k == .dev)
  | .remote d k' => k' == 0 && d.val == c.mgrId && reachK0 k write && k != .fuse
  | .cust _ => false

/-- The refusal of a register access, first in the order of R140: 0x0520, 0x0524, 0x0521, 0x0522, 0x0525; with the page
that captures it (R135). `wide` says that the access is not 32 bits wide or not aligned (R96). -/
def regRefusal (c : Chip) (who : Who) (key : Nat) (write wide : Bool) : Option (Nat × Nat) :=
  let slot := key / 0x1000
  let ofs := key % 0x1000
  if c.slotEmpty slot then (if write then some (6, 0x0520) else none)
  else match pageOf slot with
    | none => none
    | some (k, _) =>
      if wide || key % 4 != 0 then some (slot, 0x0524)
      else if !c.inReach who k slot ofs write then
        let q := c.req who
        let other := c.pageOwner slot != q.ken
        let tickWr := write && k == .tick && (match who with | .tile _ => true | _ => false)
        if other && !tickWr && who != .smbus then some (slot, 0x0522) else some (slot, 0x0521)
      else if c.pageGone slot then some (slot, 0x0525)
      else if write && c.pagePwr slot != 0 && ofs != 0x010 then some (slot, 0x0525)
      else if write && c.inSrst slot && 0x040 ≤ ofs then some (slot, 0x0525)
      else none

/-! ### Reads -/

/-- CSTAT.STATE of a core (R355). -/
def runCode : CoreRun → Nat
  | .stopped => 0 | .run => 1 | .waitt => 2 | .stalled => 3 | .halted => 4 | .frozen => 5 | .filling => 6

/-- CSTAT of a core (R355). -/
def cstat (k : Core) : BitVec 32 :=
  BitVec.ofNat 32 (runCode k.run + b2n k.relPend * 2 ^ 8 + b2n k.cfgErr * 2 ^ 15)

/-- Counted units of a watchdog: WDT units of 1,024 cycles, SWD nominal milliseconds (R920, R922). -/
def wdtUnits (c : Chip) (i : Nat) : Nat :=
  let w := nth {} c.wdt i
  if w.bark then w.period else if i < 17 then c.wdtTime i / (cyc 1024) else c.wdtTime i / (ms 1)

/-- The units before the service window opens (R923): a fraction of the period in force. -/
def wdtWindow (c : Chip) (i : Nat) : Nat :=
  let w := nth {} c.wdt i
  let f := if i < 17 then c.fuse.wwin.toNat else c.fuse.swin.toNat
  if f = 0 then 0 else w.period * 2 ^ (f - 1) / 8

/-- WSTc or SST (R938). -/
def wdtStat (c : Chip) (i : Nat) : BitVec 32 :=
  let w := nth {} c.wdt i
  let u := c.wdtUnits i
  let st := if !w.running then 0 else if w.bark then 3 else if u < c.wdtWindow i then 1 else 2
  if i < 17 then BitVec.ofNat 32 (st + b2n w.paused * 8 + u * 2 ^ 8)
  else BitVec.ofNat 32 (st + b2n w.paused * 4 + u * 2 ^ 16)

/-- A word of the head entry of the ERR log (R985, R999). -/
def errHead (c : Chip) (i : Nat) : BitVec 32 :=
  match c.err.log with
  | [] => 0
  | e :: _ => BitVec.ofNat 32 (match i with
    | 0 => e.code + e.slot * 2 ^ 16 + e.path * 2 ^ 28
    | 1 => e.ken + e.count * 2 ^ 16
    | 2 => e.gtime
    | 3 => e.gtime / 2 ^ 32
    | 4 => e.addr
    | _ => e.addr / 2 ^ 32 % 2 ^ 16 + e.fnum * 2 ^ 16)

/-- A word of the head entry of a tile's slip log (R238, R239). -/
def slipHead (c : Chip) (t i : Nat) : BitVec 32 :=
  match (c.scratch t).slips with
  | [] => 0
  | e :: _ => BitVec.ofNat 32 (match i with
    | 0 => e.ctx + e.slot * 2 ^ 4 + e.kind * 2 ^ 8 + e.bundle / 2 ^ 32 * 2 ^ 16
    | 1 => e.frame
    | _ => e.bundle)

/-- SPSTAT.POIS: the quads of a tile that hold a poisoned chunk (R238). -/
def poisQuads (c : Chip) (t : Nat) : Nat :=
  let q := c.spSize / 8
  let b := 0x1000000000 + t * 0x800000
  (List.range 8).foldl (fun x i => x + (if c.ecc.any (fun e => e.2 == .poison && b + i * q ≤ e.1 && e.1 < b + (i + 1) * q)
    then 2 ^ i else 0)) 0

/-- A header register of a page as it reads when the page is on (R103 to R112). -/
def peekHdr (c : Chip) (k : PageKind) (inst slot ofs : Nat) : BitVec 32 :=
  if ofs = 0x000 then BitVec.ofNat 32 (k.typ * 2 ^ 24 + inst * 2 ^ 16 + 0x0100)
  else if ofs = 0x004 then BitVec.ofNat 32 (c.fuse.rev.toNat * 2 ^ 24 + c.fuse.blsup.toNat)
  else if ofs = 0x008 then BitVec.ofNat 32 k.cap
  else if ofs = 0x00C then
    let v := setFld (c.r (slot * 0x1000 + 0x00C)) 2 0 (c.pageOwner slot)
    if k.lockable then v else setBit v 3 false
  else if ofs = 0x034 then (if k.cap.testBit 2 then BitVec.ofNat 32 (c.penrg slot) else 0)
  else if ofs = 0x010 ∧ ¬k.hasFrz then setBit (c.r (slot * 0x1000 + ofs)) 2 false
  else if ofs = 0x014 then
    let v := setFld (c.r (slot * 0x1000 + ofs)) 3 2 (c.pagePwr slot)
    let v := setBit v 0 (bit v 0 || c.pageBusy slot)
    setBit v 7 (c.pageDis slot)
  else c.r (slot * 0x1000 + ofs)

/-- A block-specific register as it reads when the page is on. -/
def peekBlk (c : Chip) (k : PageKind) (inst key : Nat) : BitVec 32 :=
  let ofs := key % 0x1000
  match k with
  | .dev =>
    if ofs = 0x040 then BitVec.ofNat 32 (c.fuse.part.toNat * 2 ^ 16 + c.fuse.rev.toNat * 2 ^ 8)
    else if ofs = 0x044 then c.feat
    else if ofs = 0x058 then BitVec.ofNat 32 (b2n c.pwr.mgr + c.pwr.smba.toNat * 2)
    else c.r key
  | .aon =>
    if ofs = 0x0B0 then BitVec.ofNat 32 c.gtime else if ofs = 0x0B4 then BitVec.ofNat 32 (c.gtime / 2 ^ 32) else c.r key
  | .fuse =>
    if ofs = 0x100 then c.fuse.udis0.setWidth 32 else if ofs = 0x104 then c.fuse.udis1.setWidth 32 else c.r key
  | .swd =>
    if ofs = 0x044 then BitVec.ofNat 32 (c.fuse.swin.toNat + c.fuse.spw.toNat * 4)
    else if ofs = 0x04C then c.wdtStat 17 else c.r key
  | .wdt =>
    if ofs = 0x040 then BitVec.ofNat 32 (c.fuse.wwin.toNat + c.fuse.whard.toNat * 4)
    else if 0x100 ≤ ofs ∧ ofs < 0x210 ∧ ofs % 16 = 8 then c.wdtStat ((ofs - 0x100) / 16)
    else c.r key
  | .err => if 0x050 ≤ ofs ∧ ofs < 0x068 then c.errHead ((ofs - 0x050) / 4) else c.r key
  | .dbg =>
    if ofs = 0x040 then setFld (c.r key) 9 8 c.fuse.dmode.toNat
    else if ofs = 0x048 then c.dbg.nonce.setWidth 32
    else if ofs = 0x04C then (c.dbg.nonce >>> 32).setWidth 32
    else c.r key
  | .elg =>
    let sat (x : Nat) : BitVec 32 := BitVec.ofNat 32 (min x 0xFFFFFF)
    let g := c.elg
    if ofs = 0x04C then setFld (c.r key) 17 16 g.mlvl
    else if ofs = 0x078 then BitVec.ofNat 32 (wrapN 16 g.calErr)
    else if ofs = 0x080 then sat g.tovh else if ofs = 0x084 then sat (g.pool / 1000000) else if ofs = 0x088 then sat g.ovhmet
    else if 0x100 ≤ ofs ∧ ofs < 0x180 ∧ ofs % 16 = 12 then setBit (c.r key) 1 (nth false g.rsv ((ofs - 0x100) / 16))
    else if 0x200 ≤ ofs ∧ ofs < 0x280 then
      let k := (ofs - 0x200) / 16
      match ofs % 16 with
      | 0 => sat (nth 0 g.chg k / 1000000)
      | 4 => sat (nth 0 g.klast k)
      | 8 => sat (nth 0 g.res k)
      | _ => sat (nth 0 g.debt k)
    else c.r key
  | .vxl =>
    if inst = 0 ∧ ofs = 0x0B8 then c.fuse.uid.setWidth 32
    else if inst = 0 ∧ ofs = 0x0BC then (c.fuse.uid >>> 32).setWidth 32
    else c.r key
  | .eth =>
    let e := nth {} c.egr.eth inst
    let ts (l : List (Nat × Nat)) : Nat := (l.head?.map (·.1)).getD 0
    let id (l : List (Nat × Nat)) : Nat := (l.head?.map (·.2)).getD 0
    match ofs with
    | 0x080 => BitVec.ofNat 32 (ts e.tsrx)
    | 0x084 => BitVec.ofNat 32 (ts e.tsrx / 2 ^ 32)
    | 0x088 => BitVec.ofNat 32 (ts e.tstx)
    | 0x08C => BitVec.ofNat 32 (ts e.tstx / 2 ^ 32)
    | 0x090 => BitVec.ofNat 32 (id e.tsrx)
    | 0x094 => BitVec.ofNat 32 (id e.tstx)
    | 0x098 => setFld (setFld (c.r key) 4 0 e.tsrx.length) 12 8 e.tstx.length
    | _ => if 0x200 ≤ ofs ∧ ofs < 0x240 ∧ ofs % 8 = 4 then BitVec.ofNat 32 (nth {} e.qs ((ofs - 0x204) / 8)).recs.length else c.r key
  | .tick =>
    if (ofs = 0x098 ∨ ofs = 0x09C) ∧ c.rf (R.VXL.CSTAT 0) 2 0 ≠ 3 then c.r (key - 0x18) else c.r key
  | .pwm =>
    if ofs = 0x040 then
      let st := c.rf R.TICK.TSTAT 1 0
      BitVec.ofNat 32 (if c.pwr.deep = 1 ∨ c.pwr.deep = 2 then 2 else if c.pwr.deep = 3 then 3 else if st = 1 ∨ st = 2 then 0 else 1)
    else c.r key
  | .tile =>
    if ofs = 0x044 then cstat (c.core inst)
    else if ofs = 0x084 then setBit (c.r key) 2 (decide (c.cycle < (c.core inst).vBeat))
    else if ofs = 0x218 then
      let v := setBit (c.r key) 1 (!(c.scratch inst).zfill.isEmpty)
      setFld v 15 8 (c.poisQuads inst)
    else if ofs = 0x344 then c.slipHead inst 0 else if ofs = 0x348 then c.slipHead inst 1
    else if ofs = 0x34C then c.slipHead inst 2
    else c.r key
  | .cc => if ofs = 0x044 then cstat (c.core 16) else if !c.hasCust && 0x0C0 ≤ ofs && ofs < 0x0CC then 0 else c.r key
  | _ => c.r key

/-- What a register reads as, with no side effect: the WO fields read 0 (R14), and a page that is not on reads only part
of its header (R138). An empty slot reads 0 (R137). -/
def peek (c : Chip) (key : Nat) : BitVec 32 :=
  let slot := key / 0x1000
  let ofs := key % 0x1000
  if c.slotEmpty slot then 0
  else match pageOf slot with
    | none => 0
    | some (k, i) =>
      let pwr := c.pagePwr slot
      if pwr ≠ 0 then
        if ofs < 0x010 ∨ ofs = 0x014 then c.peekHdr k i slot ofs
        else if pwr = 2 ∧ 0x024 ≤ ofs ∧ ofs < 0x030 ∨ pwr = 2 ∧ ofs = 0x034 then c.peekHdr k i slot ofs
        else 0
      else if ofs < 0x040 then c.peekHdr k i slot ofs
      else match rowAt k i ofs with
        | some r => (if c.inSrst slot && !srstKeeps k ofs then resetOf key else c.peekBlk k i key) &&& ~~~ (BitVec.ofNat 32 r.wo)
        | none => 0

/-! ### Refusals -/

/-- A refusal reaches its requester (R136). A core takes it as a bus error unless it is stopped (R360); a remote device
and the customer port get the code in their response, which their commands form. -/
def deliver (c : Chip) (who : Who) (code addr : Nat) : Chip :=
  match who with
  | .cc => c.modCore 16 fun k => if k.run = .stopped then k
      else { k with busErrs := k.busErrs ++ [⟨code, addr, k.pc.toNat⟩] }
  | .tile t => c.modCore t fun k => if k.run = .stopped then k
      else { k with busErrs := k.busErrs ++ [⟨code, addr, k.pc.toNat⟩] }
  | .pf | .vf _ => c.emit (.pcie true [])
  | .smbus => (c.wf R.AON.SMBST 15 0 code).emit (.smbus false 0)
  | .dap => c.wb R.DBG.DSTAT 3 true
  | .remote .. | .cust _ => c

/-- An access is refused: its code is reported to the page that captures it and delivered to the requester (R136). -/
def refuse (c : Chip) (who : Who) (slot code addr : Nat) : Chip :=
  (c.report slot code .refusal (c.req who) addr).deliver who code addr

/-- Address of a register in the device's address space (R84). -/
abbrev regAddr (key : Nat) : Nat := 0x100000000 + key

/-! ### Writes -/

/-- Whether a register row is a _LO or a _HI word of a 64-bit register (R99), by page kind and offset. -/
def loHi (k : PageKind) (inst ofs : Nat) : Option Bool :=
  let pair (o : Nat) : Option Bool := if o = 0 then some false else if o = 4 then some true else none
  if ofs = 0x028 ∨ ofs = 0x02C then pair (ofs - 0x028)
  else match k with
  | .aon => if 0x0B0 ≤ ofs ∧ ofs < 0x0B8 then pair (ofs - 0x0B0) else none
  | .swd => if 0x100 ≤ ofs ∧ ofs < 0x340 ∧ (ofs - 0x100) % 32 < 0x18 then pair ((ofs - 0x100) % 8) else none
  | .tick => if 0x080 ≤ ofs ∧ ofs < 0x0A0 then pair (ofs % 8) else none
  | .dbg => if ofs = 0x048 ∨ ofs = 0x04C then pair (ofs - 0x048)
      else if 0x100 ≤ ofs ∧ ofs < 0x140 ∧ (ofs % 16) < 8 then pair (ofs % 8) else none
  | .hbm => if 0x060 ≤ ofs ∧ ofs < 0x080 then pair (ofs % 8) else none
  | .lrn => if 0x0B8 ≤ ofs ∧ ofs < 0x0C8 then pair (ofs % 8) else none
  | .pci =>
    if ofs = 0x048 ∨ ofs = 0x04C ∨ 0x500 ≤ ofs ∧ ofs < 0x508 then pair (ofs % 8)
    else if 0x088 ≤ ofs ∧ ofs < 0x0C8 then pair (ofs % 8)
    else if 0x100 ≤ ofs ∧ ofs < 0x340 then
      let o := (ofs - 0x100) % 0x40
      if o < 0x10 then pair (o % 8) else if 0x18 ≤ o ∧ o < 0x28 ∨ 0x30 ≤ o ∧ o < 0x38 then pair (o % 8) else none
    else if 0x400 ≤ ofs ∧ ofs < 0x500 then
      let o := (ofs - 0x400) % 0x20
      if o < 8 then pair o else if 0x0C ≤ o ∧ o < 0x14 then pair (o - 0x0C) else none
    else none
  | .eth =>
    if ofs = 0x048 ∨ ofs = 0x04C ∨ ofs = 0x070 ∨ ofs = 0x074 ∨ 0x080 ≤ ofs ∧ ofs < 0x090 then pair (ofs % 8)
    else if inst = 0 ∧ (ofs = 0x0A8 ∨ ofs = 0x0AC) then pair (ofs % 8)
    else if 0x100 ≤ ofs ∧ ofs < 0x200 ∧ (4 ≤ ofs % 32 ∧ ofs % 32 < 12) then pair (ofs % 32 - 4) else none
  | .vxl => if ofs = 0x050 ∨ ofs = 0x054 then pair (ofs - 0x050)
      else if inst = 0 ∧ (ofs = 0x0B8 ∨ ofs = 0x0BC) then pair (ofs - 0x0B8) else none
  | .tile => if 0x048 ≤ ofs ∧ ofs < 0x058 ∨ 0x070 ≤ ofs ∧ ofs < 0x078 then pair (ofs % 8) else none
  | .cc => if 0x070 ≤ ofs ∧ ofs < 0x078 then pair (ofs % 8) else none
  | _ => none

/-- The page accepts writes of its RWL fields from this requester: it is unlocked, by this requester (R117). -/
def rwlOk (c : Chip) (who : Who) (slot : Nat) : Bool :=
  let p := c.r (R.H.POWN slot)
  let q := c.req who
  !bit p 3 && fld p 7 4 == q.path && fld p 10 8 == q.ken

/-- A write that meets an RWL field it may not set: PSTAT.LKW and event 0x0523 (R118). -/
def lockedWrite (c : Chip) (who : Who) (key : Nat) : Chip :=
  (c.wb (R.H.PSTAT (key / 0x1000)) 5 true).report (key / 0x1000) 0x0523 .event (c.req who) (regAddr key)

/-- A write that carries a 1 in a reserved bit: PSTAT.RSVW (R16). -/
def rsvWrite (c : Chip) (slot : Nat) : Chip := c.wb (R.H.PSTAT slot) 4 true

/-- A write sets the fields of one register by access code, with the effects on RSVW and LKW (R14, R16, R118, R120). -/
def putReg (c : Chip) (who : Who) (key : Nat) (val : BitVec 32) : Chip :=
  match rowOf key with
  | none => if val = 0 then c else c.rsvWrite (key / 0x1000)
  | some r =>
    let ok := c.rwlOk who (key / 0x1000)
    let c := c.w key (r.apply ok (c.r key) val)
    let c := if r.rwl ≠ 0 ∧ ¬ok then c.lockedWrite who key else c
    if val &&& r.reserved = 0 then c else c.rsvWrite (key / 0x1000)

/-- A register value is refused with code 0x0526 in the page's PERRC; the register keeps its value. -/
def badValue (c : Chip) (who : Who) (key : Nat) : Chip :=
  c.report (key / 0x1000) 0x0526 .event (c.req who) (regAddr key)

/-- A register row has RWL fields and this requester may not write them. -/
def lockedOut (c : Chip) (who : Who) (key : Nat) : Bool := !c.rwlOk who (key / 0x1000)

/-- The requester's captured upper half and held lower half of a page are used up by its next access (R99, R100). -/
def dropHalves (c : Chip) (who : Who) (slot : Nat) : Chip :=
  { c with bus := { c.bus with cap := c.bus.cap.filter (fun x => x.1 != slot || x.2.1 != who),
                               held := c.bus.held.filter (fun x => x.1 != slot || x.2.1 != who) } }

/-- The held lower half that a _HI write completes. -/
def heldLo (c : Chip) (who : Who) (key : Nat) : Option (BitVec 32) :=
  (c.bus.held.find? (fun x => x.1 == key / 0x1000 && x.2.1 == who && x.2.2.1 == key)).map (·.2.2.2)

/-! ### Locking -/

/-- Lock a page (R116). -/
def lockPage (c : Chip) (slot : Nat) : Chip := c.wb (R.H.POWN slot) 3 true

/-- Unlock a page for a requester (R114). -/
def unlockPage (c : Chip) (who : Who) (slot : Nat) : Chip :=
  let q := c.req who
  c.w (R.H.POWN slot) (BitVec.ofNat 32 (q.path * 2 ^ 4 + q.ken * 2 ^ 8))

/-- A write to a page outside its PKEY abandons an unlock sequence (R115). -/
def dropUnlock (c : Chip) (slot : Nat) : Chip :=
  { c with bus := { c.bus with unlk := c.bus.unlk.filter (fun x => x.1 != slot) } }

/-- A write to PKEY (R114 to R116). -/
def pkeyWrite (c : Chip) (who : Who) (k : PageKind) (slot : Nat) (val : BitVec 32) : Chip :=
  if !k.lockable then c else
  let had := c.bus.unlk.contains (slot, who)
  let c := c.dropUnlock slot
  if had && val == 0xAAB1B3B4 then c.unlockPage who slot
  else if val = 0x4C4F434B then c.lockPage slot
  else if val = 0x554E4C4B then { c with bus := { c.bus with unlk := (slot, who) :: c.bus.unlk } }
  else c

end Chip
end Sys2Proof.Machine
end

