-- ==== Sys2Proof/Machine/Port.lean ====
section
/-!
DEFINITION. The customer port: its messages and credits, and how a command of it ends.
-/
namespace Sys2Proof.Machine

/-- Data flits of a message's data (R337). -/
def CustOut.ndat (o : CustOut) : Nat := (o.data.length + 63) / 64

namespace Chip

def custSt (c : Chip) (t : Nat) : CustSt := nth {} c.cust t

/-- Commands of a tile that wait in its queue, and that are outstanding (R336). -/
def custQueued (c : Chip) (t : Nat) : Nat := ((c.custSt t).queue.filter (fun q => !q.sent)).length
def custOut (c : Chip) (t : Nat) : Nat := ((c.custSt t).queue.filter (·.sent)).length

/-- CXST and CPST as they follow from the queues (R343). -/
def showCust (c : Chip) (t : Nat) : Chip :=
  let c := c.wf (R.TILE.CXST t) 3 0 (c.custQueued t)
  c.wf R.CC.CPST 15 8 ((List.range 16).foldl (fun n t => n + c.custOut t) 0)

def modCust (c : Chip) (t : Nat) (f : CustSt → CustSt) : Chip := ({ c with cust := modNth f c.cust t }).showCust t

/-- CPST.STATE (R343): 2 is UP. -/
def custUp (c : Chip) : Bool := c.rf R.CC.CPST 1 0 == 2

/-- A message leaves the port with the credits it returns: its header and its data flits (R337, R341). -/
def custEmit (c : Chip) (mt tile ken tag ndat fn addr len code da db : Nat) (tail : List (BitVec 8)) : Chip :=
  let b (x : Nat) : BitVec 8 := BitVec.ofNat 8 x
  let cr := min 64 c.cport.owed
  let c := c.meter 4 1 (if mt = 0 then 8 else ken) (1 + ndat)
  let h := [b mt, b (tile + ken * 16)] ++ bytesLE 2 tag ++ [b ndat, b fn, b cr, 0] ++ bytesLE 6 addr ++ bytesLE 2 len
    ++ bytesLE 2 code ++ bytesLE 3 da ++ bytesLE 3 db
  ({ c with cport := { c.cport with owed := c.cport.owed - cr, tx := c.cport.tx - (1 + ndat) } }).emit (.cust mt tag code (h ++ tail))

/-- Bytes with zeros after them up to a length. -/
def padZ (n : Nat) (bs : List (BitVec 8)) : List (BitVec 8) := bs ++ List.replicate (n - bs.length) 0

/-- The oldest waiting message is sent when the port holds credit for all its flits (R341). -/
def custPump1 (c : Chip) : Option Chip :=
  match c.cport.outq with
  | [] => none
  | o :: rest =>
    if c.custUp ∧ 1 + o.ndat ≤ c.cport.tx then
      let c := { c with cport := { c.cport with outq := rest } }
      some (c.custEmit o.mt o.tile o.ken o.tag o.ndat 0 o.addr o.len o.code 0 0 (padZ 40 [] ++ padZ (64 * o.ndat) o.data))
    else none

def custPumpN : Nat → Chip → Chip
  | 0, c => c
  | n + 1, c => match c.custPump1 with
    | some c => custPumpN n c
    | none => c

def custPump (c : Chip) : Chip := custPumpN c.cport.outq.length c

/-- Queue a message to the chiplet. -/
def custSay (c : Chip) (o : CustOut) : Chip := ({ c with cport := { c.cport with outq := c.cport.outq ++ [o] } }).custPump

/-- Command `i` of a tile's queue ends without completing: its TAG is retired, ABT counts it, and an ABORT follows its CMD
(R340). A CXFENCE ends without its ring command. -/
def custEnd (c : Chip) (t i : Nat) : Chip :=
  match (c.custSt t).queue[i]? with
  | none => c
  | some q =>
    let c := c.modCust t fun u => { u with queue := u.queue.eraseIdx i }
    match q.a with
    | .cxcmd .. =>
      let c := c.cnt (R.TILE.CXERR t) 31 16 1
      if q.sent && c.custUp then c.custSay { mt := 0x07, tile := t, ken := q.ken, tag := q.tag } else c
    | _ => c

/-- Every command of a tile ends (R340). -/
def custEndTile (c : Chip) (t : Nat) : Chip :=
  let c := (c.custSt t).queue.foldl (fun c _ => c.custEnd t 0) c
  c.modCust t fun u => { u with ntf := [] }

end Chip
end Sys2Proof.Machine
end

