-- ==== Sys2Proof/Machine/Kfault.lean ====
section
/-!
DEFINITION. Core registers by number, delivery of loads, stopping and freezing of cores, and the capture of a kennel
fault.
-/
namespace Sys2Proof.Machine

/-! ### Core registers -/

/-- A data register (R296). -/
def Core.D (k : Core) (r : Nat) : BitVec 24 := nth 0 k.d r
/-- An address register (R296). -/
def Core.A (k : Core) (r : Nat) : BitVec 48 := nth 0 k.a r
/-- An accumulator (R296). -/
def Core.X (k : Core) (r : Nat) : BitVec 72 := nth 0 k.x r
/-- A vector register (R296). -/
def Core.V (k : Core) (r : Nat) : BitVec 3072 := nth 0 k.v r
/-- A vector mask (R296). -/
def Core.M (k : Core) (r : Nat) : BitVec 384 := nth 0 k.m r
/-- A vector accumulator (R296). -/
def Core.VA (k : Core) (r : Nat) : BitVec 6144 := nth 0 k.va r
/-- A predicate: P0 reads 1 (R296). -/
def Core.P (k : Core) (r : Nat) : Bool := r == 0 || k.p.getLsbD r

def Core.setD (k : Core) (r : Nat) (v : BitVec 24) : Core := { k with d := k.d.set r v }
def Core.setA (k : Core) (r : Nat) (v : BitVec 48) : Core := { k with a := k.a.set r v }
def Core.setX (k : Core) (r : Nat) (v : BitVec 72) : Core := { k with x := k.x.set r v }
def Core.setV (k : Core) (r : Nat) (v : BitVec 3072) : Core := { k with v := k.v.set r v }
def Core.setM (k : Core) (r : Nat) (v : BitVec 384) : Core := { k with m := k.m.set r v }
def Core.setVA (k : Core) (r : Nat) (v : BitVec 6144) : Core := { k with va := k.va.set r v }
/-- Write a predicate; a write to P0 is discarded (R296). -/
def Core.setP (k : Core) (r : Nat) (b : Bool) : Core :=
  if r = 0 then k
  else { k with p := if b then k.p ||| BitVec.ofNat 8 (2 ^ r) else k.p &&& ~~~ (BitVec.ofNat 8 (2 ^ r)) }

/-- The bits of the bytes that a byte mask selects. -/
def spread (w n : Nat) (m : Nat) : BitVec w :=
  BitVec.ofNat w ((List.range n).foldl (fun x i => if m.testBit i then x + 255 * 2 ^ (8 * i) else x) 0)

/-- Put a vector value into the bytes a mask selects. -/
def mergeV (old new : BitVec 3072) (m : BitVec 384) : BitVec 3072 :=
  let s := spread 3072 384 m.toNat
  (old &&& ~~~ s) ||| (new &&& s)

/-- Bad parity of a register's parts is gone once all of the part's bytes have been written (R468). -/
def Core.fixPar (k : Core) (cls r : Nat) (parts : Nat → Bool) : Core :=
  { k with badPar := k.badPar.filter (fun x => !(x.1 == cls && x.2.1 == r && parts x.2.2)) }

/-- Write the destination of a load whose value has returned (R308). -/
def Core.deliver (k : Core) (l : Load) : Core :=
  match l.val with
  | none => k
  | some v =>
    match l.dest with
    | .d r => k.setD r (BitVec.ofNat 24 v)
    | .a r => k.setA r (BitVec.ofNat 48 v)
    | .str => { k with strData := k.strData ++ [(l.addr, bytesLE l.size v)] }
    | .v r m => (k.setV r (mergeV (k.V r) (BitVec.ofNat 3072 v) m)).fixPar 0 r
        (fun p => (List.range 8).all (fun i => m.getLsbD (8 * p + i)))

/-- Every outstanding load writes its destination (R319, R349, R358). -/
def Core.flush (k : Core) : Core := { k.loads.foldl Core.deliver k with loads := [] }

/-- Every outstanding load has its value. -/
def Core.loadsIn (k : Core) : Bool := k.loads.all (·.val.isSome)

namespace Chip

/-! ### Stopping and freezing -/

/-- KSTAT.STATE of a kennel: 0 ACTIVE, 1 FREEZING, 2 FROZEN, 3 RESETTING (R155). -/
def kstate (c : Chip) (k : Nat) : Nat := c.rf (R.KMAP.KSTAT k) 1 0

/-- A kennel is deferred by the energy ledger (R855). -/
def deferred (c : Chip) (k : Nat) : Bool := c.rb (R.ELG.KST k) 0

/-- A core is to stand frozen: a tile's by its page (R358), its kennel (R155, R174) or a deferral (R855), but for a step of a core
whose own halt has frozen the kennel (R959); the control core from an accepted DEEPC.GO on (R909). -/
def coreFrz (c : Chip) (t : Nat) : Bool :=
  if t = 16 then c.pwr.deep != 0
  else ((c.kstate (c.owner t) != 0 || c.deferred (c.owner t)) && !(c.dbg.stepping.contains t && c.dbg.frzk.contains (c.owner t)))
    || c.rb (R.H.PCTL (slotTile t)) 2

/-- A core is asked to halt: a debug halt is due (R956). -/
def haltDue (c : Chip) (k : Nat) : Option Nat := (c.dbg.haltReq.find? (fun x => x.1 == k)).map (·.2)

/-- Stop, freeze or resume a core as the causes stand, at the bundle boundary it has reached and once every outstanding
load has written its destination (R349, R358). A bundle that waits has not issued. -/
def syncCore (c : Chip) (k : Nat) : Chip :=
  let x := c.core k
  if x.run = .stopped ∨ x.run = .filling then c
  else if x.stopReq ∧ x.loadsIn then
    (c.modCore k fun x => { x.flush with run := .stopped, stopReq := false, bundle := [], held := false }).wb R.DBG.HSTAT k false
  else if x.run = .halted then c
  else if c.coreFrz k then
    if x.run = .frozen ∨ ¬x.loadsIn then c
    else c.modCore k fun x => { x.flush with before := x.run, run := .frozen }
  else if x.run = .frozen then
    c.modCore k fun x =>
      if x.before = .waitt ∧ x.relPend then { x with run := .run, relPend := false } else { x with run := x.before }
  else c

/-- The cores of a kennel's tiles follow its state. -/
def syncKennel (c : Chip) (k : Nat) : Chip := (c.tilesOf k).foldl syncCore c

/-! ### Kennel faults -/

/-- Code 0x0510 reaches ERR.PIRQS.KF and vector 2 of the kennel's virtual function at once (R987). -/
def kfSignal (c : Chip) (k : Nat) : Chip :=
  let c := c.setIrq 6 4
  match c.vfOf k with
  | some v => if k = 0 then c else c.msi v 2
  | none => c

/-- The ledger reserves: head cycles 257 to 1,023 of a tick (R851, R874). -/
def inReserve (c : Chip) : Bool :=
  match c.tick.edgeAt with
  | some e => decide (e + cyc 257 ≤ c.now) && decide (c.now ≤ e + cyc 1023)
  | none => false

/-- Capture of a kennel fault of kennel `k` with its code, once reported (R154, R155, R158, R340, R930). -/
def takeFault (c : Chip) (code path k : Nat) : Chip :=
  if c.rb (R.KMAP.KSTAT k) 3 then c
  else
    let c := (c.wb (R.KMAP.KSTAT k) 3 true).wf (R.KMAP.KSTAT k) 31 16 code
    let c := (c.report 0x00C 0x0510 .event ⟨path, k⟩ 0).kfSignal k
    let c := c.wf (R.TICK.KSLOT k) 1 0 0
    let c := c.modTick fun t => { t with kslot := modNth (fun v => setFld v 1 0 0) t.kslot k }
    let c := (c.tilesOf k).foldl (fun c t => (c.custEndTile t).wdtZero t) c
    let was := c.kstate k
    let c := { c with kens := modNth (fun s => { s with fltSeq := true, inRes := c.inReserve,
                                                        tiles := c.tilesOf k }) c.kens k }
    if was = 0 then (c.wf (R.KMAP.KSTAT k) 1 0 1).syncKennel k
    else if was = 2 then c.wf (R.KMAP.KSTAT k) 1 0 3
    else c

/-- A kennel fault: its code is reported to the capturing page and the fault is taken (R109, R151, R155). -/
def kfault (c : Chip) (slot code : Nat) (q : Req) (addr k : Nat) : Chip :=
  (c.report slot code .kfault q addr).takeFault code q.path k

end Chip
end Sys2Proof.Machine
end

