-- ==== Sys2Proof/Machine/Mem.lean ====
section
/-!
DEFINITION. Memory accesses: the address map, the fence, the restrictions of each region, the scratchpad's bank map and
ring windows, and error correction.
-/
namespace Sys2Proof.Machine

/-- A region of the address map (R84, R94). -/
inductive Region where
  | ccMem | trace | rom | regs
  | sp (t : Nat)
  | line | table | mram | hbm
  | remote (d : Nat)
  | hole
  deriving DecidableEq, Repr

/-- An access's outcome. -/
inductive Res where
  /-- It was performed. -/
  | ok
  /-- It was refused with a code, to be delivered to its requester (R136). -/
  | refused (code : Nat)
  /-- It was not performed and a kennel fault with a code was taken. -/
  | fault (code : Nat)
  /-- It waits on a tagged ring context of a tile (R215). -/
  | stall (t ctx : Nat)
  deriving DecidableEq, Repr

/-- A memory access's outcome, the bytes it read, and the device afterwards. -/
structure Ans where
  res : Res
  data : List (BitVec 8)
  chip : Chip
  deriving DecidableEq, Repr

/-- Who makes a memory access, and the bundle that issued it (R145, R217). -/
structure Mover where
  ag : Agent
  bundle : Nat := 0xFFFFFFFFFFFF
  deriving DecidableEq, Repr

/-- Base of a tile's scratchpad, of an HBM stack, of a remote window (R84). -/
abbrev spBase (t : Nat) : Nat := 0x1000000000 + t * 0x800000
abbrev hbmBase (s : Nat) : Nat := 0x100000000000 + s * 0x400000000
abbrev winBase (d : Nat) : Nat := 0x800000000000 + d * 0x10000000000

/-- `n` zero bytes. -/
def zeros (n : Nat) : List (BitVec 8) := List.replicate n 0

/-- Bytes `a` to `a + n - 1` lie in a range. -/
def within (a n base size : Nat) : Bool := base ≤ a && a + n ≤ base + size

namespace Chip

/-! ### The address map -/

/-- This device's number (R797). -/
def devNum (c : Chip) : Nat := c.rf (R.VXL.CNUM 0) 4 0

/-- The local address of an access through the window of this device (R89, R90). -/
def ownWindow (c : Chip) (a n : Nat) : Nat :=
  let b := winBase c.devNum
  if within a n b 0x1000000000 then 0x100000000000 + (a - b)
  else if within a n (b + 0x1000000000) 0x8000000 then 0x1000000000 + (a - b - 0x1000000000)
  else if within a n (b + 0x2000000000) 0x1800000 then 0x2000000000 + (a - b - 0x2000000000)
  else if within a n (b + 0xF000000000) 0x1000000 then 0x100000000 + (a - b - 0xF000000000)
  else a

/-- An access lies within one range of a remote window (R89, R94). -/
def inWindow (a n d : Nat) : Bool :=
  let b := winBase d
  within a n b 0x1000000000 || within a n (b + 0x1000000000) 0x8000000 || within a n (b + 0x2000000000) 0x1800000
    || within a n (b + 0xF000000000) 0x1000000

/-- The one region that holds an access of `n` bytes; a hole where there is none (R84, R85, R94). -/
def regionOf (c : Chip) (a n : Nat) : Region :=
  if within a n 0 0x200000 then .ccMem
  else if within a n 0x40000000 0x200000 then .trace
  else if within a n 0x80000000 0x40000 then .rom
  else if within a n 0x100000000 0x1000000 then .regs
  else if 0x1000000000 ≤ a ∧ a < 0x1008000000 then
    let t := (a - 0x1000000000) / 0x800000
    if t < c.tiles && within a n (spBase t) c.spSize then .sp t else .hole
  else if within a n 0x2000000000 0x1800000 then .line
  else if within a n 0x2800000000 0x400000 then .table
  else if within a n 0x3000000000 0x400000 then .mram
  else if within a n 0x100000000000 (c.stackCnt * 0x400000000) then .hbm
  else if 0x800000000000 ≤ a ∧ a < 0xA00000000000 then
    let d := (a - 0x800000000000) / 0x10000000000
    if d != c.devNum && inWindow a n d then .remote d else .hole
  else .hole

/-- The interleave in force is STACK (R251, R254, R255). -/
def stackMode (c : Chip) : Bool := c.rb (R.HBM.STAT 0) 3

/-- The stack that an HBM byte lies on (R251, R252). -/
def stackOf (c : Chip) (a : Nat) : Nat :=
  if c.stackMode then (a - 0x100000000000) / 0x400000000
  else
    let w := if c.stackCnt = 2 then 6 else 7
    let g := (a - 0x100000000000) / 256
    let p := (List.range 6).foldl (fun x i => x ^^^ (g / 2 ^ (w * i) % 2 ^ w)) 0
    p / 32

/-- The pseudo-channel, within its stack, of an HBM byte (R252). -/
def pchanOf (c : Chip) (a : Nat) : Nat :=
  if c.stackMode then
    let g := (a - 0x100000000000) % 0x400000000 / 256
    (List.range 6).foldl (fun x i => x ^^^ (g / 2 ^ (5 * i) % 32)) 0
  else
    let w := if c.stackCnt = 2 then 6 else 7
    let g := (a - 0x100000000000) / 256
    (List.range 6).foldl (fun x i => x ^^^ (g / 2 ^ (w * i) % 2 ^ w)) 0 % 32

/-- Where a scratchpad byte physically lies: bank and row under the quad's hash (R187, R194). -/
def spLoc (c : Chip) (t o : Nat) : Nat :=
  let q := c.spSize / 8
  let qi := o / q
  let l := o % q / 64
  let h := c.rf (R.TILE.SPHASH t) (3 * qi + 2) (3 * qi)
  let b := if h = 0 then l % 4 else (l + l / 2 ^ (2 * h)) % 4
  spBase t + qi * q + b * (q / 4) + l / 4 * 64 + o % 64

/-- The key under which memory holds a byte of a region. -/
def locOf (c : Chip) (g : Region) (a : Nat) : Nat :=
  match g with
  | .sp t => c.spLoc t (a - spBase t)
  | _ => a

/-- The number of a region among those whose contents can be lost. -/
def lostId (c : Chip) (g : Region) (a : Nat) : Nat :=
  match g with
  | .ccMem => 0 | .trace => 1 | .line => 2 | .table => 3
  | .hbm => 4 + c.stackOf a
  | .sp t => 16 + t
  | _ => 99

/-- What a byte of a region holds beside what has been written: nothing, or a free value where its contents were lost. -/
def under (c : Chip) (g : Region) (a : Nat) : BitVec 8 :=
  match getKey 0 c.lost (c.lostId g a) with
  | 0 => 0
  | n => Config.lostByte n a

/-- A byte of the plastic store: the committed logical pages (R690). -/
def plByte (c : Chip) (a : Nat) : BitVec 8 :=
  let o := a - 0x3000000000
  match getKey 0 c.plmap (o / 256) with
  | 0 => 0
  | p => c.mem.byte (0x3000000000 + p * 256 + o % 256)

/-- One byte of a region. -/
def getByte (c : Chip) (g : Region) (a : Nat) : BitVec 8 :=
  match g with
  | .rom => Config.romByte (a - 0x80000000)
  | .mram => c.plByte a
  | _ => c.mem.byte (c.locOf g a) ^^^ c.under g a

/-- Write one byte of a region. -/
def putByte (c : Chip) (g : Region) (a : Nat) (b : BitVec 8) : Chip :=
  { c with mem := c.mem.put (c.locOf g a) (b ^^^ c.under g a) }

/-- The bytes of a region from an address on. -/
def getBytes (c : Chip) (g : Region) (a n : Nat) : List (BitVec 8) := (List.range n).map (fun i => c.getByte g (a + i))

/-- Write bytes of a region from an address on. -/
def putBytes (c : Chip) (g : Region) (a : Nat) : List (BitVec 8) → Chip
  | [] => c
  | b :: r => (c.putByte g a b).putBytes g (a + 1) r

/-! ### Error correction -/

/-- The protected unit of a region: chunk, burst or word (R202, R263, R278, R627, R979). -/
def eccSize : Region → Nat
  | .sp _ | .line => 16
  | .hbm => 32
  | _ => 8

/-- A mark of a protected unit. -/
def mark (c : Chip) (key : Nat) : Option EccMark := (c.ecc.find? (fun x => x.1 == key)).map (·.2)
def setMark (c : Chip) (key : Nat) (m : EccMark) : Chip := { c with ecc := insKey key m c.ecc }
def delMark (c : Chip) (key : Nat) : Chip := { c with ecc := delKey key c.ecc }

/-- The view ring that holds a line-store byte (R272). -/
def viewAt (c : Chip) (a : Nat) : Option Nat :=
  (List.range 8).find? (fun v =>
    c.rb (R.LST.LRCFG v) 31 &&
    within a 1 (0x2000000000 + c.rf (R.LST.LRCFG v) 8 0 * 0x10000)
      (c.rf (R.LST.LRCFG v) 21 9 * (c.rf (R.LST.LRPIT v) 12 0 * 64)))

/-- A corrected error of a WGT quad counts towards SPETH.WTH (R208). -/
def wgtCount (c : Chip) (t key : Nat) : Chip :=
  let q := (key - spBase t) / (c.spSize / 8)
  if !c.rb (R.TILE.SPPROT t) q then c
  else
    let c := c.modSp t fun s => { s with wgtCnt := s.wgtCnt + 1 }
    let th := c.rf (R.TILE.SPETH t) 15 0
    if th ≠ 0 ∧ th ≤ (c.scratch t).wgtCnt then c.eventOnce (slotTile t) 0x0214 t else c

/-- A corrected error of an HBM burst counts towards ECTH.CTH within a second of GTIME (R264, R269). -/
def hbmCount (c : Chip) (s : Nat) : Chip :=
  let sec := c.gtime / 1000000000
  let c := { c with hbm := modNth (fun h => if h.second = sec then { h with ceSec := h.ceSec + 1 }
                                            else { h with second := sec, ceSec := 1 }) c.hbm s }
  let c := (c.cnt (R.HBM.ECC s) 11 0 1).eventOnce (slotHbm s) 0x0221 s
  if (nth {} c.hbm s).ceSec = c.rf (R.HBM.ECTH s) 15 0 then c.event (slotHbm s) 0x0224 else c

/-- A correctable error is corrected, counted and reported, and the unit is written back (R203, R264, R278, R627, R979). -/
def eccCorrect (c : Chip) (g : Region) (a key : Nat) : Chip :=
  let c := c.delMark key
  match g with
  | .sp t => ((c.cnt (R.TILE.SPECC t) 15 0 1).eventOnce (slotTile t) 0x0211 t).wgtCount t key
  | .hbm => c.hbmCount (c.stackOf a)
  | .line => (c.cnt R.LST.LECC 15 0 1).eventOnce 0x00F 0x0231 0
  | .table => (c.cnt R.TBL.TECC 15 0 1).eventOnce 0x00D 0x0261 0
  | .ccMem => (c.cnt R.ERR.MECC 15 0 1).eventOnce 6 0x0271 0
  | .trace => (c.cnt R.ERR.MECC 31 16 1).eventOnce 6 0x0281 0
  | _ => c

/-- A burst newly poisoned enters the bad-burst log of its page (R287). -/
def badBurst (c : Chip) (s a : Nat) : Chip :=
  let n := c.rf (R.HBM.BADN s) 3 0
  if (List.range n).any (fun i => c.r64 (R.HBM.BAD_LO s i) == a) then c
  else if n < 4 then (c.w64 (R.HBM.BAD_LO s n) a).wf (R.HBM.BADN s) 3 0 (n + 1)
  else c.wb (R.HBM.BADN s) 8 true

/-- A read of a unit that holds an uncorrectable error: it is poisoned and counted (R204, R265, R278, R627). -/
def eccBad (c : Chip) (g : Region) (a key : Nat) (ken : Nat) : Chip :=
  let fresh := c.mark key == some .ue
  let c := c.setMark key .poison
  match g with
  | .sp t => c.cnt (R.TILE.SPECC t) 31 16 1
  | .hbm =>
    let s := c.stackOf a
    let c := c.cnt (R.HBM.ECC s) 31 24 1
    if fresh then c.badBurst s a else c
  | .line =>
    let c := match c.viewAt a with | some v => c.cnt (R.LST.LROVR v) 31 16 1 | none => c
    c.report 0x00F 0x0232 .event ⟨0, ken⟩ a
  | .table => c.cnt R.TBL.TECC 31 16 1
  | _ => c

/-- Read a region through its code: the device with errors counted, the bytes with those of bad units 0, and the first
bad unit. -/
def eccRead (c : Chip) (g : Region) (a n ken : Nat) : Chip × List (BitVec 8) × Option Nat :=
  let z := eccSize g
  let u0 := a / z * z
  let us := if n = 0 then [] else (List.range ((a + n - 1 - u0) / z + 1)).map (fun i => u0 + i * z)
  let (c, bad) := us.foldl (fun (x : Chip × List Nat) u =>
    let key := x.1.locOf g u
    match x.1.mark key with
    | none => x
    | some .ce => (x.1.eccCorrect g u key, x.2)
    | some .odc => ((x.1.delMark key).cnt (R.HBM.ECC (x.1.stackOf u)) 23 12 1, x.2)
    | some .ue | some .poison => (x.1.eccBad g u key ken, x.2 ++ [u])) (c, [])
  (c, (List.range n).map (fun i => if bad.contains ((a + i) / z * z) then 0 else c.getByte g (a + i)), bad.head?)

/-- Write a region through its code: a whole unit clears its mark, a part is merged with the corrected unit and leaves
a poisoned unit poisoned (R199, R205, R266). -/
def eccWrite (c : Chip) (g : Region) (a : Nat) (bs : List (BitVec 8)) : Chip :=
  let z := eccSize g
  let n := bs.length
  let u0 := a / z * z
  let us := if n = 0 then [] else (List.range ((a + n - 1 - u0) / z + 1)).map (fun i => u0 + i * z)
  let c := us.foldl (fun c u =>
    let key := c.locOf g u
    if a ≤ u ∧ u + z ≤ a + n then (if (c.mark key).isSome then c.delMark key else c)
    else match c.mark key with
      | some .ce => c.eccCorrect g u key
      | _ => c) c
  c.putBytes g a bs

/-! ### Requesters -/

/-- The kennel of a requester (R145). -/
def agKen (c : Chip) : Agent → Nat
  | .core k => if k = 16 then 0 else c.owner k
  | .ary t | .drn t => c.owner t
  | .job _ k _ | .lmov _ _ k => k
  | .lrn => c.lrnk
  | .ext w => (c.req w).ken

/-- The path that a requester carries (R126). -/
def agPath (c : Chip) : Agent → Nat
  | .core k => if k = 16 then 0 else 1
  | .ary _ | .drn _ => 1
  | .job _ _ b => if b < 16 then 1 else 0
  | .lmov .. | .lrn => 0
  | .ext w => (c.req w).path

def agReq (c : Chip) (g : Agent) : Req := ⟨c.agPath g, c.agKen g⟩

/-- The page of the fence unit that checks a requester (R147, R150). -/
def agPage (_ : Chip) : Agent → Nat
  | .core k => corePage k
  | .ary t | .drn t => slotTile t
  | .job e _ _ | .lmov e _ _ => slotDma e
  | .lrn => 0x00E
  | .ext w => match w with
    | .cust t => slotTile t
    | .remote .. => slotVxl 0
    | _ => 0x011

/-- A failure of this requester is a kennel fault (R151, R193, R338). -/
def agFaults : Agent → Bool
  | .core k => k != 16
  | .ary _ | .drn _ | .job .. | .lmov .. | .lrn => true
  | .ext (.cust _) => true
  | .ext _ => false

/-- An access fails with a code: a kennel fault of its kennel, or a refusal (R136, R151). -/
def fail (c : Chip) (m : Mover) (slot code a n : Nat) (flt : Bool) : Ans :=
  let q := c.agReq m.ag
  if flt then ⟨.fault code, zeros n, c.kfault slot code q a q.ken⟩
  else ⟨.refused code, zeros n, c.report slot code .refusal q a⟩

/-! ### The fence -/

/-- The granules of a valid HBM range of a kennel hold an address (R178). -/
def hrng (c : Chip) (k j a : Nat) : Bool :=
  c.rb (R.KMAP.LIVE_KATTR k) j &&
  (let v := c.r (R.KMAP.LIVE_HRNG (4 * k + j))
   let g := (a - 0x100000000000) / 0x1000000
   fld v 11 0 ≤ g && g ≤ fld v 23 12)

def lrng (c : Chip) (k j a : Nat) : Bool :=
  c.rb (R.KMAP.LIVE_KATTR k) (4 + j) &&
  (let v := c.r (R.KMAP.LIVE_LRNG (2 * k + j))
   let g := (a - 0x2000000000) / 0x10000
   fld v 8 0 ≤ g && g ≤ fld v 17 9)

def ownHbm (c : Chip) (k a : Nat) : Bool := (List.range 4).any (fun j => c.hrng k j a)
def ownLine (c : Chip) (k a : Nat) : Bool := (List.range 2).any (fun j => c.lrng k j a)

/-- An address lies in a range that another kennel shares for reads (R149). -/
def shrHbm (c : Chip) (k a : Nat) : Bool :=
  (List.range 8).any (fun o => o != k && (List.range 4).any (fun j =>
    c.hrng o j a && c.rb (R.KMAP.LIVE_HRNG (4 * o + j)) (24 + k)))
def shrLine (c : Chip) (k a : Nat) : Bool :=
  (List.range 8).any (fun o => o != k && (List.range 2).any (fun j =>
    c.lrng o j a && c.rb (R.KMAP.LIVE_LRNG (2 * o + j)) (18 + k)))

/-- The first address of each granule that an access reaches, from its own first byte on. -/
def granules (a n z : Nat) : List Nat :=
  if n = 0 then [a] else (List.range ((a + n - 1) / z - a / z + 1)).map (fun i => max a (a / z * z + i * z))

/-- A table-memory access lies in the kennel's range, or for a read in its allocation record (R149). -/
def fenceTable (c : Chip) (k a n : Nat) (wr : Bool) : Bool :=
  let v := c.r (R.KMAP.LIVE_TRNG k)
  let g := a - 0x2800000000
  (c.rb (R.KMAP.LIVE_KATTR k) 6 && fld v 9 0 * 0x1000 ≤ g && g + n ≤ (fld v 19 10 + 1) * 0x1000)
    || (!wr && within g n (k * 0x1000) 0x1000)

/-- The fence: the code with which kennel `k`'s access fails, if it fails (R148, R149, R1069). -/
def fence (c : Chip) (k : Nat) (g : Region) (a n : Nat) (wr : Bool) : Option Nat :=
  if k = 0 then none
  else match g with
    | .sp t => if c.owner t = k then none else some 0x0501
    | .hbm =>
      let gs := granules a n 0x1000000
      if gs.all (fun x => c.ownHbm k x) then none
      else if gs.all (fun x => c.ownHbm k x || c.shrHbm k x) then (if wr then some 0x0503 else none)
      else some 0x0502
    | .line =>
      let gs := granules a n 0x10000
      if gs.all (fun x => c.ownLine k x) then none
      else if gs.all (fun x => c.ownLine k x || c.shrLine k x) then (if wr then some 0x0503 else none)
      else some 0x0504
    | .table => if c.fenceTable k a n wr then none else some 0x0505
    | .mram => if k = c.lrnk then none else some 0x0506
    | _ => none

/-! ### What a region accepts -/

/-- A region is not reachable on a path, or refuses this kind of access, with code 0x0521 (R88, R149, R248, R305, R338,
R690, R946). -/
def kindRefused (c : Chip) (ag : Agent) (g : Region) (a n : Nat) (wr : Bool) : Bool :=
  let k := c.agKen ag
  let tileCore := match ag with | .core t => t != 16 | _ => false
  let cust := match ag with | .ext (.cust _) => true | _ => false
  let remote := match ag with | .ext (.remote ..) => true | _ => false
  match g with
  | .ccMem | .trace => k != 0 || tileCore || cust || remote
  | .rom => wr || k != 0 || tileCore || cust || remote
  | .line => tileCore || cust
  | .table => cust || remote
  | .mram => wr || tileCore || cust || remote || 0x3000130000 < a + n ||
      (match ag with
       | .core 16 | .ext .dap | .ext .pf | .lrn => false
       | .ext (.vf _) => !(k == 0 || k == c.lrnk)
       | _ => true)
  | .hbm => tileCore
  | .remote _ => tileCore || cust
  | .regs => true
  | _ => false

/-- A write of table memory is refused with a code, after the fence (R160, R161, R584). -/
def tableWrite (ag : Agent) (k a n : Nat) : Option Nat :=
  let o := a - 0x2800000000
  if o < 0x8000 then
    let job := match ag with | .job .. | .lmov .. => true | _ => false
    if o + n ≤ 0x8000 ∧ k = 0 ∧ n = 16 ∧ o % 16 = 0 ∧ !job then none else some 0x0505
  else if o < 0x300000 then some 0x0521
  else if o % 4 = 0 ∧ n % 4 = 0 then none else some 0x0521

/-- The page of a unit that does not answer, and whether an access by a job or the learning engine is then a kennel
fault, with its code (R86, R245, R288, R1070). -/
def unavailable (c : Chip) (g : Region) (a n : Nat) : Option (Nat × Nat × Bool) :=
  match g with
  | .sp t => if !c.surv t || c.napped t || (c.scratch t).fillAll then some (slotTile t, 0x0525, false) else none
  | .hbm =>
    ((granules a n 256).map c.stackOf).findSome? (fun s =>
      if !c.surv (16 + s) then some (slotHbm s, 0x0525, false)
      else match c.rf (R.HBM.STAT s) 2 0 with
        | 2 => none
        | 3 => some (slotHbm s, 0x0525, true)
        | 4 => some (slotHbm s, 0x0225, true)
        | _ => some (slotHbm s, 0x0525, false))
  | .line => if !c.surv 28 then some (0x00F, 0x0525, false) else none
  | .table => if !c.surv 29 then some (0x00D, 0x0525, false) else none
  | _ => none

/-! ### The scratchpad's bank map and rings -/

/-- The port through which a requester reaches a tile's scratchpad: 1 vector, 2 array, 3 DMA (R189, R227). -/
def portOf (ag : Agent) (t : Nat) : Nat :=
  match ag with
  | .core k => if k = t then 1 else 3
  | .ary _ | .drn _ => 2
  | _ => 3


end Chip

/-- Bytes of a slot, and whether a tile offset lies in an active ring (R227). -/
def Ring.slotLen (r : Ring) : Nat := r.slotsz * 0x1000
def Ring.holds (r : Ring) (o : Nat) : Bool := r.active && r.base ≤ o && o < r.base + r.nslot * r.slotLen
def Ring.slotOf (r : Ring) (o : Nat) : Nat := (o - r.base) / r.slotLen

/-- The frame of a window of `w` frames from `f` on that lives in a slot (R220). -/
def Ring.frameIn (r : Ring) (f : Int) (w slot : Nat) : Option Int :=
  let d := ((slot : Int) - f) % (r.nslot : Int)
  if d < (w : Int) then some (f + d) else none

/-- The first frame of the consumer's window (R220). -/
def Ring.cfirst (r : Ring) : Int := r.gf - (r.cw : Int) + 1

/-- What the ring says of an access by one of its sides to a slot. -/
inductive RingSay where
  /-- Outside the side's window (R224). -/
  | window
  /-- An early read or late write of a tagged ring (R215). -/
  | stall
  /-- A slip of a static ring: its generation or frame, and its kind (R217). -/
  | slip (gen kind : Nat)
  | fine
  deriving DecidableEq, Repr

namespace Chip

/-- A ring context of a tile. -/
def ring (c : Chip) (t x : Nat) : Ring := nth {} (c.scratch t).rings x
def modRing (c : Chip) (t x : Nat) (f : Ring → Ring) : Chip :=
  c.modSp t fun s => { s with rings := modNth f s.rings x }

/-- Positions and tags of a command-advanced ring stand in RPOS (R211, R238). -/
def pp (c : Chip) (t x : Nat) : Nat := c.rf (R.TILE.RPOS t x) 3 0
def cp (c : Chip) (t x : Nat) : Nat := c.rf (R.TILE.RPOS t x) 7 4
def full (c : Chip) (t x slot : Nat) : Bool := c.rb (R.TILE.RPOS t x) (16 + slot)

/-- What ring context `x` of tile `t` says of an access by its producer or consumer side to a slot (R211 to R224). -/
def ringSay (c : Chip) (t x slot : Nat) (prod : Bool) : RingSay :=
  let r := c.ring t x
  if !r.adv then
    let first := if prod then c.pp t x else c.cp t x
    let w := if prod then r.pw else r.cw
    if w ≤ (slot + r.nslot - first) % r.nslot then .window
    else if c.full t x slot == prod then
      (if r.tag then .stall else .slip (nth 0 r.gen slot) (b2n prod))
    else .fine
  else
    match (if prod then r.frameIn r.pf r.pw slot else r.frameIn r.cfirst r.cw slot) with
    | none => .window
    | some f =>
      match r.armed with
      | none => .fine
      | some a =>
        if f < a then .fine
        else match nth none r.shadow slot, prod with
          | some g, true => if g ≠ f ∧ r.cfirst ≤ g ∧ g ≤ r.gf then .slip f.toNat 1 else .fine
          | none, true => .fine
          | g, false => if g = some f then .fine else .slip f.toNat 0

/-- Record a slip: counted, logged, reported, and escalated where the ring says so; once per slot and generation (R217,
R219, R241). -/
def slip (c : Chip) (t x slot gen kind bundle : Nat) : Chip :=
  if (slot, gen) ∈ (c.ring t x).slipped then c
  else
    let c := c.modRing t x fun r => { r with slipped := (slot, gen) :: r.slipped }
    let c := c.cnt (R.TILE.RCNT t x) 15 0 1
    let c := if (c.scratch t).slips.length < 16 then
        let c := c.modSp t fun s => { s with slips := s.slips ++ [⟨x, slot, kind, c.fnum % 2 ^ 32, bundle⟩] }
        c.wf (R.TILE.SLOGN t) 4 0 (c.scratch t).slips.length
      else if c.rb (R.TILE.SLOGN t) 8 then c
      else (c.wb (R.TILE.SLOGN t) 8 true).event (slotTile t) 0x0307
    let a := spBase t + (c.ring t x).base + slot * (c.ring t x).slotLen
    let c := c.report (slotTile t) 0x0303 .event ⟨0, c.owner t⟩ a
    if (c.ring t x).esc then c.kfault (slotTile t) 0x0304 ⟨1, c.owner t⟩ a (c.owner t) else c

/-- The ring context of a tile whose slots hold a tile offset, and for which a port is a side: context, slot, and whether
the port is the producer's (R191). -/
def ringAt (c : Chip) (t o port : Nat) : Option (Nat × Nat × Bool) :=
  ((List.range 16).find? (fun x => (c.ring t x).holds o && ((c.ring t x).pside == port || (c.ring t x).cside == port))).map
    (fun x => (x, (c.ring t x).slotOf o, (c.ring t x).pside == port))

/-- What the bank map says of a line: refused, or allowed, and then through which ring slot (R191 to R193). -/
def lineSay (c : Chip) (t port o : Nat) : Option (Option (Nat × Nat × Bool)) :=
  let q := o / (c.spSize / 8)
  let code := c.rf (R.TILE.SPBMAP t) (3 * q + 2) (3 * q)
  if code = 4 then (c.ringAt t o port).map some
  else if code = port then some none
  else none

/-- The lines of a tile's scratchpad that an access reaches: the first byte of the access in each. -/
def linesOf (o n : Nat) : List Nat := granules o n 64

/-- A requester begins to wait on a tagged ring (R215); a requester that waits already keeps its time. -/
def ringStall (c : Chip) (t x : Nat) (ag : Agent) : Chip :=
  if (c.ring t x).stalls.any (fun s => s.1 == ag) then c
  else
    let c := c.modRing t x fun r => { r with stalls := r.stalls ++ [(ag, c.now)] }
    (c.wb (R.TILE.RST t x) 1 true).cnt (R.TILE.RCNT t x) 31 16 1

/-- A requester no longer waits on a tile's rings. -/
def ringUnstall (c : Chip) (t : Nat) (ag : Agent) : Chip :=
  let hit := (List.range 16).filter (fun x => (c.ring t x).stalls.any (fun s => s.1 == ag))
  hit.foldl (fun c x =>
    let c := c.modRing t x fun r => { r with stalls := r.stalls.filter (fun s => s.1 != ag) }
    c.wb (R.TILE.RST t x) 1 (!(c.ring t x).stalls.isEmpty)) c

/-- Check an access to a tile's scratchpad against the bank map and the rings (R192, R193, R215 to R224): the device
with slips recorded and, where the access is not performed, its outcome. -/
def spCheck (c : Chip) (m : Mover) (t o n : Nat) : Chip × Option Ans :=
  match m.ag with
  | .ext .dap => (c, none)
  | _ =>
    let p := portOf m.ag t
    let answers := (linesOf o n).map (fun l => (l, c.lineSay t p l))
    match answers.find? (fun x => x.2.isNone) with
    | some (l, _) => (c, some (c.fail m (slotTile t) 0x0301 (spBase t + l) n (agFaults m.ag)))
    | none =>
      let hits := answers.filterMap (fun x => (x.2.getD none).map (fun h => (x.1, h)))
      let slots := (hits.map (fun x => (x.2, x.1))).foldl (fun (acc : List ((Nat × Nat × Bool) × Nat)) h =>
        if acc.any (fun y => y.1 == h.1) then acc else acc ++ [h]) []
      let judged := slots.map (fun h => (h.1, h.2, c.ringSay t h.1.1 h.1.2.1 h.1.2.2))
      match judged.find? (fun x => x.2.2 == .window) with
      | some (_, l, _) =>
        let k := c.owner t
        let q := c.agReq m.ag
        let c' := c.kfault (slotTile t) 0x0305 q (spBase t + l) k
        (c, some ⟨if agFaults m.ag then .fault 0x0305 else .refused 0x0305, zeros n, c'⟩)
      | none =>
        match judged.find? (fun x => x.2.2 == .stall) with
        | some (h, _, _) => (c, some ⟨.stall t h.1, [], c.ringStall t h.1 m.ag⟩)
        | none =>
          let c := c.ringUnstall t m.ag
          (judged.foldl (fun c x => match x.2.2 with
            | .slip g k => c.slip t x.1.1 x.1.2.1 g k m.bundle
            | _ => c) c, none)

/-- Perform a read of a region through its code; a bad unit ends it as its region lays down (R204, R265, R278, R627,
R979). -/
def performRead (c : Chip) (m : Mover) (g : Region) (a n : Nat) : Ans :=
  let (c, bs, bad) := c.eccRead g a n (c.agKen m.ag)
  match bad with
  | none => ⟨.ok, bs, c⟩
  | some u =>
    match g with
    | .sp t =>
      if agFaults m.ag then let f := c.fail m (slotTile t) 0x0212 u n true; ⟨.fault 0x0212, bs, f.chip⟩
      else c.fail m (slotTile t) 0x0212 u n false
    | .hbm =>
      let jobLike := match m.ag with | .job .. | .lmov .. | .lrn => true | _ => false
      let f := c.fail m (slotHbm (c.stackOf u)) 0x0222 u n jobLike
      if jobLike then ⟨.fault 0x0222, bs, f.chip⟩ else f
    | .line => ⟨.ok, bs, c⟩
    | .table =>
      let jobLike := match m.ag with | .job .. | .lmov .. | .lrn => true | _ => false
      c.fail m 0x00D 0x0262 u n jobLike
    | .ccMem => c.fail m 6 0x0272 u n false
    | .trace => ⟨.refused 0x0282, zeros n, c.report 6 0x0282 .event (c.agReq m.ag) u⟩
    | _ => ⟨.ok, bs, c⟩

/-- The scratchpad lines or HBM bursts that an access reaches are metered; a deferred kennel's line moves are overhead (R842, R855). -/
def meterAccess (c : Chip) (m : Mover) (g : Region) (a n : Nat) (wr : Bool) : Chip :=
  let ken := match m.ag with
    | .lmov _ _ k => if c.deferred k then 8 else k
    | ag => c.agKen ag
  match g with
  | .sp t => c.meter (slotTile t) (2 + portOf m.ag t) ken ((a + n - 1) / 64 + 1 - a / 64)
  | .hbm => c.meter (slotHbm (c.stackOf a)) (b2n wr) ken ((a + n - 1) / 32 + 1 - a / 32)
  | _ => c

/-- A memory access: refused, failed, stalled or performed (R84 to R94, R135, R147 to R151, R192, R193). `w` holds the
bytes of a write. The register window and the windows of other devices are not memory; the caller has taken them out. -/
def access (c : Chip) (m : Mover) (a0 n : Nat) (w : Option (List (BitVec 8))) : Ans :=
  let a := c.ownWindow a0 n
  let g := c.regionOf a n
  let wr := w.isSome
  let k := c.agKen m.ag
  let jobLike := match m.ag with | .job .. | .lmov .. | .lrn => true | _ => false
  if g = .hole then c.fail m 6 0x0520 a0 n false
  else if c.kindRefused m.ag g a n wr then c.fail m 6 0x0521 a n false
  else match c.fence k g a n wr with
    | some code => c.fail m (c.agPage m.ag) code a n (agFaults m.ag)
    | none =>
      match (if wr then (match g with | .table => tableWrite m.ag k a n | _ => none) else none) with
      | some code => c.fail m (if code = 0x0505 then c.agPage m.ag else 6) code a n (code == 0x0505 && agFaults m.ag)
      | none =>
        match c.unavailable g a n with
        | some (slot, code, flt) =>
          if flt && jobLike then c.fail m (if code = 0x0225 then slot else c.agPage m.ag) code a n true
          else c.fail m slot 0x0525 a n false
        | none =>
          match (match g with | .sp t => c.spCheck m t (a - spBase t) n | _ => (c, none)) with
          | (_, some r) => r
          | (c, none) =>
            match w with
            | some bs => ⟨.ok, [], (c.meterAccess m g a n true).eccWrite g a bs⟩
            | none => (c.meterAccess m g a n false).performRead m g a n

/-- A read. -/
def readMem (c : Chip) (m : Mover) (a n : Nat) : Ans := c.access m a n none
/-- A write. -/
def writeMem (c : Chip) (m : Mover) (a : Nat) (bs : List (BitVec 8)) : Ans := c.access m a bs.length (some bs)

end Chip
end Sys2Proof.Machine
end

