-- ==== Sys2Proof/Machine/Rings.lean ====
section
/-!
DEFINITION. Register writes that are checked, descriptor captures, the commands and life of slot rings, the scratchpad's
configuration, zero-fill and scrubbing.
-/
namespace Sys2Proof.Machine

/-- A little-endian field of a byte list. -/
def le (bs : List (BitVec 8)) (i n : Nat) : Nat := natLE ((bs.drop i).take n)

/-- A cache of descriptors: a tile's, or an engine's (R594). -/
inductive CacheId where
  | tile (t : Nat)
  | eng (e : Nat)
  deriving DecidableEq, Repr

namespace Chip

/-! ### Checked register writes -/

/-- Note a 1 written to a reserved bit (R16). -/
def noteRsv (c : Chip) (key : Nat) (val : BitVec 32) : Chip :=
  match rowOf key with
  | none => if val = 0 then c else c.rsvWrite (key / 0x1000)
  | some r => if val &&& r.reserved = 0 then c else c.rsvWrite (key / 0x1000)

/-- A register write that is applied when it is legal, and otherwise leaves the register and does something else. -/
def putIf (c : Chip) (who : Who) (key : Nat) (val : BitVec 32) (ok : Bool) (bad : Chip → Chip) : Chip :=
  if ok then c.putReg who key val else bad (c.noteRsv key val)

/-! ### Descriptor captures -/

def descCache (c : Chip) : CacheId → List (Nat × List (BitVec 8))
  | .tile t => (nth {} c.ports t).cache
  | .eng e => (nth {} c.engines e).cache

def setDescCache (c : Chip) (id : CacheId) (l : List (Nat × List (BitVec 8))) : Chip :=
  match id with
  | .tile t => { c with ports := modNth (fun p => { p with cache := l }) c.ports t }
  | .eng e => { c with engines := modNth (fun p => { p with cache := l }) c.engines e }

/-- Address of a table-memory entry (R583). -/
abbrev entryAddr (i : Nat) : Nat := 0x2800000000 + 64 * i

/-- Capture a 64-byte entry through a descriptor cache: fence-checked as a table-memory read of the requester whether it
hits or misses; a hit and a fill make the entry the most recently used of 64; an entry of bad parity is discarded and
read again (R594 to R596, R627). -/
def captureDesc (c : Chip) (m : Mover) (id : CacheId) (i : Nat) (badParity : Bool) : Ans :=
  let a := entryAddr i
  match c.fence (c.agKen m.ag) .table a 64 false with
  | some code => c.fail m (c.agPage m.ag) code a 64 (agFaults m.ag)
  | none =>
    let l := c.descCache id
    match (if badParity then none else l.find? (fun x => x.1 == i)) with
    | some (_, bs) => ⟨.ok, bs, c.setDescCache id ((i, bs) :: l.filter (fun x => x.1 != i))⟩
    | none =>
      let c := match id with
        | .eng e => if badParity && l.any (fun x => x.1 == i) then c.cnt (R.DMA.CPAR e) 15 0 1 else c
        | .tile _ => c
      let c := c.setDescCache id (l.filter (fun x => x.1 != i))
      let r := c.readMem m a 64
      match r.res with
      | .ok =>
        if r.chip.rb R.TBL.TSTAT 0 then r
        else { r with chip := r.chip.setDescCache id (((i, r.data) :: r.chip.descCache id).take 64) }
      | _ => r

/-! ### PUT and FREE -/

/-- Apply PUT or FREE to a ring context from a port's side (R212 to R217): a violation is kennel fault 0x0305 of the tile's
kennel, a late PUT or early FREE stalls on a tagged ring and slips on a static one. -/
def ringCmd (c : Chip) (t x : Nat) (free : Bool) (side : Nat) (ag : Agent) (bundle : Nat) : Res × Chip :=
  let r := c.ring t x
  if !r.active || r.adv || (if free then r.cside else r.pside) != side then
    (.fault 0x0305, c.kfault (slotTile t) 0x0305 ⟨c.agPath ag, c.owner t⟩ 0 (c.owner t))
  else
    let slot := if free then c.cp t x else c.pp t x
    let off := c.full t x slot == !free
    if off && r.tag then (.stall t x, c.ringStall t x ag)
    else
      let c := c.ringUnstall t ag
      let c := if off then c.slip t x slot (nth 0 r.gen slot) (if free then 2 else 3) bundle else c
      let c := c.wb (R.TILE.RPOS t x) (16 + slot) (!free)
      if free then (.ok, c.wf (R.TILE.RPOS t x) 7 4 ((slot + 1) % r.nslot))
      else
        let c := c.modRing t x fun r => { r with gen := modNth (fun g => (g + 1) % 0x10000) r.gen slot }
        (.ok, c.wf (R.TILE.RPOS t x) 3 0 ((slot + 1) % r.nslot))

/-! ### Activation -/

/-- The ring a descriptor describes (R227). -/
def ringOf (bs : List (BitVec 8)) : Ring :=
  let b (i : Nat) : BitVec 8 := nth 0 bs i
  { tag := bit (b 1) 3, adv := bit (b 1) 4, esc := bit (b 1) 5
    pside := fld (b 3) 1 0, cside := fld (b 3) 3 2, nslot := fld (b 4) 4 0
    pw := fld (b 5) 1 0 + 1, cw := fld (b 5) 3 2 + 1, panc := bit (b 6) 0, canc := bit (b 6) 1
    pofs := sInt 4 (fld (b 7) 3 0), cofs := sInt 4 (fld (b 7) 7 4)
    base := le bs 8 4, slotsz := le bs 12 2
    tout := if le bs 16 4 % 0x100000 = 0 then 4096 else le bs 16 4 % 0x100000 }

/-- Bits of a ring descriptor that must be 0 are (R227). -/
def ringZeros (bs : List (BitVec 8)) : Bool :=
  let b (i : Nat) : BitVec 8 := nth 0 bs i
  fld (b 0) 7 4 == 0 && fld (b 1) 7 6 == 0 && fld (b 2) 7 4 == 0 && fld (b 3) 7 4 == 0 && fld (b 4) 7 5 == 0
    && fld (b 5) 7 4 == 0 && fld (b 6) 7 2 == 0 && le bs 14 2 == 0 && fld (b 18) 7 4 == 0 && b 19 == 0
    && (bs.drop 20).all (· == 0)

/-- Why an activation is refused: 0 when it is not (R230). -/
def ringWhy (c : Chip) (t x : Nat) (bs : List (BitVec 8)) : Nat :=
  let r := ringOf bs
  let q := c.spSize / 8
  let len := r.nslot * r.slotLen
  let quads := (List.range 8).filter (fun i => i * q < r.base + len && r.base < (i + 1) * q)
  if fld (nth 0 bs 0) 3 0 ≠ 3 ∨ ¬ringZeros bs then 1
  else if fld (nth 0 bs 1) 2 0 ≠ c.owner t ∨ fld (nth 0 bs 2) 3 0 ≠ t then 2
  else if r.pside = 0 ∨ r.cside = 0 ∨ r.pside = r.cside ∨ r.nslot < 2 ∨ 16 < r.nslot
      ∨ (¬r.adv ∧ r.nslot < r.pw + r.cw) then 3
  else if r.base % 0x1000 ≠ 0 ∨ r.slotsz = 0 ∨ 2048 < r.slotsz ∨ c.spSize < r.base + len
      ∨ ¬quads.all (fun i => c.rf (R.TILE.SPBMAP t) (3 * i + 2) (3 * i) == 4) then 4
  else if (List.range 16).any (fun y => let o := c.ring t y
      y != x && o.active && o.base < r.base + len && r.base < o.base + o.nslot * o.slotLen) then 5
  else if (r.tag ∧ r.adv) ∨ (r.pside + r.cside = 3 ∧ (r.adv ∨ r.slotLen % q ≠ 0 ∨ r.base % q ≠ 0)) then 6
  else if (c.ring t x).active then 7
  else 0

/-- An activation is refused (R230). -/
def ringRefuse (c : Chip) (t x why : Nat) : Chip := (c.wf (R.TILE.RST t x) 7 4 why).event (slotTile t) 0x0306

/-- A write of RACT begins an activation or deactivates (R228, R231). -/
def ringDeact (c : Chip) (t x : Nat) : Chip :=
  let r := c.ring t x
  if r.activating.isSome then c.modRing t x fun r => { r with deactDue := true }
  else if r.active then
    let c := c.modRing t x fun r => { r with active := false, stalls := [] }
    (c.wf (R.TILE.RST t x) 1 0 0).wf (R.TILE.RST t x) 31 16 0
  else c

def ringActivate (c : Chip) (t x i : Nat) : Chip :=
  if (c.ring t x).activating.isSome then c.ringRefuse t x 7
  else
    let r := c.captureDesc ⟨.core t, 0xFFFFFFFFFFFF⟩ (.tile t) i false
    match r.res with
    | .ok => r.chip.modRing t x fun g => { g with activating := some (i, r.data), deactDue := false }
    | _ => r.chip

def ractWrite (c : Chip) (who : Who) (t : Nat) (val : BitVec 32) : Chip :=
  let c := c.noteRsv (R.TILE.RACT t) val
  let x := fld val 19 16
  match bit val 24, bit val 25 with
  | true, true => c.wb (R.TILE.SPSTAT t) 0 true
  | true, false => c.ringActivate t x (fld val 15 0)
  | false, true => c.ringDeact t x
  | false, false => let _ := who; c

/-- The anchors of frame-advanced windows: the current tick, and the frame the kennel computes in it (R220). -/
def ringFrames (c : Chip) (t : Nat) (r : Ring) : Int × Int :=
  let k : Int := c.fnum
  let m : Int := nth (k - 1) c.tick.cmp (c.owner t)
  ((if r.panc then m else k) + r.pofs, (if r.canc then m else k) + r.cofs)

/-- RFRM of a frame-advanced ring (R238). -/
def showFrames (c : Chip) (t x : Nat) : Chip :=
  let r := c.ring t x
  c.w (R.TILE.RFRM t x) (BitVec.ofNat 32 (wrapN 16 r.pf + wrapN 16 r.gf * 2 ^ 16))

/-- An activation completes (R228, R230, R231). -/
def ringActivateDone (c : Chip) (t x : Nat) : Chip :=
  match (c.ring t x).activating with
  | none => c
  | some (i, bs) =>
    let due := (c.ring t x).deactDue
    let c := c.modRing t x fun r => { r with activating := none, deactDue := false }
    let why := c.ringWhy t x bs
    if why ≠ 0 then c.ringRefuse t x why
    else if due then c
    else
      let r := ringOf bs
      let (pf, gf) := c.ringFrames t r
      let c := c.modRing t x fun _ => { r with active := true, pf := pf, gf := gf }
      let c := c.w (R.TILE.RST t x) (BitVec.ofNat 32 (1 + i * 2 ^ 16 + c.rf (R.TILE.RST t x) 7 4 * 2 ^ 4))
      let c := c.w (R.TILE.RPOS t x) 0
      if r.adv then c.showFrames t x else c.w (R.TILE.RFRM t x) 0

/-- The windows of a tile's frame-advanced rings move in cycle 1 of a tick head: shadow tags of frames that leave the
producer's window, and the first frame that arms the ring (R221 to R223). -/
def ringMove (c : Chip) (t x : Nat) : Chip :=
  let r := c.ring t x
  if !(r.active && r.adv) then c
  else
    let locked := fld (nth 0 c.tick.kslot (c.owner t)) 1 0 == 1
    let (p, g) := c.ringFrames t r
    let pf := if r.panc && !locked then r.pf else p
    let gf := if r.canc && !locked then r.gf else g
    let left := (List.range r.pw).map (fun (i : Nat) => r.pf + (i : Int))
    let gone := left.filter (fun f => f < pf || pf + r.pw ≤ f)
    let shadow := gone.foldl (fun l f => l.set (f % (r.nslot : Int)).toNat (some f)) r.shadow
    let fresh := if pf > r.pf then some (max (r.pf + r.pw) pf) else none
    let armed := match r.armed with | some a => some a | none => fresh
    let c := c.modRing t x fun r => { r with pf := pf, gf := gf, shadow := shadow, armed := armed,
                                             slipped := r.slipped.filter (fun s => (min pf (gf - (r.cw : Int))).toNat ≤ s.2) }
    c.showFrames t x

/-- All frame-advanced rings move (R221). -/
def ringsMove (c : Chip) : Chip := forN c.tiles (fun t c => forN 16 (fun x c => c.ringMove t x) c) c

/-- The oldest stall on a ring runs into its timeout: kennel fault 0x0302 of the tile's kennel (R216). -/
def ringTimeout (c : Chip) (t x : Nat) : Chip :=
  match (c.ring t x).stalls with
  | [] => c
  | (ag, t0) :: rest =>
    let c := c.waitTo (t0 + cyc (c.ring t x).tout)
    let c := c.modRing t x fun r => { r with stalls := rest }
    let c := c.wb (R.TILE.RST t x) 1 (!rest.isEmpty)
    c.kfault (slotTile t) 0x0302 ⟨c.agPath ag, c.owner t⟩ 0 (c.owner t)

/-! ### Configuration of the scratchpad -/

def cfgErrSp (t : Nat) (c : Chip) : Chip := c.wb (R.TILE.SPSTAT t) 0 true

/-- A quad holds part of an active ring. -/
def quadRinged (c : Chip) (t i : Nat) : Bool :=
  let q := c.spSize / 8
  (c.scratch t).rings.any (fun r => r.active && i * q < r.base + r.nslot * r.slotLen && r.base < (i + 1) * q)

/-- A write to SPBMAP (R234). -/
def spbmapWrite (c : Chip) (who : Who) (t : Nat) (val : BitVec 32) : Chip :=
  let key := R.TILE.SPBMAP t
  let f (v : BitVec 32) (i : Nat) : Nat := fld v (3 * i + 2) (3 * i)
  c.putIf who key val ((List.range 8).all (fun i =>
    f val i ≤ 4 && (f val i == f (c.r key) i || !c.quadRinged t i))) (cfgErrSp t)

/-- A write to SPHASH (R234). -/
def sphashWrite (c : Chip) (who : Who) (t : Nat) (val : BitVec 32) : Chip :=
  c.putIf who (R.TILE.SPHASH t) val ((List.range 8).all (fun i => fld val (3 * i + 2) (3 * i) ≤ 4)) (cfgErrSp t)

/-- A write to SPPROT: quads whose mode changes must be coded NONE, and are zero-filled (R236). -/
def spprotWrite (c : Chip) (who : Who) (t : Nat) (val : BitVec 32) : Chip :=
  let key := R.TILE.SPPROT t
  let qs := (List.range 8).filter (fun i => bit val i != c.rb key i)
  let ok := qs.all (fun i => c.rf (R.TILE.SPBMAP t) (3 * i + 2) (3 * i) == 0)
  let c := c.putIf who key val ok (cfgErrSp t)
  if ok then c.modSp t fun s => { s with zfill := s.zfill ++ qs.filter (fun q => !s.zfill.contains q) } else c

/-- A write to SPSCRB (R234). -/
def spscrbWrite (c : Chip) (who : Who) (t : Nat) (val : BitVec 32) : Chip :=
  let ok (x : Nat) : Bool := 1 ≤ x && x ≤ 1000
  c.putIf who (R.TILE.SPSCRB t) val (ok (fld val 11 2) && ok (fld val 21 12)) (cfgErrSp t)

/-- Zero-fill a range of a tile's scratchpad, by physical location, with fresh check bits (R205, R236). -/
def spZero (c : Chip) (t o n : Nat) : Chip :=
  let b := spBase t + o
  { c with mem := c.mem.zero b n, ecc := c.ecc.filter (fun e => e.1 < b || b + n ≤ e.1) }

/-- The zero-fill of quads whose protection changed completes (R236). -/
def spprotFillDone (c : Chip) (t : Nat) : Chip :=
  let q := c.spSize / 8
  let c := (c.scratch t).zfill.foldl (fun c i => c.spZero t (i * q) q) c
  c.modSp t fun s => { s with zfill := [] }

/-- The address of a physical location of a tile's scratchpad: the inverse of `spLoc` (R194). -/
def spAddr (c : Chip) (t loc : Nat) : Nat :=
  let q := c.spSize / 8
  let o := loc - spBase t
  let qi := o / q
  let b := o % q / (q / 4)
  let row := o % (q / 4) / 64
  let h := c.rf (R.TILE.SPHASH t) (3 * qi + 2) (3 * qi)
  let l := if h = 0 then b else (b + 4 - row * 4 / 2 ^ (2 * h) % 4) % 4
  spBase t + qi * q + (row * 4 + l) * 64 + o % 64

/-- The scrubber poisons a chunk that it cannot correct (R207). -/
def scrubChunk (c : Chip) (t : Nat) (e : Nat × EccMark) : Chip :=
  match e.2 with
  | .ce => c.eccCorrect (.sp t) (c.spAddr t e.1) e.1
  | .ue => (c.setMark e.1 .poison).report (slotTile t) 0x0213 .event ⟨0, 0⟩ (c.spAddr t e.1)
  | _ => c

/-- A scrub pass over the WGT or the STD quads of a tile (R207, R208). -/
def scrubPass (c : Chip) (t : Nat) (wgt : Bool) : Chip :=
  let key := R.TILE.SPSCRB t
  if !c.rb key (if wgt then 0 else 1) then c
  else
    let due := if wgt then (c.scratch t).wScrub + ms (c.rf key 11 2) else (c.scratch t).sScrub + ms (10 * c.rf key 21 12)
    let c := c.waitTo due
    let c := c.modSp t fun s => if wgt then { s with wScrub := c.now } else { s with sScrub := c.now }
    let q := c.spSize / 8
    let sel := c.ecc.filter (fun e => spBase t ≤ e.1 && e.1 < spBase t + c.spSize
      && c.rb (R.TILE.SPPROT t) ((e.1 - spBase t) / q) == wgt)
    let quads := ((List.range 8).filter (fun i => c.rb (R.TILE.SPPROT t) i == wgt)).length
    let c := c.meter (slotTile t) 6 (c.owner t) (quads * (q / 64))
    sel.foldl (fun c e => c.scrubChunk t e) c

/-- Errors strike memory: marks at the protected units that hold the given addresses; a unit that is marked already, or is
poisoned, keeps its mark (R206, R267). -/
def strike (c : Chip) (errs : List (BitVec 48 × Bool)) : Chip :=
  errs.foldl (fun c e =>
    let g := c.regionOf e.1.toNat 1
    let key := c.locOf g (e.1.toNat / eccSize g * eccSize g)
    if g = .hole ∨ (c.mark key).isSome then c else c.setMark key (if e.2 then .ue else .ce)) c

end Chip
end Sys2Proof.Machine
end

