-- ==== Sys2Proof/Machine/Vxl.lean ====
section
/-!
DEFINITION. Vaxlin messages and how a device sends them: header flits, routing, credits by channel and kennel, frames and
the replay buffer.
-/
namespace Sys2Proof.Machine

/-! ### Messages and flits -/

/-- Bytes padded with zeros to a length. -/
def padTo (n : Nat) (bs : List (BitVec 8)) : List (BitVec 8) := bs ++ zeros (n - bs.length)

/-- Bytes in runs of 64, by fuel. -/
def chunk64 : Nat → List (BitVec 8) → List (List (BitVec 8))
  | 0, _ => []
  | _ + 1, [] => []
  | n + 1, bs => padTo 64 (bs.take 64) :: chunk64 n (bs.drop 64)

/-- Data flits that follow the header (R765). -/
def Msg.ndat (m : Msg) : Nat := if m.data.length ≤ 40 then 0 else cdiv m.data.length 64

/-- The header flit (R765). -/
def Msg.header (m : Msg) : List (BitVec 8) :=
  let b (x : Nat) : BitVec 8 := BitVec.ofNat 8 x
  [b m.mt, b m.dst, b m.src, b (m.ken + m.ndat * 16)] ++ bytesLE 2 m.tag ++ bytesLE 6 m.addr ++ bytesLE 2 m.len
    ++ bytesLE 2 m.code ++ bytesLE 4 (m.rlen + m.route * 16) ++ [b m.hops] ++ zeros 3
    ++ padTo 40 (if m.ndat = 0 then m.data else [])

/-- The flits of a message (R765). -/
def Msg.flits (m : Msg) : List (List (BitVec 8)) := m.header :: (if m.ndat = 0 then [] else chunk64 4 m.data)

/-- The virtual channel of a message type (R765); `none` for a type not listed. -/
def mtVc (mt : Nat) : Option Nat :=
  match mt with
  | 0x01 | 0x02 | 0x04 | 0x05 => some 0
  | 0x81 | 0x82 => some 1
  | 0x03 => some 2
  | 0x10 | 0x11 => some 3
  | _ => none

/-- A field of a flit. -/
def fle (bs : List (BitVec 8)) (i n : Nat) : Nat := natLE ((bs.drop i).take n)

/-- Data flits that a header announces (R765). -/
def headNdat (h : List (BitVec 8)) : Nat := fle h 3 1 / 16 % 8

/-- The message that its flits spell (R765). A request for data and a response carry LEN; the data is LEN bytes long. -/
def Msg.parse (fs : List (List (BitVec 8))) : Msg :=
  match fs with
  | [] => { mt := 0, dst := 0, src := 0, ken := 0, tag := 0 }
  | h :: rest =>
    let len := fle h 12 2
    let mt := fle h 0 1
    let carries := mt != 0x01 && mt != 0x04 && mt != 0x82
    { mt := mt, dst := fle h 1 1 % 32, src := fle h 2 1 % 32, ken := fle h 3 1 % 8, tag := fle h 4 2, addr := fle h 6 6
      len := len, code := fle h 14 2, rlen := fle h 16 1 % 16, route := fle h 16 4 / 16 % 2 ^ 16, hops := fle h 20 1
      data := if !carries then [] else if rest.isEmpty then (h.drop 24).take (min len 40) else rest.flatten.take len }

/-- Receive buffers of a virtual channel (R762). -/
def vcPool (v : Nat) : Nat := match v with | 0 => 32 | 3 => 16 | _ => 64

namespace Chip

def vport (c : Chip) (p : Nat) : VxlPort := nth {} c.vxl p
def modVxl (c : Chip) (p : Nat) (f : VxlPort → VxlPort) : Chip := { c with vxl := modNth f c.vxl p }

/-- LSTAT.STATE of a port (R760). -/
def vst (c : Chip) (p : Nat) : Nat := c.rf (R.VXL.LSTAT p) 2 0

/-- The entry of RTAB for a device: a port, or 0xF (R769, R797). -/
def rtab (c : Chip) (d : Nat) : Nat := c.rf (R.VXL.RTAB 0 (d / 8)) (4 * (d % 8) + 3) (4 * (d % 8))

/-- The device is numbered (R768). -/
def numbered (c : Chip) : Bool := c.rb (R.VXL.CNUM 0) 8

/-- The port by which a header for a device leaves; `none` is refused with 0x0604 (R769). -/
def routeTo (c : Chip) (d : Nat) : Option Nat :=
  let p := c.rtab d
  if p < c.vxls ∧ (c.vst p = 5 ∨ c.vst p = 6) then some p else none

/-! ### Credits -/

/-- Send credits of a port's channel (R763). -/
def crv (c : Chip) (p v : Nat) : Nat := c.rf (R.VXL.LCRD p) (8 * v + 7) (8 * v)

/-- Kennel k's share of a channel, rounded down (R650). -/
def vshare (c : Chip) (v k : Nat) : Nat := c.rf (R.KMAP.LIVE_CSH0 + 4 * k) 12 8 * vcPool v / 16

/-- Credits of a channel that a kennel holds. -/
def vheld (c : Chip) (p v k : Nat) : Nat := ((c.vport p).held.filter (fun h => h == (v, k))).length

/-- A kennel may take a credit of a channel: from its own share, or from the shared part (R637, R650). -/
def vcredit (c : Chip) (p v k : Nat) : Bool :=
  decide (0 < c.crv p v) &&
  (if v = 0 ∨ v = 2 then
    let above := (List.range 8).foldl (fun n j => n + (c.vheld p v j - c.vshare v j)) 0
    let shared := vcPool v - (List.range 8).foldl (fun n j => n + c.vshare v j) 0
    decide (c.vheld p v k < c.vshare v k) || decide (above < shared)
  else true)

/-! ### Frames -/

/-- The first eight bytes of a frame (R753): channel, VALID and CTL, SEQ, ACK, and the credits returned. -/
def frameHead (c : Chip) (p v seq : Nat) (valid ctl : Bool) : List (BitVec 8) :=
  let o (i : Nat) : Nat := min 15 (nth 0 (c.vport p).owed i)
  BitVec.ofNat 8 (v + b2n valid * 4 + b2n ctl * 8) :: bytesLE 2 seq ++ bytesLE 2 (c.vport p).rxSeq
    ++ [BitVec.ofNat 8 (o 0 + o 1 * 16), BitVec.ofNat 8 (o 2 + o 3 * 16), 0]

/-- A frame leaves a port; the credits it returns are no longer owed. Its CRC follows from its bytes. -/
def sendFrame (c : Chip) (p kind v seq : Nat) (valid ctl : Bool) (flit : List (BitVec 8)) : Chip :=
  let c' := c.emit (.vxl p kind seq (c.frameHead p v seq valid ctl ++ padTo 64 flit))
  c'.modVxl p fun q => { q with owed := q.owed.map (fun n => n - min 15 n) }

/-- A flit is sent: a credit, the next SEQ, and a place in the replay buffer (R754, R755, R763). -/
def sendFlit (c : Chip) (p v ken : Nat) (last : Bool) (flit : List (BitVec 8)) : Chip :=
  let seq := (c.vport p).txSeq
  let c := (c.meter (slotVxl p) 0 ken 1).sendFrame p 0 v seq true false flit
  let c := c.wf (R.VXL.LCRD p) (8 * v + 7) (8 * v) (c.crv p v - 1)
  c.modVxl p fun q => { q with txSeq := (seq + 1) % 4096, replay := q.replay ++ [(seq, v, last, flit)], held := q.held ++ [(v, ken)],
                               ackAt := if q.replay.isEmpty then c.now else q.ackAt,
                               turn := if v = 0 ∨ v = 2 then v else q.turn }

/-- Index of the message that a channel sends from next: one already begun; else the first whose kennel can take a
credit; records for the manager come after control messages, in rotation over kennels (R763, R764). -/
def txPick (c : Chip) (p v : Nat) : Option Nat :=
  let q := (c.vport p).txq
  let ix := (List.range q.length).filter (fun i => (q[i]?.map (fun m => m.vc == v)).getD false)
  let get (i : Nat) : TxMsg := nth ⟨0, 0, [], false, false, none⟩ q i
  match ix.find? (fun i => (get i).begun) with
  | some i => if c.vcredit p v (get i).ken then some i else none
  | none =>
    let able := ix.filter (fun i => c.vcredit p v (get i).ken)
    match able.find? (fun i => !(get i).rec_) with
    | some i => some i
    | none =>
      ((List.range' 1 8).map (fun d => ((c.vport p).lastRec + d) % 8)).findSome? (fun k => able.find? (fun i => (get i).ken == k))

/-- The channels in the order of R764. -/
def vcOrder (c : Chip) (p : Nat) : List Nat := [3, 1] ++ (if (c.vport p).turn = 0 then [2, 0] else [0, 2])

/-- Send the next flit of a port that is UP, if one can be sent (R755, R763, R764). -/
def pump1 (c : Chip) (p : Nat) : Option Chip :=
  if c.vst p ≠ 5 ∨ 1024 ≤ (c.vport p).replay.length then none
  else ((c.vcOrder p).findSome? (c.txPick p)).bind fun i =>
    match (c.vport p).txq[i]? with
    | none => none
    | some m =>
      match m.flits with
      | [] => none
      | f :: rest =>
        let c := c.sendFlit p m.vc m.ken rest.isEmpty f
        let c := match m.from_ with
          | some q => c.modVxl q fun u => { u with owed := modNth (· + 1) u.owed m.vc }
          | none => c
        some (c.modVxl p fun q => { q with
          lastRec := if m.rec_ then m.ken else q.lastRec
          txq := if rest.isEmpty then q.txq.eraseIdx i else modNth (fun m => { m with flits := rest, begun := true }) q.txq i })

/-- Send what can be sent, by fuel. -/
def pumpN : Nat → Chip → Nat → Chip
  | 0, c, _ => c
  | n + 1, c, p => match c.pump1 p with
    | some c => pumpN n c p
    | none => c

def pump (c : Chip) (p : Nat) : Chip := pumpN ((c.vport p).txq.foldl (fun n m => n + m.flits.length) 0) c p

/-- Queue a message on a port and send what can be sent. -/
def vxlQueue (c : Chip) (p : Nat) (m : Msg) : Chip :=
  match mtVc m.mt with
  | none => c.cnt (R.VXL.LOSTM p) 31 0 1
  | some v =>
    (c.modVxl p fun q => { q with txq := q.txq ++ [⟨v, m.ken, m.flits, m.mt == 0x11, false, none⟩] }).pump p

/-- Send a request of this device: refused with 0x0604 when there is no route (R769), else queued under a new TAG, which
is answered with the device afterwards. -/
def vxlSend (c : Chip) (m : Msg) (w : Waiter) : Option Nat × Chip :=
  match (if c.numbered then c.routeTo m.dst else none) with
  | none => (none, c)
  | some p =>
    let t := c.casc.tag
    let m := { m with src := c.devNum, tag := t }
    let c := { c with casc := { c.casc with tag := (t + 1) % 0x10000, sent := c.casc.sent ++ [(⟨t, m, w, p, c.now⟩ : Sent)] } }
    (some t, c.vxlQueue p m)

/-- The request that an access through a remote window makes: a register access, or a memory read or write; `job` says
that it is a write of a DMA job (R89, R762, R765). -/
def remoteMsg (a n ken : Nat) (w : Option (List (BitVec 8))) (job : Bool) : Msg :=
  let d := (a - 0x800000000000) / 0x10000000000
  let o := a - winBase d
  let loc := if o < 0x1000000000 then 0x100000000000 + o
    else if o < 0x1008000000 then 0x1000000000 + (o - 0x1000000000)
    else if o < 0x2001800000 then 0x2000000000 + (o - 0x2000000000)
    else 0x100000000 + (o - 0xF000000000)
  let reg := 0xF000000000 ≤ o
  match w with
  | none => { mt := if reg then 4 else 1, dst := d, src := 0, ken := ken, tag := 0, addr := loc, len := n }
  | some bs => { mt := if reg then 5 else if job then 3 else 2, dst := d, src := 0, ken := ken, tag := 0, addr := loc, len := n,
                 data := bs }

/-- The response of a message, by its TAG. -/
def sentOf (c : Chip) (tag : Nat) : Option Sent := c.casc.sent.find? (fun s => s.tag == tag)
def dropSent (c : Chip) (tag : Nat) : Chip :=
  { c with casc := { c.casc with sent := c.casc.sent.filter (fun s => s.tag != tag) } }

end Chip
end Sys2Proof.Machine
end

