-- ==== Sys2Proof/Machine/Talig.lean ====
section
/-!
DEFINITION. The Talig core: bundles and their issue, exceptions and returns, branches and block repeat, loads and stores,
string issues, and the queues of the attached units.
-/
namespace Sys2Proof.Machine

/-- The slot's number, in S, M, V, N order. -/
def slotNum : Slot → Nat
  | .s => 0 | .m => 1 | .v => 2 | .n => 3

/-- What a syllable asks for, once its core's registers have been read. -/
structure Body where
  /-- Its encoding is legal (R364, R450). -/
  ok : Bool := true
  /-- The values of its registers allow it: where they do not it raises 0x0B01, unless its guard is false (R422). -/
  argOk : Bool := true
  /-- It may run at user privilege (R330). -/
  user : Bool := true
  branch : Bool := false
  alone : Bool := false
  /-- An access it makes outside the core's reach (R305, R435), or to the register window at user privilege (R330). -/
  bad : Option (Nat × BitVec 48) := none
  rep : Bool := false
  effs : List Eff := []
  beats : Nat := 0
  vmem : Bool := false
  touch : List (Nat × Nat) := []
  late : List (Nat × Nat) := []

/-- Sign-extension of a data register to 48 bits (R304). -/
def sext48 (v : BitVec 24) : BitVec 48 := v.signExtend 48

/-- The value that a load of `size` bytes gives its destination (R383). -/
def loadVal (bs : List (BitVec 8)) (size : Nat) (sext : Bool) : Nat :=
  if sext then wrapN 24 (sInt (8 * size) (natLE bs)) else natLE bs

/-- ESTAT of a core: FL, P1 to P7, PRIV, IE and BD (R319, R353). -/
def Core.estatNow (x : Core) : BitVec 16 :=
  BitVec.ofNat 16 (x.fl.toNat + x.p.toNat / 2 * 2 ^ 5 + b2n x.priv * 2 ^ 12 + b2n x.ie * 2 ^ 13 + b2n x.target.isSome * 2 ^ 14)

/-- Restore FL, P1 to P7, PRIV and IE from a saved status (R321, R417). -/
def Core.restore (x : Core) (v : BitVec 16) : Core :=
  { x with fl := BitVec.ofNat 5 v.toNat, p := BitVec.ofNat 8 (fld v 11 5 * 2 + 1), priv := bit v 12, ie := bit v 13 }

/-- Outstanding loads write their destinations before a handler's first bundle; the core waits for those that have not
returned (R319, R326, R327). -/
def Core.drainLoads (x : Core) : Core :=
  let rest := x.loads.filter (fun l => l.val.isNone)
  let x := { x.loads.foldl Core.deliver x with loads := rest.map (fun l => { l with age := 0 }) }
  if rest.isEmpty then x else { x with run := .stalled }

/-- Vector of an exception (R323). -/
def excVector (code : Nat) : Nat :=
  match code with
  | 0x0B01 => 1 | 0x0B02 => 2 | 0x0B03 => 3 | 0x0B04 => 4 | 0x0B05 => 5 | 0x0B06 => 6 | 0x0B09 => 7 | _ => 8

namespace Chip

/-! ### The program region -/

/-- A bundle address lies in the core's program region, on its grid (R347, R396). -/
def inProgram (c : Chip) (k : Nat) (a : BitVec 48) : Bool :=
  let a := a.toNat
  if k = 16 then a % 8 = 0 && (within a 24 0 0x200000 || within a 24 0x80000000 0x40000)
  else
    let b := c.r64 (R.TILE.PBASE_LO k) % 2 ^ 48
    let n := c.rf (R.TILE.PLEN k) 12 0
    b ≤ a && (a - b) % 24 = 0 && (a - b) / 24 < n

/-- Lines of a core: asserted sources, and the software interrupts of SWI (R355, R415, R988). -/
def allSlots : List Nat :=
  List.range 0x12 ++ [0x12, 0x13] ++ List.range' 0x18 4 ++ List.range' 0x20 4 ++ List.range' 0x28 8 ++ List.range' 0x100 48

def ipend (c : Chip) (k : Nat) : BitVec 16 :=
  if k = 16 then
    let hw := allSlots.foldl (fun (m : Nat) s =>
      match c.ccLine s with
      | some n => if c.irqActive s && !m.testBit n then m + 2 ^ n else m
      | none => m) 0
    BitVec.ofNat 16 hw ||| BitVec.ofNat 16 (c.r R.CC.SWI).toNat
  else
    let hw := b2n (c.irqActive (slotTile k) || c.irqActive (slotAry k) || c.irqActive (slotDrn k))
    BitVec.ofNat 16 hw ||| BitVec.ofNat 16 (c.r (R.TILE.SWI k)).toNat

/-! ### Exception entry and return -/

/-- Mirror ECAUSE and EPC of the last exception in the page (R355). -/
def mirrorExc (c : Chip) (k : Nat) : Chip :=
  let x := c.core k
  if k = 16 then (c.w R.CC.LCAUSE (x.ecause.setWidth 32)).w64 R.CC.EPCM_LO x.epc.toNat
  else (c.w (R.TILE.LCAUSE k) (x.ecause.setWidth 32)).w64 (R.TILE.EPCM_LO k) x.epc.toNat

/-- A double exception on the control core stops it (R980). -/
def ccDouble (c : Chip) (epc : Nat) : Chip :=
  let c := c.modCore 16 fun x => { x with stopReq := true, bundle := [], held := false }
  let c := (c.syncCore 16).wb R.AON.FSRC 7 true
  c.errArrive 4 0x0B07 0 0 epc

/-- Taking an exception (R319 to R325): the saved registers, supervisor privilege, EXL and the vector; a kennel fault
under XKF, and for a double exception. `addr` is the memory address where there is one, and
`epc` the address saved; `lag` is 6 from a boundary, and 7 from the issue of the excepting
bundle (R329). -/
def takeExc (c : Chip) (k code slot : Nat) (addr : Option (BitVec 48)) (epc : BitVec 48) (lag : Nat) : Chip :=
  let ken := if k = 16 then 0 else c.owner k
  if k < 16 ∧ code ≠ 0x0B09 ∧ c.rb (R.TILE.CCTL k) 2 then
    let c := c.modCore k fun x => { x with bundle := [], held := false,
                                           ecause := BitVec.ofNat 20 (code + slot * 2 ^ 16), epc := epc }
    (c.mirrorExc k).kfault (slotTile k) code ⟨1, ken⟩ (addr.getD 0).toNat ken
  else if (c.core k).exl then
    if k = 16 then c.ccDouble epc.toNat
    else
      let c := c.modCore k fun x => { x with bundle := [], held := false }
      c.kfault (slotTile k) 0x0B07 ⟨1, ken⟩ (addr.getD 0).toNat ken
  else
    let c := c.modCore k fun x =>
      let x := { x with epc := epc, ecause := BitVec.ofNat 20 (code + slot * 2 ^ 16), eaddr := addr.getD x.eaddr,
                        estat := x.estatNow, ebt := x.target.getD x.ebt, priv := true, ie := false, exl := true,
                        pc := x.ivb + BitVec.ofNat 48 (96 * excVector code), target := none, takenBr := false,
                        bundle := [], held := false, inString := false, strData := [],
                        ready := max x.ready c.cycle + lag }
      x.drainLoads
    (c.mirrorExc k).traceAdd k 0x03 epc.toNat (code + slot * 2 ^ 16)

/-- Entry of an interrupt line: as an exception, but ECAUSE, EADDR, LCAUSE and EPCM stay (R326). -/
def takeIrq (c : Chip) (k line : Nat) : Chip :=
  c.modCore k fun x =>
    let x := { x with epc := x.pc, estat := x.estatNow, ebt := x.target.getD x.ebt, priv := true, ie := false, exl := true,
                      pc := x.ivb + BitVec.ofNat 48 (96 * (16 + line)), target := none, takenBr := false,
                      inString := false, strData := [], ready := max x.ready c.cycle + 6 }
    x.drainLoads

/-- Entry of the NMI (R327), with event 0x0B08 (R357). -/
def takeNmi (c : Chip) (k : Nat) : Chip :=
  let c := c.traceAdd k 0x03 (c.core k).pc.toNat (2 ^ 18)
  let c := c.modCore k fun x =>
    let x := { x with nepc := x.pc, nestat := x.estatNow, ebt := x.target.getD x.ebt, priv := true, ie := false, nxl := true,
                      nmi := false, pc := x.ivb + BitVec.ofNat 48 (96 * 8), target := none, takenBr := false,
                      inString := false, strData := [], ready := max x.ready c.cycle + 6 }
    x.drainLoads
  c.report (corePage k) 0x0B08 .event ⟨if k = 16 then 0 else 1, if k = 16 then 0 else c.owner k⟩ 0

/-! ### Block repeat -/

end Chip

/-- Repeat level `l` of a core is active; an address lies in its block (R312). -/
def Core.act (x : Core) (l : Nat) : Bool := x.repst.getLsbD l
def Core.LS (x : Core) (l : Nat) : Nat := (nth 0 x.ls l).toNat
def Core.LE (x : Core) (l : Nat) : Nat := (nth 0 x.le l).toNat
def Core.inBlock (x : Core) (l a : Nat) : Bool := x.act l && x.LS l ≤ a && a ≤ x.LE l
def Core.clearAct (x : Core) (l : Nat) : Core := { x with repst := x.repst &&& ~~~ (BitVec.ofNat 2 (2 ^ l)) }

/-- The address is one of the last two bundles of an active block (R314). -/
def Core.lastTwo (x : Core) (a : Nat) : Bool :=
  (List.range 2).any (fun l => x.inBlock l a && (a == x.LE l || a + 24 == x.LE l))

/-- One level decides at its end bundle: loop back, or clear (R313). -/
def Core.loopAt (x : Core) (l : Nat) : Core :=
  let n := (nth 0 x.lc l).toNat
  if 1 < n then { x with lc := x.lc.set l (BitVec.ofNat 24 (n - 1)), pc := nth 0 x.ls l } else x.clearAct l

/-- The loop-back at the bundle that has completed: level 1 first, level 0 only when level 1 has cleared (R313). -/
def Core.loopBack (x : Core) : Core :=
  if !x.loopDue then x
  else
    let at_ := (x.pc - 24).toNat
    let x := { x with loopDue := false }
    let one := x.act 1 && x.LE 1 == at_
    let x := if one then x.loopAt 1 else x
    if one && x.act 1 then x
    else if x.act 0 && x.LE 0 == at_ then x.loopAt 0 else x

/-- A branch from inside a block to outside it clears its level when the target issues (R397). -/
def Core.leaveBlocks (x : Core) (from_ to_ : Nat) : Core :=
  (List.range 2).foldl (fun x l => if x.inBlock l from_ && !x.inBlock l to_ then x.clearAct l else x) x

/-- A REPB breaks the rules of the repeat levels: its level is active, or the blocks would not nest (R314, R399). -/
def Core.repbBad (x : Core) (lvl : Nat) (lenm1 : Nat) : Bool :=
  let s := x.pc.toNat + 24
  let e := x.pc.toNat + 24 * (lenm1 + 1)
  x.act lvl ||
    (if lvl = 1 then x.inBlock 0 x.pc.toNat && decide (x.LE 0 < e)
     else x.act 1 && !(decide (s ≤ x.LS 1) && decide (x.LE 1 ≤ e)))

namespace Chip

/-! ### The bundle -/

/-- A bus error that has arrived is taken at the boundary (R322, R328). -/
def takeBusErr (c : Chip) (k : Nat) : Chip :=
  match (c.core k).busErrs with
  | [] => c
  | e :: rest =>
    let c := c.modCore k fun x => { x with busErrs := rest, ebnd := BitVec.ofNat 48 e.bundle }
    c.takeExc k 0x0B03 1 (some (BitVec.ofNat 48 e.addr)) (c.core k).pc 6

/-- The line that would be accepted: the lowest that is pending and enabled (R326). -/
def irqLine (c : Chip) (k : Nat) : Option Nat :=
  let v := c.ipend k &&& (c.core k).ien
  (List.range 16).find? (fun n => v.getLsbD n)

/-- The core may accept an interrupt at this boundary (R326, R958). -/
def irqOk (c : Chip) (k : Nat) : Bool :=
  let x := c.core k
  x.ie && !x.exl && !(decide (k < 16) && c.rb (R.TILE.CCTL k) 1) && !x.takenBr && (!c.dbg.stepping.contains k || c.rb R.DBG.DCTL 3)

/-- The first event that is pending at a boundary is taken, in the order of R328. -/
def takeEvent (c : Chip) (k : Nat) : Chip :=
  let x := c.core k
  if x.nmi then (if x.nxl then c.modCore k fun x => { x with nmi := false } else c.takeNmi k)
  else if !x.busErrs.isEmpty then c.takeBusErr k
  else match c.irqLine k with
    | some n => if c.irqOk k then c.takeIrq k n else c
    | none => c

/-- An enabled breakpoint names the core and its next bundle; a string bundle that has begun is not stopped again (R957). -/
def bpHit (c : Chip) (k : Nat) : Bool :=
  !(c.core k).bpPast && !(c.core k).inString && (List.range 4).any (fun i =>
    c.rb (R.DBG.BPCTL i) 31 && c.rb (R.DBG.BPCTL i) k && c.r64 (R.DBG.BP_LO i) % 2 ^ 48 == (c.core k).pc.toNat)

/-- The halt causes of a core at this boundary: bits as HCAUSE has them, 0 for none (R956, R972). -/
def haltCause (c : Chip) (k : Nat) : Nat := (c.haltDue k).getD 0 ||| (if c.bpHit k then 2 else 0)

/-- A core halts (R956): pending events are taken first, every outstanding load has written its destination, and every vector
beat has completed. With FRZK its kennel freezes with it (R959). -/
def haltCore (c : Chip) (k cause : Nat) : Chip :=
  let c := if (c.core k).run = .run then c.takeEvent k else c
  let c := c.waitTo (cyc (c.core k).vBeat)
  let c := c.modCore k fun x => { x.flush with before := x.run, run := .halted, bpPast := decide (2 ≤ cause % 4) }
  let c := { c with dbg := { c.dbg with haltReq := c.dbg.haltReq.filter (fun h => h.1 != k),
                                        stepping := c.dbg.stepping.filter (· != k) } }
  let c := ((c.wb R.DBG.HREQ k false).wb R.DBG.HSTEP k false).wb R.DBG.HSTAT k true
  let c := (c.wf (R.DBG.HCAUSE k) 2 0 cause).traceAdd k 0x07 (c.core k).pc.toNat cause
  let g := if k = 16 then 0 else c.owner k
  if c.rb R.DBG.DCTL 2 && c.kstate g == 0 then
    let c := { c with dbg := { c.dbg with frzk := g :: c.dbg.frzk } }
    let c := { c with kens := modNth (fun s => { s with tiles := c.tilesOf g }) c.kens g }
    ((c.wb (R.KMAP.KCTL g) 0 true).wf (R.KMAP.KSTAT g) 1 0 1).syncKennel g
  else c

/-- A halted core resumes, and with it the kennel that its halt froze (R954, R959). -/
def haltEnd (c : Chip) (k : Nat) : Chip :=
  if (c.core k).run ≠ .halted then c
  else
    let g := if k = 16 then 0 else c.owner k
    let c := c.modCore k fun x =>
      if x.before = .waitt ∧ x.relPend then { x with run := .run, relPend := false } else { x with run := x.before }
    let c := ((c.wb R.DBG.HSTAT k false).wb R.DBG.HRES k false).traceAdd k 0x08 (c.core k).pc.toNat 0
    let c := if c.dbg.frzk.contains g then
        let c := ({ c with dbg := { c.dbg with frzk := c.dbg.frzk.filter (· != g) } }).wb (R.KMAP.KCTL g) 0 false
        if c.kstate g = 2 then (c.wf (R.KMAP.KSTAT g) 1 0 0).syncKennel g else c
      else c
    c.syncCore k

/-- A halt cause that meets a taken-branch bundle waits for the next boundary (R956). -/
def haltLater (c : Chip) (k : Nat) : Chip :=
  if c.bpHit k && (c.haltDue k).isNone then { c with dbg := { c.dbg with haltReq := (k, 2) :: c.dbg.haltReq } } else c

/-- What happens at a boundary before the first syllable of a bundle: the loop-back, a freeze, a halt, a bus error (R315, R328,
R956). -/
def boundary (c : Chip) (k : Nat) : Chip :=
  let x := c.core k
  if !x.bundle.isEmpty || x.run != .run then c
  else
    let c := c.modCore k Core.loopBack
    let c := c.syncCore k
    if (c.core k).run != .run || c.coreFrz k || (c.core k).stopReq then c
    else if c.haltCause k = 0 then c.takeBusErr k
    else if (c.core k).takenBr then c.haltLater k
    else if (c.core k).loadsIn then c.haltCore k (c.haltCause k)
    else c

/-- A core takes a syllable: it is issuing, and no freeze, stop or halt waits for its loads (R349, R358, R956, log entry 6). -/
def coreIssues (c : Chip) (k : Nat) : Bool :=
  let x := c.core k
  x.run == .run && (!x.bundle.isEmpty || (!c.coreFrz k && !x.stopReq && (c.haltCause k == 0 || x.takenBr)))

/-- The exception of a completed bundle: slot, code and address of its first excepting syllable (R319, R421, R422). -/
def bundleExc (c : Chip) (k : Nat) : Option (Nat × Nat × Option (BitVec 48)) :=
  let x := c.core k
  if !c.inProgram k x.pc then some (0, 0x0B02, some x.pc)
  else
    let runs := (x.bundle.filter (·.ran)).length
    let delay := x.takenBr || x.target.isSome
    let last := x.lastTwo x.pc.toNat
    let say (r : SylRec) : Option (Nat × Option (BitVec 48)) :=
      match r.exc with
      | some (0x0B01, a) => some (0x0B01, a)
      | e =>
        if r.ran && r.alone && 1 < runs then some (0x0B01, none)
        else match e with
          | some e => some e
          | none =>
            if r.ran && r.branch && delay then some (0x0B05, none)
            else if (r.branch && last) || (r.ran && r.rep) then some (0x0B06, none)
            else none
    let slotFirst (s : Nat) : Option (Nat × Nat × Option (BitVec 48)) :=
      (x.bundle.filter (·.slot == s)).findSome? (fun r => (say r).map (fun e => (s, e.1, e.2)))
    [0, 1, 2, 3].findSome? slotFirst

/-! ### Attached units -/

/-- Entries used of the queue a command would enter, and the queue's size (R332, R522, R564, R615, R336, R673). -/
def attachFull (c : Chip) (k : Nat) (a : Attach) : Bool :=
  match a with
  | .acfg .. | .awld .. | .astr .. | .aswp | .afree => 8 ≤ (nth {} c.ary k).queue.length
  | .djob .. => 8 ≤ (nth {} c.drn k).queue.length
  | .dmaj .. | .tdnew .. | .tdinv .. | .otinv .. => 8 ≤ (nth {} c.ports k).queue.length
  | .lsmp .. | .lrew .. => 16 ≤ c.lrn.queue.length
  | .cxcmd .. | .cxfence .. => 8 ≤ c.custQueued k

/-- TQST of a requester's job queue (R623). -/
def showPort (c : Chip) (k : Nat) : Chip :=
  let n := (nth {} c.ports k).queue.length
  if k = 16 then c.wf R.CC.TQST 3 0 n else c.wf (R.TILE.TQST k) 3 0 n

/-- ASTAT and DSTAT as they follow from the queues (R540, R575). -/
def showAry (c : Chip) (t : Nat) : Chip :=
  let u := nth {} c.ary t
  let c := c.wb (R.ARY.ASTAT t) 0 (!u.queue.isEmpty || u.loading.isSome || !u.runs.isEmpty)
  let c := c.wf (R.ARY.ASTAT t) 4 1 u.queue.length
  let c := c.wf (R.ARY.ASTAT t) 6 5 (if u.loading.isSome then 1 else if u.shadow.isSome then 2 else 0)
  c.wb (R.ARY.ASTAT t) 7 u.active.isSome
def showDrn (c : Chip) (t : Nat) : Chip :=
  let u := nth {} c.drn t
  (c.wb (R.DRN.DSTAT t) 0 (!u.queue.isEmpty || !u.jobs.isEmpty)).wf (R.DRN.DSTAT t) 4 1 u.queue.length

/-- The live copy of a drain profile (R551, R575). -/
def liveProfile (c : Chip) (t p : Nat) : List (BitVec 32) := (List.range 13).map (fun i => c.r (R.DRN.LIVE_PCFG t p + 4 * i))

/-- The ring command of a customer command or fence, from the DMA port's side (R335, R339). -/
def custNtf (c : Chip) (t ctx : Nat) (free : Bool) (bundle : Nat) : Res × Chip :=
  c.ringCmd t ctx free 3 (.ext (.cust (Fin.ofNat 16 t))) bundle

/-- What stands at the head of a tile's customer queue goes on where it can: a ring command that waited, a fence once every
earlier command has completed or ended (R335), a command that meets a port that is not UP and ends (R342). -/
def custRun1 (c : Chip) (t : Nat) : Option Chip :=
  match (c.custSt t).ntf with
  | (x, free, b) :: rest =>
    let r := c.custNtf t x free b
    match r.1 with
    | .stall .. => none
    | _ => some (r.2.modCust t fun u => { u with ntf := rest })
  | [] =>
    match (c.custSt t).queue.findIdx? (fun q => !q.sent) with
    | none => none
    | some i =>
      match (c.custSt t).queue[i]? with
      | none => none
      | some q =>
        match q.a with
        | .cxfence rcf ctx =>
          if i ≠ 0 then none
          else
            let r := c.custNtf t ctx rcf q.bundle
            match r.1 with
            | .stall .. => none
            | _ => some (r.2.modCust t fun u => { u with queue := u.queue.drop 1 })
        | _ => if c.custUp then none else some ((c.custEnd t i).report (slotTile t) 0x0B55 .event ⟨2, c.owner t⟩ 0)

def custRunN : Nat → Chip → Nat → Chip
  | 0, c, _ => c
  | n + 1, c, t => match c.custRun1 t with
    | some c => custRunN n c t
    | none => c

def custRun (c : Chip) (t : Nat) : Chip := custRunN ((c.custSt t).queue.length + (c.custSt t).ntf.length) c t

/-- A command enters its unit's queue. A learning-engine command of another kennel than LRNK is refused with 0x0506 (R333). -/
def attachPush (c : Chip) (k : Nat) (a : Attach) (bundle at_ : Nat) : Chip :=
  match a with
  | .acfg .. | .awld .. | .astr .. | .aswp | .afree =>
    let f (u : ArySt) : ArySt := { u with queue := u.queue ++ [(⟨a, bundle, at_, u.seq⟩ : AryCmd)], seq := u.seq + 1 }
    ({ c with ary := modNth f c.ary k }).showAry k
  | .djob p ad dr dn ntf wa _ _ =>
    let a' := Attach.djob p ad dr dn ntf wa (c.liveProfile k p) (nth {} c.ary k).seq
    ({ c with drn := modNth (fun (u : DrnSt) => { u with queue := u.queue ++ [(⟨a', bundle, at_⟩ : DrnCmd)] }) c.drn k }).showDrn k
  | .dmaj .. | .tdnew .. | .tdinv .. | .otinv .. =>
    let c := match a with
      | .tdnew i _ _ =>
        let r := if k = 16 then R.CC.TDRES else R.TILE.TDRES k
        let x := if k = 16 then R.CC.TDRIX else R.TILE.TDRIX k
        (c.w r 1).wf x 15 0 i
      | _ => c
    ({ c with ports := modNth (fun (u : JobPort) => { u with queue := u.queue ++ [(⟨a, bundle, none⟩ : Queued)] }) c.ports k }).showPort k
  | .lsmp .. | .lrew .. =>
    if c.owner k = c.lrnk then
      let c := { c with lrn := { c.lrn with queue := c.lrn.queue ++ [(a, k, bundle)] } }
      c.wf R.LRN.LQ 4 0 c.lrn.queue.length
    else c.kfault (slotTile k) 0x0506 ⟨1, c.owner k⟩ 0 (c.owner k)
  | .cxcmd .. | .cxfence .. =>
    let f (u : CustSt) : CustSt := { u with queue := u.queue ++ [(⟨a, bundle, 0, false, c.now, c.owner k⟩ : CustCmd)] }
    (c.modCust k f).custRun k

/-- The address of the 64-byte record that a command reads at issue (R335, R614). -/
def attachRec : Attach → Option Nat
  | .dmaj _ a _ | .tdnew _ a _ | .cxcmd _ _ _ _ _ _ a _ => some a
  | _ => none

def withRec (a : Attach) (bs : List (BitVec 8)) : Attach :=
  match a with
  | .dmaj e ad _ => .dmaj e ad bs
  | .tdnew i ad _ => .tdnew i ad bs
  | .cxcmd f da db n r x ad _ => .cxcmd f da db n r x ad bs
  | a => a

/-! ### Memory accesses of a bundle -/

/-- The bytes lie in the core's own scratchpad (R306, R435). -/
def ownSp (c : Chip) (k a n : Nat) : Bool := k < 16 && c.regionOf (c.ownWindow a n) n == .sp k

/-- The core's trial of a bundle's accesses: goes on, or stalls on a tagged ring. -/
abbrev Trial := Except (Nat × Nat) Chip

/-- The refusal of an access reaches the core (R136, R322). -/
def coreRefused (c : Chip) (k code a : Nat) : Chip :=
  c.modCore k fun x => if x.run = .stopped then x else { x with busErrs := x.busErrs ++ [⟨code, a, x.pc.toNat⟩] }

def bundleOf (c : Chip) (k : Nat) : Mover := ⟨.core k, (c.core k).pc.toNat⟩

/-- An access of a core reaches another device: a remote window (R305). -/
def isRemote (c : Chip) (a n : Nat) : Bool :=
  match c.regionOf (c.ownWindow a n) n with
  | .remote _ => true
  | _ => false

/-- No route leads to the device: the access is refused with 0x0604 (R769, R799). -/
def noRoute (c : Chip) (k a : Nat) : Chip :=
  (c.report (slotVxl 0) 0x0604 .refusal ⟨if k = 16 then 0 else 1, if k = 16 then 0 else c.owner k⟩ a).coreRefused k 0x0604 a

def pushLoad (c : Chip) (k : Nat) (l : Load) : Chip := c.modCore k fun x => { x with loads := x.loads ++ [{ l with seq := x.accSeq }], accSeq := x.accSeq + 1 }

/-- A scalar load: at once in the own scratchpad, outstanding on any other path (R306, R308). -/
def doLoad (c : Chip) (k : Nat) (d : LoadDest) (a n : Nat) (sext : Bool) : Trial :=
  let pc := (c.core k).pc.toNat
  if c.ownSp k a n then
    let r := c.readMem (c.bundleOf k) a n
    match r.res with
    | .stall t x => .error (t, x)
    | .refused code => .ok ((r.chip.coreRefused k code a).pushLoad k ⟨d, 2, some 0, a, n, sext, pc, 0, none, 0⟩)
    | .fault _ => .ok (r.chip.pushLoad k ⟨d, 2, some (loadVal r.data n sext), a, n, sext, pc, 0, none, 0⟩)
    | .ok => .ok (r.chip.pushLoad k ⟨d, 2, some (loadVal r.data n sext), a, n, sext, pc, 0, none, 0⟩)
  else if c.isRemote a n then
    match c.vxlSend (remoteMsg a n 0 none false) (.core k) with
    | (some t, c) => .ok (c.pushLoad k { dest := d, age := 2, val := none, addr := a, size := n, sext := sext, bundle := pc, tag := some t })
    | (none, c) => .ok ((c.noRoute k a).pushLoad k ⟨d, 2, some 0, a, n, sext, pc, 0, none, 0⟩)
  else .ok (c.pushLoad k ⟨d, 2, none, a, n, sext, pc, 0, none, 0⟩)

/-- A scalar store: at once in the own scratchpad, posted on any other path (R306, R387). -/
def doStore (c : Chip) (k a : Nat) (bs : List (BitVec 8)) : Trial :=
  if c.ownSp k a bs.length then
    let r := c.writeMem (c.bundleOf k) a bs
    match r.res with
    | .stall t x => .error (t, x)
    | .refused code => .ok (r.chip.coreRefused k code a)
    | _ => .ok r.chip
  else if c.isRemote a bs.length then
    match c.vxlSend (remoteMsg a bs.length 0 (some bs) false) (.core k) with
    | (some t, c) => .ok (c.modCore k fun x => { x with posted := x.posted ++ [⟨a, bs, x.pc.toNat, some t, x.accSeq⟩], accSeq := x.accSeq + 1 })
    | (none, c) => .ok (c.noRoute k a)
  else .ok (c.modCore k fun x => { x with posted := x.posted ++ [⟨a, bs, x.pc.toNat, none, x.accSeq⟩], accSeq := x.accSeq + 1 })

/-- The beats of a vector access: start and length within each 192-byte block, counted from the scratchpad's base (R436). -/
def vBeats (o n : Nat) : List (Nat × Nat) :=
  if n = 0 then []
  else (List.range ((o + n - 1) / 192 - o / 192 + 1)).map (fun i =>
    let s := max o ((o / 192 + i) * 192)
    (s, min (o + n) ((o / 192 + i + 1) * 192) - s))

/-- A vector load's beats: the bytes of the group (R436, R438). A failed beat reads 0. -/
def vRead (c : Chip) (k : Nat) (a n : Nat) : Except (Nat × Nat) (List (BitVec 8) × Chip) :=
  (vBeats (a - spBase k) n).foldlM (fun (acc : List (BitVec 8) × Chip) b =>
    let r := acc.2.readMem (acc.2.bundleOf k) (spBase k + b.1) b.2
    match r.res with
    | .stall t x => .error (t, x)
    | .refused code => .ok (acc.1 ++ zeros b.2, r.chip.coreRefused k code (spBase k + b.1))
    | _ => .ok (acc.1 ++ r.data, r.chip)) ([], c)

/-- Runs of active bytes: start and bytes of each. -/
def activeRuns (a : Nat) (act : Nat → Bool) (bs : List (BitVec 8)) : List (Nat × List (BitVec 8)) :=
  let step (acc : List (Nat × List (BitVec 8))) (x : Nat × BitVec 8) : List (Nat × List (BitVec 8)) :=
    if !act x.1 then acc
    else match acc with
      | (s, l) :: r => if s + l.length = a + x.1 then (s, l ++ [x.2]) :: r else (a + x.1, [x.2]) :: acc
      | [] => [(a + x.1, [x.2])]
  ((List.range bs.length).zip bs).foldl step [] |>.reverse

/-- A vector store's beats, in order; a beat that fails stops the rest (R438, R469). The whole of each beat is checked,
the active bytes are written (R428, R438). -/
def vWrite (c : Chip) (k a : Nat) (act : Nat → Bool) (bs : List (BitVec 8)) : Trial :=
  let step (acc : Bool × Chip) (b : Nat × Nat) : Except (Nat × Nat) (Bool × Chip) :=
    if !acc.1 then .ok acc
    else
      let c := acc.2
      let o := b.1 - (a - spBase k)
      let part := (bs.drop o).take b.2
      match c.unavailable (.sp k) (spBase k + b.1) b.2 with
      | some (slot, code, _) =>
        .ok (false, (c.report slot code .refusal ⟨1, c.owner k⟩ (spBase k + b.1)).coreRefused k code (spBase k + b.1))
      | none =>
        match c.spCheck (c.bundleOf k) k b.1 b.2 with
        | (_, some r) => match r.res with
          | .stall t x => .error (t, x)
          | .refused code => .ok (false, r.chip.coreRefused k code (spBase k + b.1))
          | _ => .ok (false, r.chip)
        | (c, none) =>
          .ok (true, (activeRuns (spBase k + b.1) (fun i => act (o + i)) part).foldl (fun c w => c.eccWrite (.sp k) w.1 w.2) c)
  ((vBeats (a - spBase k) bs.length).foldlM step (true, c)).map (·.2)

/-- The cost in beats of a vector access (R436). -/
def vCost (k : Nat) (a : BitVec 48) (n : Nat) : Nat :=
  let o := (a - BitVec.ofNat 48 (spBase k)).toNat
  (o + n - 1) / 192 - o / 192 + 1

/-! ### String issues -/

/-- Element size and signed step of the string registers (R402). -/
def strElem (x : Core) : Nat := match fld x.sdir 1 0 with | 0 => 1 | 1 => 2 | 2 => 3 | _ => 6
def strDown (x : Core) : Bool := bit x.sdir 2

/-- First byte of the range that `n` elements from an address cover (R402). -/
def strLow (x : Core) (a : BitVec 48) (n : Nat) : Nat :=
  if strDown x then (a - BitVec.ofNat 48 (strElem x * (n - 1))).toNat else a.toNat

/-- Element `i` of a range that was read from its first byte. -/
def strElemAt (x : Core) (bs : List (BitVec 8)) (n i : Nat) : List (BitVec 8) :=
  let e := strElem x
  (bs.drop ((if strDown x then n - 1 - i else i) * e)).take e

/-- Read a string's source range: at once in the own scratchpad; on another path the bundle waits until the load has
returned (R406). -/
def strRead (c : Chip) (k a n : Nat) : Except (Nat × Nat) (Option (List (BitVec 8)) × Chip) :=
  if c.ownSp k a n then
    let r := c.readMem (c.bundleOf k) a n
    match r.res with
    | .stall t x => .error (t, x)
    | .refused code => .ok (some (zeros n), r.chip.coreRefused k code a)
    | _ => .ok (some r.data, r.chip)
  else
    match ((c.core k).strData.find? (fun d => d.1 == a)).map (·.2) with
    | some bs => .ok (some bs, c)
    | none =>
      if (c.core k).loads.any (fun l => l.dest == .str && l.addr == a) then .ok (none, c)
      else .ok (none, c.pushLoad k ⟨.str, 0, none, a, n, false, (c.core k).pc.toNat, 0, none, 0⟩)

/-- One 192-byte boundary in a range of the own scratchpad costs a cycle (R406). -/
def strCross (k a n : Nat) : Nat := if (a - spBase k) / 192 = (a + n - 1 - spBase k) / 192 then 0 else 1

/-- One issue of a string syllable (R402 to R405), and the cycles it costs: 0 while a source has not returned. -/
def strIssue (c : Chip) (k op src val : Nat) : Except (Nat × Nat) (Chip × Nat) := do
  let x := c.core k
  let e := strElem x
  let n := min x.scnt.toNat (24 / e)
  let step (m : Nat) : BitVec 48 := if strDown x then -(BitVec.ofNat 48 (e * m)) else BitVec.ofNat 48 (e * m)
  let a12 := x.A 12
  let a13 := x.A 13
  let fin (c : Chip) (done : Bool) : Chip :=
    c.modCore k fun x => { x with strData := [], inString := !done }
  if n = 0 then
    let c := if op = 2 then c.modCore k (fun x => x.setP (src % 8) true) else c
    return (fin c true, 1)
  else
    let lo12 := strLow x a12 n
    let lo13 := strLow x a13 n
    if op = 1 then
      let one := bytesLE e val
      let bs := (List.range n).flatMap (fun _ => one)
      let c ← c.doStore k lo13 bs
      let c := c.modCore k fun x => { (x.setA 13 (a13 + step n)) with scnt := x.scnt - BitVec.ofNat 24 n }
      return (fin c ((c.core k).scnt == 0), 1 + strCross k lo13 (n * e))
    else
      let (d12, c) ← c.strRead k lo12 (n * e)
      if op = 0 then
        match d12 with
        | none => return (c, 0)
        | some bs =>
          let out := (List.range n).map (fun i => strElemAt x bs n i)
          let out := if strDown x then out.reverse else out
          let c ← c.doStore k lo13 out.flatten
          let c := c.modCore k fun x =>
            { ((x.setA 12 (a12 + step n)).setA 13 (a13 + step n)) with scnt := x.scnt - BitVec.ofNat 24 n }
          return (fin c ((c.core k).scnt == 0), 2 + strCross k lo12 (n * e) + strCross k lo13 (n * e))
      else
        let (d13, c) ← c.strRead k lo13 (n * e)
        match d12, d13 with
        | some s, some d =>
          let m := ((List.range n).find? (fun i => strElemAt x s n i != strElemAt x d n i)).getD n
          let c := c.modCore k fun x =>
            { ((x.setA 12 (a12 + step m)).setA 13 (a13 + step m)) with scnt := x.scnt - BitVec.ofNat 24 m }
          let done := m < n || (c.core k).scnt == 0
          let c := if m < n then c.modCore k (fun x => x.setP (src % 8) false)
            else if (c.core k).scnt == 0 then c.modCore k (fun x => x.setP (src % 8) true) else c
          return (fin c done, 2 + strCross k lo12 (n * e) + strCross k lo13 (n * e))
        | _, _ => return (c, 0)

/-! ### Control registers -/

/-- A control register's value (R353, R412). -/
def crRead (c : Chip) (k n : Nat) : Option (BitVec 48) :=
  let x := c.core k
  let z {w : Nat} (v : BitVec w) : Option (BitVec 48) := some (v.setWidth 48)
  match n with
  | 0x00 => z x.fl
  | 0x01 => z (x.p ||| 1)
  | 0x02 => some (BitVec.ofNat 48 (if k = 16 then 31 + 2 ^ 8 else k + c.owner k * 2 ^ 5))
  | 0x03 => some (BitVec.ofNat 48 (b2n x.ie + 2 * b2n x.priv + 4 * b2n x.exl + 8 * b2n x.nxl))
  | 0x04 => z x.epc | 0x05 => z x.estat | 0x06 => z x.ecause | 0x07 => z x.eaddr | 0x08 => z x.ebt | 0x09 => z x.ebnd
  | 0x0A => z x.ivb | 0x0B => z x.ien | 0x0C => z (c.ipend k) | 0x0D => z x.nepc | 0x0E => z x.nestat
  | 0x10 => z (nth 0 x.lc 0) | 0x11 => z (nth 0 x.ls 0) | 0x12 => z (nth 0 x.le 0)
  | 0x13 => z (nth 0 x.lc 1) | 0x14 => z (nth 0 x.ls 1) | 0x15 => z (nth 0 x.le 1)
  | 0x16 => z x.repst | 0x17 => z x.scnt | 0x18 => z x.sdir
  | 0x19 => some (BitVec.ofNat 48 ((c.now - x.relAt) / 5))
  | 0x1A => z x.fnum
  | 0x1C => z (nth 0 x.sscr 0) | 0x1D => z (nth 0 x.sscr 1) | 0x1E => z (nth 0 x.sscr 2) | 0x1F => z (nth 0 x.sscr 3)
  | _ => none

/-- Control registers that only supervisor privilege writes (R353). -/
def crSuper (n : Nat) : Bool := (0x03 ≤ n && n ≤ 0x0B) || n == 0x0D || n == 0x0E
/-- Control registers that ignore MTC (R353). -/
def crRO (n : Nat) : Bool := n == 0x02 || n == 0x0C || n == 0x19 || n == 0x1A

end Chip

/-- Write a control register (R353, R413, R414). -/
def Core.mtc (x : Core) (n : Nat) (v : BitVec 48) : Core :=
  match n with
  | 0x00 => { x with fl := v.setWidth 5 }
  | 0x01 => { x with p := (v.setWidth 8) ||| 1 }
  | 0x03 => { x with ie := bit v 0, priv := bit v 1, exl := bit v 2, nxl := bit v 3 }
  | 0x04 => { x with epc := v } | 0x05 => { x with estat := v.setWidth 16 &&& 0x7FFF } | 0x06 => { x with ecause := v.setWidth 20 }
  | 0x07 => { x with eaddr := v } | 0x08 => { x with ebt := v } | 0x09 => { x with ebnd := v }
  | 0x0A => { x with ivb := v &&& ~~~ 7 } | 0x0B => { x with ien := v.setWidth 16 }
  | 0x0D => { x with nepc := v } | 0x0E => { x with nestat := v.setWidth 16 &&& 0x7FFF }
  | 0x10 => { x with lc := x.lc.set 0 (v.setWidth 24) } | 0x11 => { x with ls := x.ls.set 0 v } | 0x12 => { x with le := x.le.set 0 v }
  | 0x13 => { x with lc := x.lc.set 1 (v.setWidth 24) } | 0x14 => { x with ls := x.ls.set 1 v } | 0x15 => { x with le := x.le.set 1 v }
  | 0x16 => { x with repst := v.setWidth 2 } | 0x17 => { x with scnt := v.setWidth 24 } | 0x18 => { x with sdir := v.setWidth 3 }
  | 0x1C => { x with sscr := x.sscr.set 0 v } | 0x1D => { x with sscr := x.sscr.set 1 v }
  | 0x1E => { x with sscr := x.sscr.set 2 v } | 0x1F => { x with sscr := x.sscr.set 3 v }
  | _ => x

/-- A register effect of a syllable at the end of its bundle (R302). -/
def Core.apply (x : Core) (cyc : Nat) (e : Eff) : Core :=
  match e with
  | .wd r v => x.setD r v
  | .wa r v => x.setA r v
  | .wx r v => x.setX r v
  | .wp r v => x.setP r v
  | .flags v => { x with fl := (x.fl &&& 16) ||| v.setWidth 5 }
  | .sat => { x with fl := x.fl ||| 16 }
  | .wv r m v => (x.setV r (mergeV (x.V r) v m)).fixPar 0 r (fun p => (List.range 8).any (fun i => m.getLsbD (8 * p + i)))
  | .wm r m v =>
    if r = 0 then x
    else (x.setM r ((x.M r &&& ~~~ m) ||| (v &&& m))).fixPar 1 r (fun p => (List.range 64).any (fun i => m.getLsbD (64 * p + i)))
  | .wva r m v =>
    let s := spread 6144 768 m.toNat
    (x.setVA r ((x.VA r &&& ~~~ s) ||| (v &&& s))).fixPar 2 r (fun p => (List.range 8).any (fun i => m.getLsbD (8 * p + i)))
  | .cyc r => x.setA r (BitVec.ofNat 48 (cyc - x.relAt / 5))
  | .mtc n v => x.mtc n v
  | .repb lvl lenm1 count =>
    if count = 0 then x
    else
      let l := b2n lvl
      { x with ls := x.ls.set l (x.pc + 24), le := x.le.set l (x.pc + BitVec.ofNat 48 (24 * (lenm1 + 1))),
               lc := x.lc.set l (BitVec.ofNat 24 count), repst := x.repst ||| BitVec.ofNat 2 (2 ^ l) }
  | .eret => { x.restore x.estat with exl := false }
  | .nret => { x.restore x.nestat with nxl := false }
  | _ => x

end Sys2Proof.Machine
end

