-- ==== Sys2Proof/Machine/Issue.lean ====
section
/-!
DEFINITION. How a bundle is put together from its syllables, issued, held and retried; releases, interrupts and the NMI.
-/
namespace Sys2Proof.Machine
namespace Chip

/-! ### What an issue waits for -/

/-- The vector unit's power: VSTAT.PWR without the tile's (R441 to R443, R465). -/
def vOn (c : Chip) (k : Nat) : Bool := c.rf (R.TILE.VSTAT k) 1 0 == 0

/-- A wake of the vector unit begins and completes 240 cycles later (R443); it is counted (R465). -/
def vWake (c : Chip) (k : Nat) (from_ : Nat) (delays : Bool) : Chip :=
  let c := if c.rf (R.TILE.VSTAT k) 1 0 == 2 then
      let c := ((c.wf (R.TILE.VSTAT k) 1 0 1).cnt (R.TILE.VWAKE k) 15 0 1).meter (slotTile k) 2 (c.owner k) 1
      c.modCore k fun x => { x with wakeEnd := some (from_ + 240) }
    else c
  if delays then c.cnt (R.TILE.VWAKE k) 31 16 1 else c

/-- The wake completes: the unit is on (R443). -/
def vWakeDone (c : Chip) (k at_ : Nat) : Chip :=
  let c := c.wf (R.TILE.VSTAT k) 1 0 0
  c.modCore k fun x => { x with wakeEnd := none, idleAt := at_ }

/-- The cycle in which the bundle of a core issues (R430 to R434, R437, R442). -/
def issueCycle (c : Chip) (k : Nat) : Nat :=
  let x := c.core k
  let t := max c.cycle x.ready
  let hasV := x.bundle.any (fun r => decide (0 < r.beats))
  let t := if hasV then max t x.vBeat else t
  let touched := x.bundle.flatMap (·.touch)
  let t := x.waits.foldl (fun t w => if touched.contains (w.1, w.2.1) then max t w.2.2 else t) t
  let port := x.bundle.any (fun r => r.ran && r.effs.any (fun e => match e with
    | .load _ a n _ => c.ownSp k a n
    | .store a bs => c.ownSp k a bs.length
    | .attach a => (attachRec a).isSome && k != 16
    | _ => false))
  if port then max t x.vPort else t

/-- A core cannot issue its bundle now and holds it (R294). -/
def holdCore (c : Chip) (k : Nat) : Chip := c.modCore k fun x => { x with held := true, run := .stalled }

/-! ### The accesses of a bundle -/

/-- The effects of the executing syllables of a bundle, in slot order. -/
def bundleEffs (x : Core) : List Eff :=
  [0, 1, 2, 3].flatMap (fun s => (x.bundle.filter (fun r => r.slot == s && r.ran)).flatMap (·.effs))

/-- A ring command, a load, a store or a record read of a bundle; the others are left to the end of the bundle. A ring
command takes effect before the accesses of its cycle (R244), the scalar access before the vector access (R388). -/
def doAccess (c : Chip) (k : Nat) (e : Eff) : Trial :=
  match e with
  | .ring free x =>
    match c.ringCmd k x free 1 (.core k) (c.core k).pc.toNat with
    | (.stall t y, _) => .error (t, y)
    | (_, c) => .ok c
  | .load d a n sext => c.doLoad k d a n sext
  | .store a bs => c.doStore k a bs
  | .vload r g m a =>
    match c.vRead k a (384 * g) with
    | .error e => .error e
    | .ok (bs, c) =>
      .ok (forN g (fun i c => c.pushLoad k
        ⟨.v (r + i) m, 4, some (natLE ((bs.drop (384 * i)).take 384)), a + 384 * i, 384, false, (c.core k).pc.toNat, 0, none, 0⟩) c)
  | .vstore r g m a =>
    let bs := (List.range g).flatMap (fun i => bytesLE 384 ((c.core k).V (r + i)).toNat)
    c.vWrite k a (fun i => m.getLsbD (i % 384)) bs
  | .attach a =>
    match attachRec a with
    | none => .ok (c.attachPush k a (c.core k).pc.toNat (c.issueCycle k))
    | some ad =>
      if k < 16 ∧ (ad % 64 ≠ 0 ∨ ¬c.ownSp k ad 64 ∨
          c.rf (R.TILE.SPBMAP k) (3 * ((ad - spBase k) / (c.spSize / 8)) + 2) (3 * ((ad - spBase k) / (c.spSize / 8))) ≠ 1) then
        .ok (c.kfault (slotTile k) 0x0301 ⟨1, c.owner k⟩ ad (c.owner k))
      else
        let r := c.readMem (c.bundleOf k) ad 64
        match r.res with
        | .stall t y => .error (t, y)
        | .refused code => .ok (r.chip.coreRefused k code ad)
        | .fault _ => .ok r.chip
        | .ok => .ok (r.chip.attachPush k (withRec a r.data) (c.core k).pc.toNat (c.issueCycle k))
  | _ => .ok c

/-- Order of the accesses of a bundle. -/
def accessRank : Eff → Nat
  | .ring .. => 0
  | .load .. | .store .. => 1
  | .vload .. | .vstore .. => 2
  | .attach _ => 3
  | _ => 4

def doAccesses (c : Chip) (k : Nat) (effs : List Eff) : Trial :=
  [0, 1, 2, 3].foldlM (fun c r => (effs.filter (fun e => accessRank e == r)).foldlM (fun c e => c.doAccess k e) c) c

/-! ### The end of a bundle -/

/-- Loads grow older by a bundle; those that are due write their destinations, and the core waits for one that has not
returned (R306, R308). Loads of this bundle are not yet counted. -/
def ageLoads (c : Chip) (k old : Nat) : Chip :=
  c.modCore k fun x =>
    let aged := (x.loads.take old).map (fun l => { l with age := l.age - 1 })
    let due := aged.filter (fun l => l.age == 0 && l.val.isSome)
    let rest := aged.filter (fun l => !(l.age == 0 && l.val.isSome))
    let beat := due.foldl (fun b l => max b l.beat) 0
    let x := due.foldl Core.deliver { x with loads := rest ++ x.loads.drop old, ready := max x.ready beat }
    if rest.any (fun l => l.age == 0) && x.run = .run then { x with run := .stalled } else x

/-- The address of the bundle that follows, and the branch that waits for its delay bundle (R310, R312, R321, R395). -/
def nextPc (x : Core) (effs : List Eff) : Core :=
  let pc := x.pc
  let br := effs.findSome? (fun e => match e with | .branch t => some t | _ => none)
  match effs.findSome? (fun e => match e with | .eret => some false | .nret => some true | _ => none) with
  | some nmi =>
    { x with pc := if nmi then x.nepc else x.epc,
             target := if !nmi && bit x.estat 14 then some x.ebt else none, takenBr := false, brPc := pc }
  | none =>
    match x.target with
    | some t => { (x.leaveBlocks x.brPc.toNat t.toNat) with pc := t, target := none, takenBr := false }
    | none =>
      match br with
      | some t => { x with pc := pc + 24, target := some t, takenBr := true, brPc := pc }
      | none =>
        match effs.findSome? (fun e => match e with
          | .repb _ l n => if n = 0 then some (24 * (l + 2)) else none | _ => none) with
        | some d => { x with pc := pc + BitVec.ofNat 48 d, loopDue := false }
        | none => { x with pc := pc + 24,
                           loopDue := (List.range 2).any (fun l => x.act l && x.LE l == pc.toNat) }

/-- A tick release that waits is consumed by WAITT, or the core waits for one (R344). -/
def doWaitt (x : Core) : Core := if x.relPend then { x with relPend := false, run := .run } else { x with run := .waitt }

/-- MTCC on IPEND clears SWI bits (R415). -/
def doMtcc (c : Chip) (k : Nat) (v : BitVec 48) : Chip :=
  let key := if k = 16 then R.CC.SWI else R.TILE.SWI k
  c.w key (c.r key &&& ~~~ (BitVec.ofNat 32 (fld v 15 0)))

/-- A syllable of the bundle reads a vector register part with bad parity (R468). -/
def readsBad (x : Core) (effs : List Eff) : Bool :=
  effs.any (fun e => match e with
    | .par cls r => x.badPar.any (fun b => b.1 == cls && b.2.1 == r)
    | _ => false)

/-- A read of a part with bad parity, once its syllable has run: PERR and kennel fault 0x0B0B (R468). -/
def checkPar (c : Chip) (k : Nat) (bad : Bool) : Chip :=
  if bad then
    (c.wb (R.TILE.VSTAT k) 3 true).kfault (slotTile k) 0x0B0B ⟨1, c.owner k⟩ 0 (c.owner k)
  else c

/-- A wake that the V-slot beats of a bundle begin, and the cycle in which the bundle then issues (R442, R443, R465). -/
def wakeFor (c : Chip) (k t beats : Nat) : Chip × Nat :=
  if beats = 0 ∨ c.vOn k then (c, t)
  else
    let c := c.vWake k t true
    let e := max t (((c.core k).wakeEnd).getD t)
    ((c.cnt (R.TILE.VWCYC k) 31 0 (e - t)).vWakeDone k e, e)

/-- The energy of a bundle (R842). -/
def meterBundle (c : Chip) (k beats : Nat) : Chip :=
  if k = 16 then c.meter 4 0 8 1 else (c.meter (slotTile k) 0 (c.owner k) 1).meter (slotTile k) 1 (c.owner k) beats

/-- The issue bookkeeping of a core once a bundle has issued in cycle `t`, its last beat in cycle `last` and `extra` idle cycles
after it. -/
def timed (x : Core) (t last beats extra : Nat) (vmem : Bool) (late : List (Nat × Nat × Nat)) : Core :=
  { x with
    issued := t, ready := t + 1 + extra
    vBeat := if beats = 0 then x.vBeat else last
    vPort := if vmem then last else x.vPort
    idleAt := if beats = 0 then x.idleAt else last
    waits := late ++ x.waits.filter (fun w => t < w.2.2)
    loads := if vmem then x.loads.map (fun l => if l.age = 4 ∧ l.beat = 0 then { l with beat := last } else l) else x.loads }

/-- Beats of the V-slot syllables of a bundle. -/
def beatsOf (x : Core) : Nat := x.bundle.foldl (fun n r => n + r.beats) 0

/-- The issue of a bundle is timed: the wake of a gated vector unit, the beats of its V-slot syllables, and the earliest
cycle of the next bundle (R429 to R443, R312, R344, R417). -/
def timeBundle (c : Chip) (k : Nat) (effs : List Eff) : Chip :=
  let x := c.core k
  let beats := beatsOf x
  let w := c.wakeFor k (c.issueCycle k) beats
  let t := w.2
  let vmem := x.bundle.any (·.vmem)
  let mport := effs.any (fun e => match e with
    | .load _ a n _ => c.ownSp k a n
    | .store a bs => c.ownSp k a bs.length
    | _ => false)
  let last := (if vmem && mport then t + 1 else t) + beats
  let late := (x.bundle.flatMap (·.late)).map (fun r => (r.1, r.2, last))
  let extra := effs.foldl (fun n e => match e with
    | .repb _ _ n' => if n' = 0 then 1 else n
    | .eret | .nret => 2
    | .waitt => 1
    | _ => n) 0
  ((w.1.waitTo (cyc t)).meterBundle k beats).modCore k fun x => timed x t last beats extra vmem late

/-- A step ends when its bundle has issued; a taken branch issues with its delay bundle (R958). -/
def stepEnd (c : Chip) (k : Nat) : Chip :=
  let x := c.core k
  if !c.dbg.stepping.contains k || x.run == .halted || x.takenBr then c
  else if x.loadsIn then
    let due := c.dbg.resumeDue.contains k
    let c := (c.modCore k Core.loopBack).haltCore k 4
    if due then ({ c with dbg := { c.dbg with resumeDue := c.dbg.resumeDue.filter (· != k) } }).haltEnd k else c
  else { c with dbg := { c.dbg with stepping := c.dbg.stepping.filter (· != k), haltReq := (k, 4) :: c.dbg.haltReq } }

/-- The BRANCH and ERET packets of a unit in mode PROGRAM (R961, R962). -/
def traceFlow (c : Chip) (k : Nat) (effs : List Eff) (cyc : Nat) : Chip :=
  if c.rf (R.TRC.TCFG k) 1 0 ≠ 2 then c
  else match effs.findSome? (fun e => match e with | .branch t => some (0x02, t.toNat, cyc - (c.core k).relAt / 5) | _ => none) with
    | some (ty, t, b) => c.traceAdd k ty t b
    | none => if effs.any (fun e => e == .eret || e == .nret) then c.traceAdd k 0x04 (c.core k).pc.toNat 0 else c

/-- A completed bundle raises its exception (R302, R319). -/
def excBundle (c : Chip) (k slot code : Nat) (addr : Option (BitVec 48)) : Chip :=
  let c := c.waitTo (cyc (c.issueCycle k))
  let c := if code = 0x0B03 then c.report 6 0x0521 .refusal ⟨1, c.owner k⟩ (addr.getD 0).toNat else c
  (c.takeExc k code slot addr (c.core k).pc 7).stepEnd k

/-- One issue of a string bundle (R403 to R406). -/
def strBundle (c : Chip) (k o s v : Nat) : Chip :=
  let old := (c.core k).loads.length
  match c.strIssue k o s v with
  | .error (t, y) => (c.ringStall t y (.core k)).holdCore k
  | .ok (c, 0) => c.holdCore k
  | .ok (c, cost) =>
    let t := c.issueCycle k
    let c := (c.waitTo (cyc t)).modCore k fun x =>
      { x with issued := t, ready := t + cost, bundle := [], held := false, bpPast := false }
    let c := if k = 16 then c.meter 4 0 8 1 else c.meter (slotTile k) 0 (c.owner k) 1
    (if (c.core k).inString then c else (c.modCore k fun x => nextPc x []).ageLoads k old).stepEnd k

/-- The registers that a bundle writes, and the pc after it (R302). -/
def retired (x : Core) (cycNow : Nat) (effs : List Eff) : Core :=
  { nextPc (effs.foldl (fun x e => x.apply cycNow e) x) effs with
    bundle := [], held := false, bpPast := false, run := if x.run = .stalled then .run else x.run }

/-- A TRAP of the bundle takes its exception (R320). -/
def doTrap (c : Chip) (k : Nat) (effs : List Eff) : Chip :=
  match effs.findSome? (fun e => match e with | .trap n => some n | _ => none) with
  | some code =>
    let c := c.modCore k Core.loopBack
    c.takeExc k 0x0B09 0 (some (code.setWidth 48)) (c.core k).pc 6
  | none => c

/-- An MTCC of the bundle takes effect (R415). -/
def mtccStep (k : Nat) (c : Chip) (e : Eff) : Chip :=
  match e with
  | .mtcc v => c.doMtcc k v
  | _ => c

/-- A bundle whose accesses have been made takes effect (R302). -/
def endBundle (c : Chip) (k old : Nat) (effs : List Eff) : Chip :=
  let bad := readsBad (c.core k) effs
  let c := c.timeBundle k effs
  let cycNow := (c.core k).issued
  let c := c.modCore k fun x => retired x cycNow effs
  let c := effs.foldl (mtccStep k) c
  let c := c.checkPar k bad
  let c := c.ageLoads k old
  let c := if effs.any (· == .waitt) then c.modCore k doWaitt else c
  let c := c.doTrap k effs
  ((c.traceFlow k effs cycNow).stepEnd k).syncCore k

/-- A command of the bundle meets a full queue (R332). -/
def meetsFull (c : Chip) (k : Nat) (e : Eff) : Bool :=
  match e with
  | .attach a => c.attachFull k a
  | _ => false

/-- The string syllable of a bundle. -/
def stringOf (effs : List Eff) : Option (Nat × Nat × Nat) :=
  effs.findSome? (fun e => match e with | .strop o s v => some (o, s, v) | _ => none)

/-- The bundle of a core is complete: it raises its exception, is held, or takes effect (R294, R302, R319). -/
def closeBundle (c : Chip) (k : Nat) : Chip :=
  match c.bundleExc k with
  | some (slot, code, addr) => c.excBundle k slot code addr
  | none =>
    let effs := bundleEffs (c.core k)
    if effs.any (c.meetsFull k) || (effs.any (· == .msync) && !(c.core k).posted.isEmpty) then c.holdCore k
    else match stringOf effs with
      | some (o, s, v) => c.strBundle k o s v
      | none =>
        match c.doAccesses k effs with
        | .error (t, y) => (c.ringStall t y (.core k)).holdCore k
        | .ok c' => c'.endBundle k (c.core k).loads.length effs

/-- Every core that holds a bundle tries it again: its tag has changed, its queue has room, its stores are done (R215,
R332, R411). -/
def settle (c : Chip) : Chip :=
  let c := forN 16 (fun t c => c.custRun t) c
  forN 17 (fun k c =>
    let x := c.core k
    if x.held && x.run == .stalled then
      let stalledRing := (List.range 16).find? (fun y => (c.ring k y).stalls.any (fun s => s.1 == .core k))
      match stalledRing with
      | some y =>
        let c' := (c.ringUnstall k (.core k)).modCore k (fun x => { x with run := .run, held := false })
        let d := c'.closeBundle k
        if (d.core k).held && (d.ring k y).stalls.any (fun s => s.1 == .core k) then c else d
      | none =>
        let d := (c.modCore k fun x => { x with run := .run, held := false }).closeBundle k
        if (d.core k).held then c else d
    else c) c

/-! ### Syllables -/

/-- A syllable's encoding is legal on its core (R299, R364, R367 to R369, R421, R450). -/
def sylLegal (h : Syl) (slots : List Slot) (onCC : Bool) (b : Body) : Bool :=
  slots.contains h.slot && (h.core.val != 16 || onCC) && !h.rsv && b.ok && !(h.guard == 0 && h.sense)

/-- The guard of a syllable is true (R301). -/
def sylGuard (x : Core) (h : Syl) : Bool := x.P h.guard.toNat != h.sense

/-- The exception that a syllable raises: an illegal encoding, a privilege, an access (R330, R364, R389). -/
def sylExc (x : Core) (h : Syl) (slots : List Slot) (onCC : Bool) (b : Body) : Option (Nat × Option (BitVec 48)) :=
  if !sylLegal h slots onCC b then some (0x0B01, none)
  else if !sylGuard x h then none
  else if !b.argOk then some (0x0B01, none)
  else if !b.user && !x.priv then some (0x0B04, none)
  else b.bad.map (fun e => (e.1, some e.2))

/-- A syllable as its bundle holds it (R299 to R302). -/
def sylRec (x : Core) (h : Syl) (slots : List Slot) (onCC : Bool) (b : Body) : SylRec :=
  let legal := sylLegal h slots onCC b
  let runs := sylGuard x h
  { slot := slotNum h.slot, ran := runs && legal, branch := b.branch && legal, alone := b.alone, exc := sylExc x h slots onCC b,
    rep := b.rep, effs := if runs && legal then b.effs else [], beats := if legal then b.beats else 0,
    vmem := b.vmem, touch := b.touch, late := if runs then b.late else [] }

/-- A syllable joins the bundle; upsets strike vector registers before it (R468). -/
def joined (x : Core) (r : SylRec) (upset : List (BitVec 2 × BitVec 5 × BitVec 7)) : Core :=
  { x with bundle := x.bundle ++ [r], badPar := x.badPar ++ upset.map (fun u => (u.1.toNat, u.2.1.toNat, u.2.2.toNat)) }

/-- A syllable reaches its core (R299 to R301): it is decoded in its slot, and the bundle is issued with its last
syllable. A syllable for a core that is not issuing has no effect (log entry 6). -/
def syl (c : Chip) (h : Syl) (slots : List Slot) (onCC : Bool) (body : Core → Body) : Chip :=
  let k := h.core.val
  if !c.surv k && k < 16 then c else
  let c := c.boundary k
  if !c.coreIssues k then c
  else
    let r := sylRec (c.core k) h slots onCC (body (c.core k))
    let c := c.modCore k fun x => joined x r h.upset
    if h.last then (c.closeBundle k).settle else c

/-! ### Releases and interrupts -/

/-- A tick release reaches a core (R344 to R346). `page` holds RELOVR. -/
def release (c : Chip) (k : Nat) (ovr page : Nat) : Chip :=
  let x := c.core k
  let c := (c.modCore k fun x => { x with relAt := c.now, fnum := BitVec.ofNat 24 c.fnum }).traceAdd k 0x05 c.fnum 0
  if x.run = .waitt then c.modCore k fun x => { x with run := .run, ready := max x.ready (c.cycle + 2) }
  else if x.relPend then (c.cnt ovr 15 0 1).event page 0x0B0A
  else c.modCore k fun x => { x with relPend := true }

/-- A pending enabled line is accepted at a boundary (R326). -/
def acceptIrq (c : Chip) (k : Nat) : Chip :=
  let c := c.boundary k
  let x := c.core k
  match c.irqLine k with
  | some n => if x.run = .run ∧ x.bundle = [] ∧ c.irqOk k ∧ x.busErrs = [] ∧ ¬x.nmi then c.takeIrq k n else c
  | none => c

/-- The NMI is accepted at a boundary; one that meets NXL is discarded (R327). -/
def acceptNmi (c : Chip) (k : Nat) : Chip :=
  let c := c.modCore k Core.loopBack
  let x := c.core k
  if ¬x.nmi ∨ x.run ≠ .run ∨ x.bundle ≠ [] ∨ x.takenBr then c
  else if x.nxl then c.modCore k fun x => { x with nmi := false }
  else c.takeNmi k

/-- A bus error that has arrived is taken (R322). -/
def acceptBusErr (c : Chip) (k : Nat) : Chip :=
  let x := c.core k
  if x.run = .run ∧ x.bundle = [] then (c.modCore k Core.loopBack).takeBusErr k else c

end Chip
end Sys2Proof.Machine
end

