-- ==== Sys2Proof/Machine/Flags.lean ====
section
/-!
DEFINITION. Scalar arithmetic and its flags, exactly as the ALU tables give them.
-/
namespace Sys2Proof.Machine

/-- The result of an ALU operation: the value, C, V, and whether it saturated (R370). -/
structure AluOut where
  r : BitVec 24
  c : Bool := false
  v : Bool := false
  sat : Bool := false
  deriving DecidableEq, Repr

/-- Signed value of a data word. -/
abbrev s24 (v : BitVec 24) : Int := v.toInt

/-- A signed number lies in the 24-bit range. -/
def fits24 (x : Int) : Bool := decide (-8388608 ≤ x) && decide (x ≤ 8388607)

/-- The 24-bit word of a number. -/
def word24 (x : Int) : BitVec 24 := BitVec.ofInt 24 x

/-- Clamp to the signed 24-bit range. -/
def sat24 (x : Int) : BitVec 24 := word24 (clampI (-8388608) 8388607 x)

/-- FL's N, Z, C and V bits of a result (R298, R370). -/
def flagBits (o : AluOut) : BitVec 4 :=
  BitVec.ofNat 4 (b2n o.r.msb + b2n (o.r == 0) * 2 + b2n o.c * 4 + b2n o.v * 8)

def aluAdd (a b : BitVec 24) (cin : Bool) : AluOut :=
  let n := a.toNat + b.toNat + b2n cin
  ⟨BitVec.ofNat 24 n, decide (2 ^ 24 ≤ n), !fits24 (s24 a + s24 b + b2n cin), false⟩

/-- a − b, less one more when `borrow` is set; C is 1 when no borrow comes out. -/
def aluSub (a b : BitVec 24) (borrow : Bool) : AluOut :=
  ⟨a - b - BitVec.ofNat 24 (b2n borrow), decide (b.toNat + b2n borrow ≤ a.toNat),
   !fits24 (s24 a - s24 b - b2n borrow), false⟩

def aluSat (x : Int) : AluOut := ⟨sat24 x, false, !fits24 x, !fits24 x⟩
def aluLogic (r : BitVec 24) : AluOut := ⟨r, false, false, false⟩

/-- Shifts: the count is any unsigned number (R371). -/
def aluShl (a : BitVec 24) (n : Nat) : AluOut :=
  ⟨a <<< n, decide (1 ≤ n) && decide (n ≤ 24) && a.getLsbD (24 - n), false, false⟩
def aluShr (a : BitVec 24) (n : Nat) : AluOut :=
  ⟨a >>> n, decide (1 ≤ n) && decide (n ≤ 24) && a.getLsbD (n - 1), false, false⟩
def aluSar (a : BitVec 24) (n : Nat) : AluOut :=
  ⟨a.sshiftRight n, decide (1 ≤ n) && (if n ≤ 24 then a.getLsbD (n - 1) else a.msb), false, false⟩

def aluMin (a b : BitVec 24) : AluOut := aluLogic (if s24 a ≤ s24 b then a else b)
def aluMax (a b : BitVec 24) : AluOut := aluLogic (if s24 a ≤ s24 b then b else a)
def aluMinu (a b : BitVec 24) : AluOut := aluLogic (if a.toNat ≤ b.toNat then a else b)
def aluMaxu (a b : BitVec 24) : AluOut := aluLogic (if a.toNat ≤ b.toNat then b else a)
def aluAbs (a : BitVec 24) : AluOut := aluSat (s24 a).natAbs

end Sys2Proof.Machine
end

