-- ==== Sys2Proof/Machine/Operands.lean ====
section
/-!
DEFINITION. Operand forms of the scalar syllables: register and immediate sources, the addressing modes, and the bodies
that the syllables of one format share.
-/
namespace Sys2Proof.Machine

/-- How an immediate is widened (R365, R370): sign-extended, zero-extended, a shift count, or not encodable. -/
inductive ImmKind where
  | sext | zext | shift | none
  deriving DecidableEq, Repr

/-- Register classes for the waits of R431. -/
abbrev cD : Nat := 0
abbrev cA : Nat := 1
abbrev cX : Nat := 2
abbrev cP : Nat := 3
abbrev cV : Nat := 4
abbrev cM : Nat := 5
abbrev cVA : Nat := 6
abbrev cFL : Nat := 7

/-- The value of a second source, and whether its encoding is legal (R366, R370 to R372). -/
def srcVal (x : Core) (k : ImmKind) (b : Src) : BitVec 24 × Bool :=
  match b, k with
  | .reg rb, .none => (0, rb == 0)
  | .reg rb, _ => (x.D rb.toNat, true)
  | .imm i, .sext => (i.signExtend 24, true)
  | .imm i, .zext => (i.setWidth 24, true)
  | .imm i, .shift => (i.setWidth 24 &&& 31, fld i 15 5 == 0)
  | .imm _, .none => (0, false)

def srcTouch (b : Src) : List (Nat × Nat) :=
  match b with
  | .reg rb => [(cD, rb.toNat)]
  | .imm _ => []

/-- An ALU syllable (R370 to R373): `f` gives the result from a, b and the carry. -/
def aluBody (k : ImmKind) (satForm : Bool) (f : BitVec 24 → BitVec 24 → Bool → AluOut) (o : AluOp) (x : Core) : Body :=
  let (b, ok) := srcVal x k o.b
  let r := f (x.D o.ra.toNat) b (x.fl.getLsbD 2)
  { ok := ok
    effs := [.wd o.rd.toNat r.r] ++ (if o.f then [.flags (flagBits r)] else []) ++ (if r.sat then [.sat] else [])
    touch := [(cD, o.rd.toNat), (cD, o.ra.toNat), (cFL, 0)].filter (fun t => t.1 != cFL || o.f || satForm) ++ srcTouch o.b }

/-- A compare syllable (R375): DST[31:30] must be 0 with DK = 0. -/
def cmpBody (k : ImmKind) (f : BitVec 24 → BitVec 24 → Bool) (o : CmpOp) (x : Core) : Body :=
  let (b, ok) := srcVal x k o.b
  let r := f (x.D o.ra.toNat) b
  { ok := ok && (o.dk || fld o.dst 4 3 == 0)
    effs := if o.dk then [.wd o.dst.toNat (BitVec.ofNat 24 (b2n r))] else [.wp o.dst.toNat r]
    touch := (if o.dk then [(cD, o.dst.toNat)] else []) ++ [(cD, o.ra.toNat)] ++ srcTouch o.b }

/-- A predicate syllable (R376); `one` takes PA alone and PB must be 0. -/
def plgBody (one : Bool) (f : Bool → Bool → Bool) (o : PlgOp) (x : Core) : Body :=
  { ok := !one || o.pb == 0, effs := [.wp o.pd.toNat (f (x.P o.pa.toNat) (x.P o.pb.toNat))] }

/-- A 5-bit field names an A register (R364). -/
def isA (f : BitVec 5) : Bool := !f.getLsbD 4
/-- A 5-bit field names an accumulator (R378). -/
def isX (f : BitVec 5) : Bool := fld f 4 3 == 0

/-- Bytes of a scale code of the indexed modes (R384, R391). -/
def scaleOf (sc : Nat) : Option Nat :=
  match sc with
  | 0 => some 1 | 1 => some 2 | 2 => some 3 | 3 => some 4 | 4 => some 8 | _ => none

/-- An address of the scalar addressing modes: legality, the address used, and the base afterwards (R304, R384). -/
def scalarAddr (x : Core) (o : LdsOp) (size : Nat) : Bool × BitVec 48 × Option (BitVec 48) :=
  let a := x.A o.ab.toNat
  let i : BitVec 48 := o.imm.signExtend 48
  let d := sext48 (x.D o.dm.toNat)
  match o.md.toNat with
  | 0 => (o.dm == 0, a + i, none)
  | 1 => (o.dm == 0, a, some (a + i))
  | 2 => (o.imm == 0, a, some (a + d))
  | 3 => (o.dm == 0 && o.imm == 0, a - BitVec.ofNat 48 size, some (a - BitVec.ofNat 48 size))
  | 4 =>
    match scaleOf (fld o.imm 2 0) with
    | some s => (fld o.imm 15 3 == 0, a + d * BitVec.ofNat 48 s, none)
    | none => (false, 0, none)
  | _ => (false, 0, none)

/-- Where a core's access may go: an exception at issue for a region outside a tile core's reach, and for the register
window at user privilege (R305, R330, R389). -/
def reachBad (c : Chip) (k : Nat) (x : Core) (addr : BitVec 48) (size : Nat) : Option (Nat × BitVec 48) :=
  let a := c.ownWindow addr.toNat size
  match c.regionOf a size with
  | .regs => if x.priv then none else some (0x0B04, addr)
  | .hole | .sp _ | .table => none
  | _ => if k = 16 then none else some (0x0B03, addr)

/-- A load or store syllable (R383 to R389). `aReg`: its register is an A register; `store`: it stores. -/
def ldsBody (c : Chip) (k : Nat) (size : Nat) (sext aReg store : Bool) (o : LdsOp) (x : Core) : Body :=
  let (ok, ea, upd) := scalarAddr x o size
  let r := o.rt.toNat
  { ok := ok && (!aReg || isA o.rt)
    bad := reachBad c k x ea size
    effs := (match upd with | some v => [.wa o.ab.toNat v] | none => []) ++
      [if store then .store ea.toNat (bytesLE size (if aReg then (x.A r).toNat else (x.D r).toNat))
       else .load (if aReg then .a r else .d r) ea.toNat size sext]
    touch := [(cD, o.dm.toNat)] ++ (if aReg then [] else [(cD, r)]) }

/-- An address syllable of format ADR, with the fields that it does not use (R364, R391). -/
def adrBody (rdA rsA useDm useImm lea : Bool) (f : BitVec 48 → BitVec 24 → BitVec 24 → BitVec 48 → Eff) (o : AdrOp) (x : Core) :
    Body :=
  let sc := scaleOf (fld o.imm 2 0)
  let imm : BitVec 48 := if lea then BitVec.ofNat 48 (sc.getD 1) else o.imm.signExtend 48
  { ok := (!rdA || isA o.rd) && (!rsA || isA o.rs) && (useDm || o.dm == 0)
      && (if lea then sc.isSome && fld o.imm 16 3 == 0 else useImm || o.imm == 0)
    effs := [f (x.A o.rs.toNat) (x.D o.rs.toNat) (x.D o.dm.toNat) imm]
    touch := [(cD, o.rs.toNat), (cD, o.dm.toNat), (cD, o.rd.toNat)] }

/-- An accumulator syllable of format MXF: which fields it uses (R377, R378). -/
def mxBody (dX aX useA useB useSh usePart satForm : Bool) (effs : List Eff) (o : MxOp) : Body :=
  { ok := (!dX || isX o.rd) && (!aX || isX o.ra) && (useA || o.ra == 0) && (useB || o.rb == 0) && (useSh || o.sh == 0)
      && (usePart || o.part == 0) && o.part != 3 && decide (o.sh.toNat ≤ 48)
    effs := effs
    touch := [(cD, o.rd.toNat), (cD, o.ra.toNat), (cD, o.rb.toNat), (cFL, 0)].filter (fun t => t.1 != cFL || satForm) }

/-- A bit-field syllable of format BFD: which fields it uses (R380). -/
def bfBody (useB field useSel : Bool) (effs : List Eff) (o : BfdOp) : Body :=
  { ok := (useB || o.rb == 0) && (useSel || o.sel == 0)
      && (if field then decide (o.pos.toNat + o.lenm1.toNat + 1 ≤ 24) else o.pos == 0 && o.lenm1 == 0)
    effs := effs
    touch := [(cD, o.rd.toNat), (cD, o.ra.toNat), (cD, o.rb.toNat)] }

end Sys2Proof.Machine
end

