-- ==== Sys2Proof/Machine/Array.lean ====
section
/-!
DEFINITION. The array slice: its syllables, the begin of its commands, weight loads, streams, the three accumulator kinds
and the accumulator memory.
-/
namespace Sys2Proof.Machine

/-! ### Formats -/

/-- Formats of the integer and block-scaled class, and of the float class (R504, R505). -/
def aryInt (f : Nat) : Bool := f == 0 || f == 1 || f == 6 || f == 12 || f == 13
def aryFloat (f : Nat) : Bool := f == 9 || f == 10
def aryBlock (f : Nat) : Bool := f == 12 || f == 13

/-- Bytes of a weight image (R539). -/
def imgBytes (f : Nat) : Nat :=
  match f with
  | 0 | 1 => 1152 | 6 => 640 | 12 => 1088 | 13 => 576 | _ => 2048

/-- Bytes per position of a plain activation run (R534). -/
def runStep (f : Nat) : Nat := if aryFloat f then 64 else if f = 6 then 16 else 32

/-- Mantissa bytes of a block, and bytes of a full block group (R488). -/
def blkBytes (f : Nat) : Nat := if f = 12 then 32 else 16
def grpBytes (f : Nat) : Nat := 64 + 64 * blkBytes f

/-- The accumulator kind of a pair: 0 I32, 1 BF, 2 F32; its rows, bytes per accumulator and latency (R512, R527). -/
def accKind (wf af : Nat) : Nat := if aryFloat wf then 2 else if aryBlock wf || aryBlock af then 1 else 0
def kindRows (k : Nat) : Nat := if k = 1 then 1024 else 2048
def kindBytes (k : Nat) : Nat := if k = 1 then 8 else 4
def kindLat (k : Nat) : Nat := match k with | 0 => 20 | 1 => 26 | _ => 34

/-- The rate class of a pair: 0 4-bit, 1 8-bit, 2 float (R509). -/
def rateClass (wf af : Nat) : Nat :=
  if aryFloat wf then 2 else if (wf == 6 || wf == 13) && (af == 6 || af == 13) then 0 else 1

/-- A zero point is legal for a format (R497, R536). -/
def zpOk (f : Nat) (z : Int) : Bool :=
  match fmtRange f with
  | some (lo, hi) => decide (lo ≤ z) && decide (z ≤ hi)
  | none => z == 0

/-- Exponent and mantissa addresses of block `i` of a run of consecutive full groups (R488, R534). -/
def blkExp (f a i : Nat) : Nat := a + i / 64 * grpBytes f + i % 64
def blkMan (f a i : Nat) : Nat := a + i / 64 * grpBytes f + 64 + i % 64 * blkBytes f

/-- The lines that hold position `p` of a run. -/
def posLines (f a b0 p : Nat) : List Nat :=
  if aryBlock f then [blkExp f a (b0 + p) / 64 * 64, blkMan f a (b0 + p) / 64 * 64]
  else
    let s := a + p * runStep f
    [s / 64 * 64]

/-- The distinct lines of a run, in ascending address order (R524). -/
def runLines (f a b0 npos : Nat) : List Nat :=
  if aryBlock f then
    ((List.range (b0 + npos)).drop b0).foldl (fun (l : List Nat) i =>
      let e := blkExp f a i / 64 * 64
      let m := blkMan f a i / 64 * 64
      let l := if l.contains e then l else l ++ [e]
      if l.getLast? = some m then l else l ++ [m]) []
  else (List.range ((a + npos * runStep f - 1) / 64 - a / 64 + 1)).map (fun i => (a / 64 + i) * 64)

/-- First byte after a run. -/
def runEnd (f a b0 npos : Nat) : Nat :=
  if aryBlock f then blkMan f a (b0 + npos - 1) + blkBytes f else a + npos * runStep f

/-- MCLK cycles of a stream's window (R524). -/
def ARun.window (r : ARun) : Nat :=
  let p := match r.cls with | 0 => (r.npos + 1) / 2 | 1 => r.npos | _ => 4 * r.npos
  max p (2 * r.lines.length)

def ARun.latency (r : ARun) : Nat := kindLat r.kind

/-- The bytes of a run at an address, from the lines that were read. -/
def ARun.bytes (r : ARun) (a n : Nat) : List (BitVec 8) :=
  match r.lines.findIdx? (· == a / 64 * 64) with
  | some i => ((nth [] r.data i).drop (a % 64)).take n
  | none => zeros n

/-- The lines of a position have been read. -/
def ARun.ready (r : ARun) (p : Nat) : Bool :=
  (posLines r.af r.addr r.b0 p).all (fun l => (r.lines.take r.data.length).contains l)

/-! ### Arithmetic -/

/-- A position's activation bytes and its block exponent; a plain operand is a block with E = 127 (R519). -/
def ARun.act (r : ARun) (p : Nat) : List (BitVec 8) × Nat :=
  if aryBlock r.af then
    (r.bytes (blkMan r.af r.addr (r.b0 + p)) (blkBytes r.af), natLE (r.bytes (blkExp r.af r.addr (r.b0 + p)) 1))
  else (r.bytes (r.addr + p * runStep r.af) (runStep r.af), 127)

/-- Column `n` of a weight register: its bytes and its block exponent (R539). -/
def WReg.col (w : WReg) (n : Nat) : List (BitVec 8) × Nat :=
  if aryBlock w.fmt then ((w.img.drop (64 + blkBytes w.fmt * n)).take (blkBytes w.fmt), natLE ((w.img.drop n).take 1))
  else ((w.img.drop (runStep w.fmt * n)).take (runStep w.fmt), 127)

/-- The stored column sum (R518, R539). -/
def WReg.cs (w : WReg) (n : Nat) : Int := sInt 32 (natLE ((w.img.drop (if w.fmt = 6 then 512 + 4 * n else 1024 + 4 * n)).take 4))

/-- Sum of the 32 integer products of a vector and a column. -/
def dotInt (fa : Nat) (a : List (BitVec 8)) (fw : Nat) (w : List (BitVec 8)) : Int :=
  (List.range 32).foldl (fun s k => s + elemInt fa a k * elemInt fw w k) 0

/-- Sum of a vector's lanes. -/
def laneSum (fa : Nat) (a : List (BitVec 8)) : Int := (List.range 32).foldl (fun s k => s + elemInt fa a k) 0

/-- One I32 accumulator after a contribution (R516). -/
def updI32 (r : ARun) (a : List (BitVec 8)) (n old : Nat) : Nat × Bool :=
  let v := dotInt r.af a r.w.fmt (r.w.col n).1 - r.zw * laneSum r.af a - r.za * r.w.cs n + 32 * r.za * r.zw
  satInt32 ((if r.acc then sInt 32 old else 0) + v)
where
  /-- Saturate to the signed 32-bit range. -/
  satInt32 (x : Int) : Nat × Bool :=
    let y := clampI (-2147483648) 2147483647 x
    (wrapN 32 y, y != x)

/-- A group sum clamped to 23 bits. -/
def sat23 (x : Int) : Int × Bool := let y := clampI (-4194304) 4194303 x; (y, y != x)

/-- The open group of a BF entry as FP32 bits (R520, R521). -/
def bfOpen (gs : Int) (gx : Nat) : Nat × Bool := fp32.round (decide (gs < 0)) gs.natAbs ((gx : Int) - 255)

/-- FP32 sum with one rounding. -/
def addF32 (x y : Nat) : Nat × Bool := fp32.encode ((fp32.decode x).add (fp32.decode y))

/-- The fields of a BF entry: T, GS and GX (R513). -/
def bfParts (v : Nat) : Nat × Int × Nat := (v % 2 ^ 32, sInt 23 (v / 2 ^ 32), v / 2 ^ 55 % 512)
def bfJoin (t : Nat) (gs : Int) (gx : Nat) : Nat := t % 2 ^ 32 + wrapN 23 gs * 2 ^ 32 + gx % 512 * 2 ^ 55

/-- The value of a BF entry as FP32 bits (R521). -/
def bfValue (v : Nat) : Nat :=
  let (t, gs, gx) := bfParts v
  if gx = 0 then t else (addF32 t (bfOpen gs gx).1).1

/-- One block contribution into a BF entry (R519, R520). -/
def updBF (r : ARun) (a : List (BitVec 8)) (ea n old : Nat) : Nat × Bool :=
  let (col, ew) := r.w.col n
  let (t, gs, gx) := if r.acc then bfParts old else (0, 0, 0)
  let (gs, gx, s1) :=
    if ea = 0 ∨ ew = 0 then (gs, gx, false)
    else
      let b := dotInt r.af a r.w.fmt col
      let x := ea + ew + 1
      if gx = 0 then (b, x, false)
      else if gx < x then
        let m := sat23 ((⟨gs, (gx : Int) - x⟩ : Dy).rne + b)
        (m.1, x, m.2)
      else
        let m := sat23 (gs + (⟨b, (x : Int) - gx⟩ : Dy).rne)
        (m.1, gx, m.2)
  if r.closing then
    let (g, s2) := bfOpen gs gx
    let (t, s3) := addF32 t g
    (bfJoin t 0 0, s1 || s2 || s3)
  else (bfJoin t gs gx, s1)

/-- One F32 accumulator after a contribution (R522). -/
def updF32 (r : ARun) (a : List (BitVec 8)) (n old : Nat) : Nat × Bool :=
  let fa := if r.af = 9 then bf16 else fp16
  let fw := if r.w.fmt = 9 then bf16 else fp16
  let col := (r.w.col n).1
  let prod (k : Nat) : Fv := (fa.decode (elemGet r.af a k)).mul (fw.decode (elemGet r.w.fmt col k))
  let (v, s1) := fp32.encode ((List.range' 1 31).foldl (fun s k => s.add (prod k)) (prod 0))
  if r.acc then
    let (v, s2) := addF32 old v
    (v, s1 || s2)
  else (v, s1)

/-- A row after a position's contribution: the row's bytes and the number of accumulators that saturated (R514 to R522). -/
def ARun.update (r : ARun) (p : Nat) (old : List (BitVec 8)) : List (BitVec 8) × Nat :=
  let (a, ea) := r.act p
  let z := kindBytes r.kind
  let out := (List.range 32).map (fun n =>
    let o := natLE ((old.drop (z * n)).take z)
    match r.kind with
    | 0 => updI32 r a n o
    | 1 => updBF r a ea n o
    | _ => updF32 r a n o)
  (out.flatMap (fun x => bytesLE z x.1), (out.filter (·.2)).length)

namespace Chip

/-! ### The slice's state -/

def arySt (c : Chip) (t : Nat) : ArySt := nth {} c.ary t
def modAry (c : Chip) (t : Nat) (f : ArySt → ArySt) : Chip := ({ c with ary := modNth f c.ary t }).showAry t

/-- A unit of a tile is not running: its page or kennel is frozen, its kennel deferred, or the tile is not on (R108, R155,
R855, R904). -/
def unitFrz (c : Chip) (t slot : Nat) : Bool :=
  c.kstate (c.owner t) != 0 || c.rb (R.H.PCTL slot) 2 || c.deferred (c.owner t) || !c.surv t || c.napped t

/-- A port cycle of a parity at or after a cycle, counted from the frame-tick edge (R190). -/
def portCycle (c : Chip) (n : Nat) (odd : Bool) : Nat :=
  if (n + (c.tick.edgeAt.getD 0) / 5) % 2 = b2n odd then n else n + 1

/-- A kennel fault of a tile's unit, captured in its page (R541, R577). -/
def tileFault (c : Chip) (t slot code addr : Nat) : Chip := c.kfault slot code ⟨1, c.owner t⟩ addr (c.owner t)

/-! ### The accumulator memory -/

/-- Read bytes of the accumulator memory through its code (R542): marked words that can be corrected are, others read 0. -/
def aamRead (c : Chip) (t off n : Nat) : Chip × List (BitVec 8) :=
  let hits := (c.arySt t).aamEcc.filter (fun e => off ≤ 4 * e.1 && 4 * e.1 < off + n)
  let c := hits.foldl (fun c e =>
    match e.2 with
    | .ce => ((c.modAry t fun u => { u with aamEcc := delKey e.1 u.aamEcc }).cnt (R.ARY.AECC t) 15 0 1).eventOnce (slotAry t) 0x0241 t
    | _ => (c.cnt (R.ARY.AECC t) 31 16 1).tileFault t (slotAry t) 0x0242 0) c
  let bad := hits.filter (fun e => e.2 != .ce)
  (c, (List.range n).map (fun i => if bad.any (fun e => e.1 == (off + i) / 4) then 0 else (c.arySt t).aam.byte (off + i)))

/-- Write bytes of the accumulator memory, with fresh check bits (R542). -/
def aamWrite (c : Chip) (t off : Nat) (bs : List (BitVec 8)) : Chip :=
  c.modAry t fun u => { u with aam := u.aam.putBytes off bs,
                               aamEcc := u.aamEcc.filter (fun e => 4 * e.1 < off || off + bs.length ≤ 4 * e.1) }

/-- Errors strike words of the accumulator memory. -/
def aamStrike (c : Chip) (t : Nat) (errs : List (BitVec 16 × Bool)) : Chip :=
  errs.foldl (fun c e => c.modAry t fun u =>
    if u.aamEcc.any (fun x => x.1 == e.1.toNat) then u
    else { u with aamEcc := insKey e.1.toNat (if e.2 then .ue else .ce) u.aamEcc }) c

/-! ### Begin of commands -/

/-- The command at the head is refused (R536). -/
def aryRefuse (c : Chip) (t why : Nat) : Chip :=
  ((c.modAry t fun u => { u with queue := u.queue.drop 1 }).wf (R.ARY.AJERR t) 3 0 why).tileFault t (slotAry t) 0x0B21 0

/-- Why an ACFG is refused (R532, R536): 0 when it is not. -/
def acfgWhy (sel : Nat) (v : BitVec 24) : Nat :=
  match sel with
  | 0 =>
    let ok (f : Nat) : Bool := aryInt f || aryFloat f
    if !ok (fld v 3 0) || !ok (fld v 7 4) then 1 else if fld v 9 8 = 3 ∨ fld v 23 10 ≠ 0 then 8 else 0
  | 3 => if fld v 23 4 ≠ 0 then 8 else 0
  | _ => 0

/-- ACFG takes effect when it reaches the head (R532, R540). -/
def acfgApply (c : Chip) (t sel : Nat) (v : BitVec 24) : Chip :=
  let c := match sel with
    | 0 => c.wf (R.ARY.AFMT t) 9 0 (fld v 9 0)
    | 1 => c.wf (R.ARY.AZW t) 15 0 (fld v 15 0)
    | 2 => c.wf (R.ARY.AZA t) 15 0 (fld v 15 0)
    | _ => c.wf (R.ARY.ARING t) 3 0 (fld v 3 0)
  c.modAry t fun u => { u with queue := u.queue.drop 1 }

/-- Why an ASTR is refused (R534, R536). -/
def astrWhy (c : Chip) (t a dn dr : Nat) (w : Option Nat) : Nat :=
  let wf := w.getD (c.rf (R.ARY.AFMT t) 3 0)
  let af := c.rf (R.ARY.AFMT t) 7 4
  let zw := sInt 16 (c.rf (R.ARY.AZW t) 15 0)
  let za := sInt 16 (c.rf (R.ARY.AZA t) 15 0)
  let npos := dn % 4096
  let b0 := dn / 4096 % 64
  let o := a - spBase t
  if !(aryInt wf || aryFloat wf) || !(aryInt af || aryFloat af) then 1
  else if aryFloat wf != aryFloat af then 2
  else if (zw != 0 || za != 0) && (aryBlock wf || aryBlock af || aryFloat wf) || !zpOk wf zw || !zpOk af za then 3
  else if a < spBase t || a % (if aryBlock af then 64 else runStep af) != 0
      || c.spSize < (if npos = 0 then o else runEnd af o b0 npos) || c.spSize ≤ o then 4
  else if kindRows (accKind wf af) < dr % 2048 + npos then 5
  else if npos = 0 || 2048 < npos || dn / 2 ^ 18 != 0 || dr / 2 ^ 11 != 0 || (b0 != 0 && !aryBlock af) then 6
  else if w.isNone then 7
  else 0

/-- A stream begins (R511, R520, R523, R526). -/
def astrBegin (c : Chip) (t : Nat) (q : AryCmd) (a dn dr : Nat) (acc swp ntf : Bool) : Chip :=
  let u := c.arySt t
  let held := if swp then u.shadow else u.active
  let wf := match held with
    | some w => some w.fmt
    | none => if swp then u.loading.map (·.fmt) else none
  let why := c.astrWhy t a dn dr wf
  if why ≠ 0 then c.aryRefuse t why
  else match held with
    | none => c
    | some w =>
      let af := c.rf (R.ARY.AFMT t) 7 4
      let cls := rateClass w.fmt af
      let other := u.cls.isSome && u.cls != some cls
      if u.loading.isSome || u.runs.any (fun r => r.data.length < r.lines.length) || (other && !u.runs.isEmpty) then c
      else
        let b := max (max (max (q.at_ + 4) u.portEnd) (max u.fillUntil c.cycle)) (if other then u.streamDone else 0)
        let b := c.portCycle b false
        let c := c.waitTo (cyc b)
        let kind := accKind w.fmt af
        let g := 2 ^ c.rf (R.ARY.AFMT t) 9 8
        let n := if acc then c.rf (R.ARY.ASTAT t) 10 8 + 1 else 1
        let closing := kind == 1 && decide (g ≤ n)
        let c := if kind = 1 then c.wf (R.ARY.ASTAT t) 10 8 (if closing then 0 else n) else c
        let c := c.wf (R.ARY.ASTAT t) 12 11 cls
        let r : ARun := { addr := a, npos := dn % 4096, b0 := dn / 4096 % 64, row := dr % 2048, acc := acc, ntf := ntf
                          ctx := c.rf (R.ARY.ARING t) 3 0, af := af, zw := sInt 16 (c.rf (R.ARY.AZW t) 15 0)
                          za := sInt 16 (c.rf (R.ARY.AZA t) 15 0), w := w, kind := kind, cls := cls, closing := closing
                          beg := b, lines := runLines af a (dn / 4096 % 64) (dn % 4096), seq := q.seq, bundle := q.bundle }
        c.modAry t fun u => { u with queue := u.queue.drop 1, runs := u.runs ++ [r], cls := some cls, portEnd := b + r.window
                                     active := some w, shadow := if swp then none else u.shadow }

/-- The command at the head of the queue is checked and begins (R523, R531 to R536). -/
def aryBegin (c : Chip) (t : Nat) : Chip :=
  let u := c.arySt t
  match u.queue with
  | [] => c
  | q :: _ =>
    if c.unitFrz t (slotAry t) then c
    else match q.cmd with
      | .acfg sel v => if acfgWhy sel v = 0 then c.acfgApply t sel v else c.aryRefuse t (acfgWhy sel v)
      | .awld a =>
        let wf := c.rf (R.ARY.AFMT t) 3 0
        let ok := aryInt wf || aryFloat wf
        if !ok || a % 64 != 0 || !within a (imgBytes wf) (spBase t) c.spSize then c.aryRefuse t (if ok then 9 else 1)
        else if u.loading.isSome || u.runs.any (fun r => r.data.length < r.lines.length) then c
        else
          let b := c.portCycle (max (max (q.at_ + 4) u.portEnd) (max u.fillUntil c.cycle)) false
          (c.waitTo (cyc b)).modAry t fun u => { u with
            queue := u.queue.drop 1, shadow := none, portEnd := b + imgBytes wf / 32
            loading := some { addr := a, fmt := wf, beg := b, seq := q.seq, bundle := q.bundle } }
      | .astr a dn dr acc swp ntf => c.astrBegin t q a dn dr acc swp ntf
      | .aswp =>
        if u.loading.isSome || u.runs.any (fun r => r.data.length < r.lines.length) then c
        else
          let b := c.portCycle (max (max (q.at_ + 4) u.portEnd) (max u.fillUntil c.cycle)) false
          (c.waitTo (cyc b)).modAry t fun u => { u with queue := u.queue.drop 1, active := u.shadow, shadow := none, lastDone := max u.lastDone b }
      | .afree =>
        if u.loading.isSome || !u.runs.isEmpty then c
        else
          let c := c.waitTo (cyc (max (q.at_ + 1) (u.lastDone + 1)))
          match c.ringCmd t (c.rf (R.ARY.ARING t) 3 0) true 2 (.ary t) q.bundle with
          | (.stall .., c) => c
          | (_, c) => c.modAry t fun u => { u with queue := u.queue.drop 1, lastDone := max u.lastDone c.cycle }
      | _ => c

/-! ### Lines, loads and rows -/

/-- Read one line through the array port: nothing while it waits on a tagged ring; a line that fails reads zeros (R529,
R546). -/
def aryLine (c : Chip) (t a bundle : Nat) : Option (List (BitVec 8)) × Chip :=
  let r := c.readMem ⟨.ary t, bundle⟩ a 64
  match r.res with
  | .stall .. => (none, r.chip)
  | .ok => (some r.data, r.chip)
  | _ => (some (zeros 64), r.chip)

/-- The weight load reads its next line (R525). -/
def loadLine (c : Chip) (t : Nat) : Chip :=
  match (c.arySt t).loading with
  | none => c
  | some l =>
    let i := l.data.length / 64
    if imgBytes l.fmt ≤ l.data.length then c
    else
      let due := l.beg + 2 * i
      let c := c.waitTo (cyc due)
      let late := (c.cycle - due + 1) / 2 * 2
      match c.aryLine t (l.addr + 64 * i) l.bundle with
      | (none, c) => c
      | (some bs, c) => (c.meter (slotAry t) 3 (c.owner t) 1).modAry t fun u => { u with
          loading := u.loading.map (fun l => { l with data := l.data ++ bs, beg := l.beg + late }), portEnd := u.portEnd + late }

/-- A stream reads its next line (R524); a delay moves every later event of the job (R529). -/
def streamLine (c : Chip) (t : Nat) : Chip :=
  let u := c.arySt t
  match u.runs.findIdx? (fun r => r.data.length < r.lines.length) with
  | none => c
  | some k =>
    match u.runs[k]? with
    | none => c
    | some r =>
      let j := r.data.length
      let due := r.beg + 2 * (j * r.window / (2 * r.lines.length))
      let c := c.waitTo (cyc due)
      let late := (c.cycle - due + 1) / 2 * 2
      match c.aryLine t (nth 0 r.lines j) r.bundle with
      | (none, c) => c
      | (some bs, c) => c.modAry t fun u => { u with
          runs := modNth (fun r => { r with data := r.data ++ [bs], beg := r.beg + late }) u.runs k, portEnd := u.portEnd + late }

/-- A line is read in its even cycle, by the load or the stream that uses the port. -/
def aryRead (c : Chip) (t : Nat) : Chip :=
  if c.unitFrz t (slotAry t) then c else if (c.arySt t).loading.isSome then c.loadLine t else c.streamLine t

/-- A weight load has read its lines and the shadow register is ready (R525). -/
def loadDone (c : Chip) (t : Nat) : Chip :=
  if c.unitFrz t (slotAry t) then c
  else
    let c := forN 32 (fun _ c => c.loadLine t) c
    match (c.arySt t).loading with
    | some l =>
      if imgBytes l.fmt ≤ l.data.length then
        let e := l.beg + imgBytes l.fmt / 32
        (c.waitTo (cyc e)).modAry t fun u => { u with loading := none, shadow := some { fmt := l.fmt, img := l.data },
                                                      lastDone := max u.lastDone e }
      else c
    | none => c

/-- The next position whose lines have been read updates its row (R514, R538). -/
def rowUpdate (c : Chip) (t : Nat) : Chip :=
  match (c.arySt t).runs.findIdx? (fun r => r.pos < r.npos) with
  | none => c
  | some k =>
    match (c.arySt t).runs[k]? with
    | none => c
    | some r =>
      if !r.ready r.pos then c
      else
        let c := if r.pos + 1 = r.npos then c.waitTo (cyc (r.beg + r.window + r.latency - 1)) else c
        let z := 32 * kindBytes r.kind
        let off := z * (r.row + r.pos)
        let (c, old) := if r.acc then c.aamRead t off z else (c, [])
        let (bs, sat) := r.update r.pos old
        let c := ((c.aamWrite t off bs).cnt (R.ARY.ASAT t) 31 0 sat).meter (slotAry t) r.cls (c.owner t) 1024
        c.modAry t fun u => { u with runs := modNth (fun r => { r with pos := r.pos + 1 }) u.runs k }

/-- The oldest stream completes (R527, R543). -/
def streamDone (c : Chip) (t : Nat) (bad : List (BitVec 5)) : Chip :=
  match (c.arySt t).runs with
  | [] => c
  | r :: _ =>
    if r.pos < r.npos then c
    else
      let c := c.waitTo (cyc (r.beg + r.window + r.latency))
      let (res, c) := if r.ntf then c.ringCmd t r.ctx true 2 (.ary t) r.bundle else (.ok, c)
      match res with
      | .stall .. => c
      | _ =>
        let c := (c.inc (R.ARY.AJCNT t) 31 0 1).cnt (R.ARY.ABUSY t) 31 0 r.window
        let c := c.modAry t fun u => { u with runs := u.runs.drop 1, streamDone := c.cycle, lastDone := max u.lastDone c.cycle }
        if bad.isEmpty && r.w.bad.isEmpty then c else c.tileFault t (slotAry t) 0x0B22 0

/-! ### Stops -/

/-- The positions whose lines have been read complete and write their rows (R544). -/
def aryFinish (c : Chip) (t : Nat) : Chip :=
  let n := (c.arySt t).runs.foldl (fun n r => n + (r.npos - r.pos)) 0
  forN n (fun _ c => c.rowUpdate t) c

/-- Every queued and running command is discarded and both weight registers are empty (R545, R547). -/
def aryDiscard (c : Chip) (t : Nat) : Chip :=
  c.modAry t fun u => { u with queue := [], runs := [], loading := none, shadow := none, active := none, cls := none }

end Chip

/-! ### Commands -/

/-- The slot and class of an attached syllable's registers, for the waits of R431. -/
abbrev nBody (a : Attach) (d : List (BitVec 5)) : Body := { effs := [.attach a], touch := d.map (fun r => (cD, r.toNat)) }

/-- ACFG (R530, R532). -/
def execAcfg (h : Syl) (sel : BitVec 2) (ds : BitVec 5) (s : State) : Host.Outcome State Fault Refusal :=
  s.up fun c => c.syl h [.n] false fun x => nBody (.acfg sel.toNat (x.D ds.toNat)) [ds]

/-- AWLD (R530, R533). -/
def execAwld (h : Syl) (an : BitVec 4) (s : State) : Host.Outcome State Fault Refusal :=
  s.up fun c => c.syl h [.n] false fun x => nBody (.awld (x.A an.toNat).toNat) []

/-- ASTR (R530, R534). -/
def execAstr (h : Syl) (an : BitVec 4) (dn dr : BitVec 5) (acc swp ntf : Bool) (s : State) : Host.Outcome State Fault Refusal :=
  s.up fun c => c.syl h [.n] false fun x =>
    nBody (.astr (x.A an.toNat).toNat (x.D dn.toNat).toNat (x.D dr.toNat).toNat acc swp ntf) [dn, dr]

/-- ASWP (R530, R535). -/
def execAswp (h : Syl) (s : State) : Host.Outcome State Fault Refusal := s.up fun c => c.syl h [.n] false fun _ => nBody .aswp []

/-- AFREE (R530, R535). -/
def execAfree (h : Syl) (s : State) : Host.Outcome State Fault Refusal := s.up fun c => c.syl h [.n] false fun _ => nBody .afree []

/-- ARRAY_COMMAND_BEGIN (R523). -/
def execArrayCommandBegin (t : TileId) (s : State) : Host.Outcome State Fault Refusal := s.up fun c => (c.aryBegin t.val).settle

/-- WEIGHT_LOAD_DONE (R525). -/
def execWeightLoadDone (t : TileId) (s : State) : Host.Outcome State Fault Refusal := s.up fun c => (c.loadDone t.val).settle

/-- ARRAY_LINE_READ (R524). -/
def execArrayLineRead (t : TileId) (s : State) : Host.Outcome State Fault Refusal := s.up fun c => (c.aryRead t.val).settle

/-- AAM_ROW_UPDATE (R514): errors that strike the accumulator memory first. -/
def execAamRowUpdate (t : TileId) (errs : List (BitVec 16 × Bool)) (s : State) : Host.Outcome State Fault Refusal :=
  s.up fun c => (c.aamStrike t.val errs).rowUpdate t.val

/-- ARRAY_JOB_COMPLETE (R527): `bad` names the weight columns that were read with bad parity. -/
def execArrayJobComplete (t : TileId) (bad : List (BitVec 5)) (s : State) : Host.Outcome State Fault Refusal :=
  s.up fun c => (c.streamDone t.val bad).settle

end Sys2Proof.Machine
end

