-- ==== Sys2Proof/Machine/Custom.lean ====
section
/-!
DEFINITION. The customer opcode block: its syllables, the messages of its port, timeouts, and the port's training.
-/
namespace Sys2Proof.Machine
namespace Chip

/-- The tile and queue place of the outstanding command that a TAG names (R338). -/
def custFind (c : Chip) (tag : Nat) : Option (Nat × Nat) :=
  let t := tag / 256
  if 16 ≤ t then none
  else ((c.custSt t).queue.findIdx? (fun q => q.sent && q.tag == tag)).map (fun i => (t, i))

def custCmdAt (c : Chip) (t i : Nat) : Option CustCmd := (c.custSt t).queue[i]?

/-- The kennel that a message's TAG charges; overhead where it names no command (R842). -/
def custKen (c : Chip) (tag : Nat) : Nat :=
  match c.custFind tag with
  | some (t, i) => ((c.custCmdAt t i).map (·.ken)).getD 8
  | none => 8

/-- A message has arrived: the credits it returns are held, and its flits' buffers are to be returned (R341). -/
def custHear (c : Chip) (ken flits cr : Nat) : Chip :=
  let c := c.meter 4 1 ken flits
  { c with cport := { c.cport with tx := c.cport.tx + cr, owed := c.cport.owed + flits } }

/-- The head command of a tile's queue is sent as a CMD message while the port holds a credit and fewer than 8 of the tile's
TAGs are live (R336, R341). -/
def custSend (c : Chip) (t : Nat) : Chip :=
  match (c.custSt t).queue.findIdx? (fun q => !q.sent) with
  | none => c
  | some i =>
    match c.custCmdAt t i with
    | none => c
    | some q =>
      match q.a with
      | .cxcmd fn da db _ _ _ _ arg =>
        if c.custUp ∧ 1 ≤ c.cport.tx ∧ c.cport.outq.isEmpty ∧ c.custOut t < 8 then
          let tag := t * 256 + (c.custSt t).cnt % 256
          let c := c.modCust t fun u => { u with cnt := (u.cnt + 1) % 256,
                                                 queue := modNth (fun q => { q with sent := true, tag := tag }) u.queue i }
          c.custEmit 0x01 t q.ken tag 0 fn 0 0 0 da db (padZ 40 (arg.take 40))
        else c
      | _ => c

/-- One RD or WR is performed or refused, and answered: `none` while it waits on a tagged ring (R338, R339). -/
def custAccess (c : Chip) (m : CustMsg) : Option Chip :=
  let answer (c : Chip) (t ken code : Nat) (bs : List (BitVec 8)) : Chip :=
    c.custSay { mt := if m.data.isSome then 0x06 else 0x05, tile := t, ken := ken, tag := m.tag, len := m.len, code := code,
                data := if m.data.isSome || code != 0 then [] else bs }
  match c.custFind m.tag with
  | none =>
    let t := m.tag / 256 % 16
    let c := c.report 4 0x0B54 .event ⟨2, c.owner t⟩ m.addr
    some (answer c t (c.owner t) 0x0B54 [])
  | some (t, i) =>
    let ken := ((c.custCmdAt t i).map (·.ken)).getD 0
    let ag : Mover := { ag := .ext (.cust (Fin.ofNat 16 t)) }
    let legal := match c.regionOf (c.ownWindow m.addr m.len) m.len with | .hbm | .sp _ | .hole => true | _ => false
    if !legal then
      some (answer (c.report 6 0x0521 .refusal ⟨2, ken⟩ m.addr) t ken 0x0521 [])
    else
      let r := match m.data with
        | some bs => c.writeMem ag m.addr bs
        | none => c.readMem ag m.addr m.len
      match r.res with
      | .stall .. => none
      | .ok => some (answer r.chip t ken 0 r.data)
      | .refused code => some (answer r.chip t ken code [])
      | .fault code => some (answer r.chip t ken code [])

/-- The waiting RD and WR messages are performed in order. -/
def custInN : Nat → Chip → Chip
  | 0, c => c
  | n + 1, c =>
    match c.cport.inq with
    | [] => c
    | m :: rest =>
      match ({ c with cport := { c.cport with inq := rest } }).custAccess m with
      | some c => custInN n c
      | none => { c with cport := { c.cport with inq := m :: rest } }

def custIn (c : Chip) : Chip := custInN c.cport.inq.length c

/-- An RD or WR arrives (R338). -/
def custAsk (c : Chip) (m : CustMsg) (cr : Nat) : Chip :=
  if !c.custUp then c
  else
    let nd := match m.data with | some _ => (m.len + 63) / 64 | none => 0
    let c := c.custHear (c.custKen m.tag) (1 + nd) cr
    ((({ c with cport := { c.cport with inq := c.cport.inq ++ [m] } }).custIn).custPump).settle

/-- A DONE is accepted: the command completes (R339). -/
def custDone (c : Chip) (tag code cr : Nat) : Chip :=
  if !c.custUp then c
  else
    let c := (c.custHear (c.custKen tag) 1 cr).custPump
    match c.custFind tag with
    | none => c.report 4 0x0B54 .event ⟨2, c.owner (tag / 256 % 16)⟩ 0
    | some (t, i) =>
      match c.custCmdAt t i with
      | none => c
      | some q =>
        let n := match q.a with
          | .cxcmd _ _ _ ntf rcf ctx _ _ => if ntf then [(ctx, rcf, q.bundle)] else []
          | _ => []
        let c := c.modCust t fun u => { u with queue := u.queue.eraseIdx i, ntf := u.ntf ++ n }
        let c := c.inc (R.TILE.CXDONE t) 31 0 1
        let c := if code = 0 then c
          else (c.wf (R.TILE.CXERR t) 15 0 code).report (slotTile t) 0x0B52 .event ⟨2, q.ken⟩ 0
        (c.custRun t).settle

/-- A message that is not listed or travels the wrong way (R337). -/
def custBad (c : Chip) (flits cr : Nat) : Chip :=
  if !c.custUp then c
  else (((c.custHear 8 flits cr).cnt R.CC.CPERR 23 16 1).event 4 0x0B54).custPump

/-- The command of a tile that entered its queue first, of those that have neither completed nor ended (R340). -/
def custOldest (c : Chip) (t : Nat) : Option Nat :=
  (c.custSt t).queue.findIdx? (fun q => match q.a with | .cxcmd .. => true | _ => false)

/-- A command of a tile runs into its timeout: it ends, and its kennel takes kennel fault 0x0B53 (R340). -/
def custTimeout (c : Chip) (t : Nat) : Chip :=
  match c.custOldest t with
  | none => c
  | some i =>
    match c.custCmdAt t i with
    | none => c
    | some q =>
      let c := c.waitTo (q.at_ + us (c.rf R.CC.CPCTL 31 16))
      ((c.custEnd t i).kfault (slotTile t) 0x0B53 ⟨2, q.ken⟩ 0 (c.owner t)).settle

/-- The port leaves UP: every outstanding command ends without a kennel fault, with event 0x0B55 to each kennel concerned
(R342). -/
def custDown (c : Chip) (st : Nat) : Chip :=
  let was := c.custUp
  let c := (c.wf R.CC.CPST 1 0 st).wf R.CC.CPST 5 4 0
  let c := { c with cport := {} }
  if !was then c
  else
    let c := c.cnt R.CC.CPERR 31 24 1
    let ts := (List.range 16).filter (fun t => 0 < c.custOut t)
    let c := ts.foldl (fun c t =>
      (c.custSt t).queue.foldl (fun c _ =>
        match (c.custSt t).queue.findIdx? (·.sent) with
        | some i => c.custEnd t i
        | none => c) c) c
    let firsts := ts.filter (fun t => !ts.any (fun u => u < t && c.owner u == c.owner t))
    let c := firsts.foldl (fun c t => c.report (slotTile t) 0x0B55 .event ⟨2, c.owner t⟩ 0) c
    c.settle

/-- A write of CPCTL (R342, R343): a part without the port reserves the register; CTO = 0 is refused. -/
def cpctlWrite (c : Chip) (who : Who) (val : BitVec 32) : Chip :=
  if !c.hasCust then (if val = 0 then c else c.rsvWrite 4)
  else if fld val 31 16 = 0 then (c.noteRsv R.CC.CPCTL val).badValue who R.CC.CPCTL
  else
    let was := c.rb R.CC.CPCTL 0
    let c := c.putReg who R.CC.CPCTL val
    if bit val 0 == was then c
    else if bit val 0 then c.wf R.CC.CPST 1 0 1
    else c.custDown 0

/-- The port completes training (R341, R342): each side starts with 64 credits. -/
def custPortUp (c : Chip) (rate : Nat) : Chip :=
  if c.hasCust && c.rb R.CC.CPCTL 0 && (c.rf R.CC.CPST 1 0 == 1 || c.rf R.CC.CPST 1 0 == 3) then
    ({ (c.wf R.CC.CPST 1 0 2).wf R.CC.CPST 5 4 rate with cport := { tx := 64 } }).settle
  else c

end Chip

/-- CXCMD (R335). -/
def execCxcmd (h : Syl) (o : CxOp) (s : State) : Host.Outcome State Fault Refusal :=
  s.up fun c => c.syl h [.n] false fun x =>
    { nBody (.cxcmd o.fn.toNat (x.D o.da.toNat).toNat (x.D o.db.toNat).toNat o.ntf o.rcf o.ctx.toNat (x.A o.an.toNat).toNat [])
        [o.da, o.db] with ok := c.hasCust }

/-- CXFENCE (R335). -/
def execCxfence (h : Syl) (rcf : Bool) (ctx : BitVec 4) (s : State) : Host.Outcome State Fault Refusal :=
  s.up fun c => c.syl h [.n] false fun _ => { nBody (.cxfence rcf ctx.toNat) [] with ok := c.hasCust }

/-- CUSTOMER_CMD_SEND (R336). -/
def execCustomerCmdSend (t : TileId) (s : State) : Host.Outcome State Fault Refusal := s.up fun c => (c.custSend t.val).settle

/-- CUSTOMER_RD (R338). -/
def execCustomerRd (tag : BitVec 16) (addr : BitVec 48) (len : Fin 257) (cr : BitVec 8) (s : State) :
    Host.Outcome State Fault Refusal := s.up fun c => c.custAsk ⟨tag.toNat, addr.toNat, len.val, none⟩ cr.toNat

/-- CUSTOMER_WR (R338). -/
def execCustomerWr (tag : BitVec 16) (addr : BitVec 48) (data : List (BitVec 8)) (cr : BitVec 8) (s : State) :
    Host.Outcome State Fault Refusal := s.up fun c => c.custAsk ⟨tag.toNat, addr.toNat, data.length, some data⟩ cr.toNat

/-- CUSTOMER_DONE (R339). -/
def execCustomerDone (tag code : BitVec 16) (cr : BitVec 8) (s : State) : Host.Outcome State Fault Refusal :=
  s.up fun c => c.custDone tag.toNat code.toNat cr.toNat

/-- CUSTOMER_NOP (R341); the adapter has retried `retry` times since the last message (R343). -/
def execCustomerNop (cr : BitVec 8) (retry : BitVec 16) (s : State) : Host.Outcome State Fault Refusal :=
  s.up fun c => if c.custUp then ((c.cnt R.CC.CPERR 15 0 retry.toNat).custHear 8 1 cr.toNat).custPump else c

/-- CUSTOMER_BAD_MESSAGE (R337): its header and the data flits it announces. -/
def execCustomerBadMessage (ndat : BitVec 8) (cr : BitVec 8) (s : State) : Host.Outcome State Fault Refusal :=
  s.up fun c => c.custBad (1 + ndat.toNat) cr.toNat

/-- CUSTOMER_CMD_TIMEOUT (R340). -/
def execCustomerCmdTimeout (t : TileId) (s : State) : Host.Outcome State Fault Refusal := s.up fun c => c.custTimeout t.val

/-- CUSTOMER_PORT_UP (R342). -/
def execCustomerPortUp (rate : BitVec 2) (s : State) : Host.Outcome State Fault Refusal := s.up fun c => c.custPortUp rate.toNat

/-- CUSTOMER_PORT_DOWN (R342). -/
def execCustomerPortDown (s : State) : Host.Outcome State Fault Refusal := s.up fun c => if c.custUp then c.custDown 3 else c

end Sys2Proof.Machine
end

