-- ==== Sys2Proof/Machine/Hbm.lean ====
section
/-!
DEFINITION. The HBM controllers, their write buffers and read queues, and the line store's view rings.
-/
namespace Sys2Proof.Machine
namespace Chip

def hbmSt (c : Chip) (s : Nat) : HbmCtl := nth {} c.hbm s
def modHbm (c : Chip) (s : Nat) (f : HbmCtl → HbmCtl) : Chip := { c with hbm := modNth f c.hbm s }

/-! ### The pools of class 1 -/

/-- Reserved entries of a holder group: the engines are groups 0 to 7, the Vaxlin stream or request ingress 8, the escape
ingress 9, egress 10, the inbound paths 11 (R635). -/
def reserveOf (wr : Bool) (g : Nat) : Nat :=
  if g < 8 then 2 else match g with
    | 8 => 8
    | 9 => if wr then 8 else 0
    | 10 => if wr then 4 else 2
    | _ => 4

/-- Entries that a group holds of a pool. -/
def poolHeld (c : Chip) (s p : Nat) (wr : Bool) (g : Nat) : Nat :=
  if wr then ((c.hbmSt s).wbuf.filter (fun e => e == (p, g))).length
  else ((c.hbmSt s).rq.filter (fun e => e.pch == p && e.eng == g)).length

/-- Entries of the shared part of a pool that are held (R637). -/
def sharedHeld (c : Chip) (s p : Nat) (wr : Bool) : Nat :=
  (List.range 12).foldl (fun n g => n + (c.poolHeld s p wr g - reserveOf wr g)) 0

/-- A group's reserved part has a free entry; the shared part has one (R637). -/
def ownFree (c : Chip) (s p : Nat) (wr : Bool) (g : Nat) : Bool := decide (c.poolHeld s p wr g < reserveOf wr g)
def sharedFree (c : Chip) (s p : Nat) (wr : Bool) : Bool := decide (c.sharedHeld s p wr < (if wr then 8 else 2))
def poolFree (c : Chip) (s p : Nat) (wr : Bool) (g : Nat) : Bool := c.ownFree s p wr g || c.sharedFree s p wr

/-- The highest occupancies of a stack's pools (R662). -/
def poolMark (c : Chip) (s p : Nat) : Chip :=
  let w := ((c.hbmSt s).wbuf.filter (fun e => e.1 == p)).length
  let r := ((c.hbmSt s).rq.filter (fun e => e.pch == p)).length
  let k := R.HBM.WQHW s
  (c.wf k 5 0 (max (c.rf k 5 0) w)).wf k 13 8 (max (c.rf k 13 8) r)

/-- An engine's burst enters a write buffer; a read enters a read queue (R636). A group served from the shared part moves
the rotation (R638). -/
def pushWrite (c : Chip) (s p g : Nat) : Chip :=
  let own := c.ownFree s p true g
  (c.modHbm s fun h => { h with wbuf := h.wbuf ++ [(p, g)], rotW := if own then h.rotW else g }).poolMark s p
def pushRead (c : Chip) (s : Nat) (e : HbmRead) : Chip :=
  let own := c.ownFree s e.pch false e.eng
  (c.modHbm s fun h => { h with rq := h.rq ++ [e], rotR := if own then h.rotR else e.eng }).poolMark s e.pch

/-- A buffered write is written to DRAM and its entry returns (R643). -/
def writeRetire (c : Chip) (s i : Nat) : Chip := c.modHbm s fun h => { h with wbuf := h.wbuf.eraseIdx i }

/-! ### Scrub, temperature, self-refresh, training -/

/-- The patrol scrubber corrects a burst, or poisons it with event 0x0223 (R268). -/
def patrolUnit (c : Chip) (s : Nat) (e : Nat × EccMark) : Chip :=
  match e.2 with
  | .ce => c.eccCorrect .hbm e.1 e.1
  | .odc => (c.delMark e.1).cnt (R.HBM.ECC s) 23 12 1
  | .ue =>
    let c := ((c.setMark e.1 .poison).cnt (R.HBM.ECC s) 31 24 1).badBurst s e.1
    c.report (slotHbm s) 0x0223 .event ⟨0, 0⟩ e.1
  | .poison => c

/-- A patrol pass over a stack that is ready, with the scrub enabled (R268). -/
def patrol (c : Chip) (s : Nat) : Chip :=
  if !c.surv (16 + s) || s ≥ c.stackCnt || !c.rb (R.HBM.CTL s) 1 || c.rf (R.HBM.STAT s) 2 0 ≠ 2 then c
  else
    let c := c.meter (slotHbm s) 3 8 0x20000000
    (c.ecc.filter (fun e => c.regionOf e.1 1 == .hbm && c.stackOf e.1 == s)).foldl (fun c e => c.patrolUnit s e) c

/-- A controller reads its stack's temperature (R271). -/
def hbmTemp (c : Chip) (s temp : Nat) : Chip :=
  if !c.surv (16 + s) || s ≥ c.stackCnt then c else
  let c := c.wf (R.HBM.STAT s) 15 8 temp
  let w := decide (c.rf (R.HBM.THERM s) 7 0 ≤ temp)
  let c := if w && !(c.hbmSt s).warm then c.event (slotHbm s) 0x0C21 else c
  let c := if 105 ≤ temp ∧ ¬(c.hbmSt s).hot then c.event (slotHbm s) 0x0C22 else c
  c.modHbm s fun h => { h with warm := w, hot := decide (105 ≤ temp) || (h.hot && decide (100 ≤ temp)) }

/-- A valid HBM range of some kennel lies on a stack (R284). -/
def rangeOn (c : Chip) (s : Nat) : Bool :=
  (List.range 8).any fun k => (List.range 4).any fun j =>
    c.rb (R.KMAP.LIVE_KATTR k) j &&
      (let v := c.r (R.KMAP.LIVE_HRNG (4 * k + j)); fld v 11 0 < (s + 1) * 1024 && s * 1024 ≤ fld v 23 12)

/-- A write of CTL (R283, R284, R290, R1070). On HBM1 to HBM3 the fields of HBM0 are reserved. -/
def hbmCtlWrite (c : Chip) (who : Who) (s : Nat) (val : BitVec 32) : Chip :=
  let key := R.HBM.CTL s
  let mine := val &&& (if s = 0 then 0xFFFFFFFF else 0xFFFFFFCF)
  let c := if mine ≠ val then c.rsvWrite (slotHbm s) else c
  let free := c.rwlOk who (slotHbm s)
  if free && bit mine 0 && !c.rb key 0 && (!c.stackMode || c.rangeOn s) then (c.noteRsv key mine).badValue who key
  else
    let was := c.rb key 0
    let c := c.putReg who key mine
    let c := if s = 0 && bit mine 5 then { c with pwr := { c.pwr with trec := false } } else c
    if c.rb key 0 && !was && c.rf (R.HBM.STAT s) 2 0 == 2 then c.wf (R.HBM.STAT s) 2 0 3 else c

/-- A stack whose SREF has been cleared is ready again (R1070). -/
def srefExit (c : Chip) (s : Nat) : Chip :=
  if c.rf (R.HBM.STAT s) 2 0 = 3 ∧ ¬c.rb (R.HBM.CTL s) 0 then c.wf (R.HBM.STAT s) 2 0 2 else c

/-- A stack fails (R288). -/
def stackFail (c : Chip) (s : Nat) : Chip :=
  if !c.surv (16 + s) || s ≥ c.stackCnt || c.rf (R.HBM.STAT s) 2 0 = 4 then c
  else (c.wf (R.HBM.STAT s) 2 0 4).event (slotHbm s) 0x0225

/-- Bring-up of the stacks completes: with the training record where it is valid, else by cold training, whose new record
may fail to be written (R290, R291). `ok` says that the record met the conditions of R289, `why` the reason it did not. -/
def trained (c : Chip) (ok wrote : Bool) (why : Nat) : Chip :=
  if (List.range 4).all (fun s => c.rf (R.HBM.STAT s) 2 0 != 1) then c
  else
    let warm := c.pwr.trec && ok
    let c := forN 4 (fun s c => if c.rf (R.HBM.STAT s) 2 0 = 1 then c.wf (R.HBM.STAT s) 2 0 2 else c) c
    let c := (c.wf (R.HBM.TREC 0) 1 0 (if warm then 1 else if wrote then 2 else 3)).wf (R.HBM.TREC 0) 11 8 (if warm then 0 else why)
    { c with pwr := { c.pwr with trec := warm || wrote } }

/-- A write of THERM or SCRP whose field lies outside its range is refused (R283, R284). -/
def hbmLimits (c : Chip) (who : Who) (key : Nat) (val : BitVec 32) (lo hi : Nat) : Chip :=
  c.putIf who key val (decide (lo ≤ fld val 7 0) && decide (fld val 7 0 ≤ hi)) (fun c => c.badValue who key)

/-! ### View rings -/

/-- The tick unit is in RUN or FLUSH (R81). -/
def tickRuns (c : Chip) : Bool := let s := c.rf R.TICK.TSTAT 1 0; s == 1 || s == 2

/-- Granules of a view ring (R279). -/
def ringGran (nl pitch : Nat) : Nat := cdiv (nl * pitch * 64) 65536

/-- A ring cannot be enabled as it is written (R279). -/
def lrBad (c : Chip) (v : Nat) (val : BitVec 32) : Bool :=
  let nl := fld val 21 9
  let pitch := c.rf (R.LST.LRPIT v) 12 0
  let b := fld val 8 0
  let g := ringGran nl pitch
  nl < 16 || 4096 < nl || pitch < 2 || 4096 < pitch || 384 < b + g || c.tickRuns ||
    (List.range 8).any (fun u => u != v && c.rb (R.LST.LRCFG u) 31 &&
      (let b' := c.rf (R.LST.LRCFG u) 8 0
       let g' := ringGran (c.rf (R.LST.LRCFG u) 21 9) (c.rf (R.LST.LRPIT u) 12 0)
       b < b' + g' && b' < b + g))

/-- A refused write of a view ring's registers (R279, R286). -/
def lstBad (who : Who) (key : Nat) (c : Chip) : Chip := (c.wb R.LST.LSTAT 0 true).badValue who key

/-- A write of LRCFGv: a ring that is enabled begins at slot 0 with LRSEQ 0 (R274, R279). -/
def lrcfgWrite (c : Chip) (who : Who) (v : Nat) (val : BitVec 32) : Chip :=
  let key := R.LST.LRCFG v
  let was := c.rb key 31
  let ok := if was then fld val 21 0 == c.rf key 21 0 else !bit val 31 || !c.lrBad v val
  let c := c.putIf who key val ok (lstBad who key)
  if ok && bit val 31 && !was then
    let c := { c with landing := c.landing.filter (fun l => l.1 / 4096 != v) }
    (c.w (R.LST.LRSEQ v) 0).w (R.LST.LSLOT v) 0
  else c

/-- A write of LRPITv (R279). -/
def lrpitWrite (c : Chip) (who : Who) (v : Nat) (val : BitVec 32) : Chip :=
  let key := R.LST.LRPIT v
  c.putIf who key val (!c.rb (R.LST.LRCFG v) 31 && decide (2 ≤ fld val 12 0) && decide (fld val 12 0 ≤ 4096)) (lstBad who key)

/-- Address of a slot of a view ring (R272). -/
def viewSlot (c : Chip) (v slot : Nat) : Nat :=
  0x2000000000 + c.rf (R.LST.LRCFG v) 8 0 * 0x10000 + slot * (c.rf (R.LST.LRPIT v) 12 0 * 64)

/-- A line tick claims the write slot of an enabled view ring: its line sequence number and slot (R274). -/
def viewClaim (c : Chip) (v : Nat) : (Nat × Nat) × Chip :=
  let n := (c.r (R.LST.LRSEQ v)).toNat
  let s := c.rf (R.LST.LSLOT v) 11 0
  let nl := c.rf (R.LST.LRCFG v) 21 9
  ((n, s), (c.w (R.LST.LRSEQ v) (BitVec.ofNat 32 (n + 1))).wf (R.LST.LSLOT v) 11 0 ((s + 1) % max 1 nl))

/-- The slot in which a line of a view ring lies, by its sequence number (R274). -/
def viewSlotOf (c : Chip) (v lseq : Nat) : Nat :=
  let nl := max 1 (c.rf (R.LST.LRCFG v) 21 9)
  let back := ((c.r (R.LST.LRSEQ v)) - BitVec.ofNat 32 lseq).toNat
  (c.rf (R.LST.LSLOT v) 11 0 + nl - back % nl) % nl

/-- A later line has begun to land in the slot of a line (R277). -/
def viewOver (c : Chip) (v lseq : Nat) : Bool :=
  match getKey 0 c.landing (v * 4096 + c.viewSlotOf v lseq) with
  | 0 => false
  | n => let d := (BitVec.ofNat 32 (n - 1) - BitVec.ofNat 32 lseq).toNat; 0 < d && d < 2 ^ 31

/-- The view slot of a line that has been read is checked: OVW and event 0x0311 to the job's kennel (R277). -/
def viewCheck (c : Chip) (v lseq ken : Nat) : Chip :=
  if c.viewOver v lseq then (c.cnt (R.LST.LROVR v) 15 0 1).report 0x00F 0x0311 .event ⟨0, ken⟩ 0 else c

end Chip

/-! ### Commands -/

/-- HBM_WRITE_RETIRE (R643): entry `i` of a stack's write buffers. -/
def execHbmWriteRetire (st : Fin 4) (i : Nat) (s : State) : Host.Outcome State Fault Refusal := s.up fun c => c.writeRetire st.val i

/-- HBM_PATROL_SCRUB (R268): errors that have struck since the last pass, then the pass. -/
def execHbmPatrolScrub (st : Fin 4) (errs : List (BitVec 48 × Bool)) (s : State) : Host.Outcome State Fault Refusal :=
  s.up fun c => (c.strike errs).patrol st.val

/-- HBM_TEMPERATURE_READ (R271). -/
def execHbmTemperatureRead (st : Fin 4) (temp : BitVec 8) (s : State) : Host.Outcome State Fault Refusal :=
  s.up fun c => c.hbmTemp st.val temp.toNat

/-- HBM_STACK_FAIL (R288). -/
def execHbmStackFail (st : Fin 4) (s : State) : Host.Outcome State Fault Refusal := s.up fun c => c.stackFail st.val

/-- HBM_TRAINING_DONE (R290). -/
def execHbmTrainingDone (ok wrote : Bool) (why : BitVec 4) (s : State) : Host.Outcome State Fault Refusal :=
  s.up fun c => c.trained ok wrote why.toNat

/-- HBM_SREF_EXIT_DONE (R1070). -/
def execHbmSrefExitDone (st : Fin 4) (s : State) : Host.Outcome State Fault Refusal := s.up fun c => c.srefExit st.val

end Sys2Proof.Machine
end

