-- ==== Sys2Proof/Machine/Dma.lean ====
section
/-!
DEFINITION. Tensor descriptors, owner tables, the DMA engines with their jobs and line moves, and the table syllables.
-/
namespace Sys2Proof.Machine

/-! ### Tensor descriptors -/

/-- A tensor descriptor (R586). -/
structure Desc where
  typ : Nat
  fmt : Nat
  ken : Nat
  rd : Bool
  wr : Bool
  kind : Nat
  nch : Nat
  ndim : Nat
  zp : Int
  gsz : Nat
  base : Nat
  bsz : Nat
  scale : Nat
  otlen : Nat
  ext : List Nat
  str : List Int
  deriving DecidableEq, Repr

/-- The descriptor that 64 bytes spell (R586). -/
def Desc.of (bs : List (BitVec 8)) : Desc :=
  let b (i : Nat) : BitVec 8 := nth 0 bs i
  let n := fld (b 3) 2 0
  { typ := fld (b 0) 3 0, fmt := fld (b 0) 7 4, ken := fld (b 1) 2 0, rd := bit (b 1) 3, wr := bit (b 1) 4
    kind := fld (b 1) 7 5, nch := fld (b 2) 4 0, ndim := n, zp := sInt 16 (le bs 4 2), gsz := le bs 6 2, base := le bs 8 6
    bsz := fld (b 14) 3 0, scale := le bs 16 3, otlen := le bs 20 4
    ext := (List.range 5).map (fun d => if d < n then le bs (24 + 8 * d) 3 else 1)
    str := (List.range 5).map (fun d => if d < n then sInt 40 (le bs (27 + 8 * d) 5) else 0) }

/-- A byte or bit of a tensor descriptor that must be 0 is not (R586, R587). -/
def descZeroBad (bs : List (BitVec 8)) : Bool :=
  let b (i : Nat) : BitVec 8 := nth 0 bs i
  let t2 := fld (b 0) 3 0 == 2
  let n := fld (b 3) 2 0
  fld (b 2) 7 5 != 0 || fld (b 3) 7 3 != 0 || (if t2 then fld (b 14) 7 4 != 0 else b 14 != 0) || b 15 != 0 || b 19 != 0
    || (!t2 && le bs 20 4 != 0) || (List.range 5).any (fun d => n ≤ d && le bs (24 + 8 * d) 8 != 0)

def Desc.block (d : Desc) : Bool := aryBlock d.fmt
/-- Mantissa bytes of a block (R587). -/
def Desc.mb (d : Desc) : Nat := if d.fmt = 12 then 32 else 16
/-- The base of the address rule: 0 for a distributed tensor (R587). -/
def Desc.origin (d : Desc) : Int := if d.typ = 2 then 0 else d.base

/-- The byte ranges of one group, or of one block, at coordinates i1 to i5 (R587): its exponent byte travels with it. -/
def Desc.parts (d : Desc) (i : List Int) : List (Int × Nat) :=
  let row := (List.range' 1 4).foldl (fun (a : Int) k => a + nth 0 i k * nth 0 d.str k) d.origin
  let i1 := nth 0 i 0
  if d.block then
    let grp := row + 64 * d.gsz * (i1 / 64)
    let s := i1 % 64
    [(grp + s, 1), (grp + 64 + d.mb * s, d.mb)]
  else [(row + i1 * nth 0 d.str 0, runBytes d.fmt 32)]

/-- Bytes of one group or block. -/
def Desc.unit (d : Desc) : Nat := if d.block then 1 + d.mb else runBytes d.fmt 32

/-- The footprint: lowest and highest byte that an in-bound coordinate reaches (R588). -/
def Desc.footprint (d : Desc) : Int × Int :=
  let dims := if d.block then List.range' 1 4 else List.range 5
  let far (k : Nat) : Int := ((nth 1 d.ext k : Nat) - 1 : Int) * nth 0 d.str k
  let lo := dims.foldl (fun a k => a + min 0 (far k)) d.origin
  let hi := dims.foldl (fun a k => a + max 0 (far k)) d.origin
  let e := nth 1 d.ext 0 - 1
  let last : Int := if d.block then (if e < 64 then 64 + d.mb * e + d.mb - 1 else
      max (64 * d.gsz * (e / 64) + 64 + d.mb * (e % 64) + d.mb - 1) (64 * d.gsz * (e / 64 - 1) + 64 + d.mb * 64 - 1))
    else (runBytes d.fmt 32 : Nat) - 1
  (lo, hi + last)

/-- A coordinate clamped to a dimension (R589). -/
def Desc.clamp (d : Desc) (i : List Int) : List Int :=
  (List.range 5).map (fun k => clampI 0 ((nth 1 d.ext k : Nat) - 1) (nth 0 i k))

/-- Every coordinate lies in bounds (R590). -/
def Desc.inside (d : Desc) (i : List Int) : Bool :=
  (List.range 5).all (fun k => decide (0 ≤ nth 0 i k) && decide (nth 0 i k < (nth 1 d.ext k : Nat)))

/-! ### Job records -/

/-- A 3-byte field of a job record (R619): the source start, the destination start, the window size of a dimension. -/
def jS (r : List (BitVec 8)) (d : Nat) : Int := sInt 24 (le r (4 + 3 * d) 3)
def jD (r : List (BitVec 8)) (d : Nat) : Int := sInt 24 (le r (19 + 3 * d) 3)
def jW (r : List (BitVec 8)) (d : Nat) : Nat := le r (34 + 3 * d) 3
def jXp (r : List (BitVec 8)) : Bool := bit (nth 0 r 49) 0
def jSum (r : List (BitVec 8)) : Bool := bit (nth 0 r 49) 1
def jNtf (r : List (BitVec 8)) : Bool := bit (nth 0 r 49) 2
def jRcf (r : List (BitVec 8)) : Bool := bit (nth 0 r 49) 3
def jCtx (r : List (BitVec 8)) : Nat := fld (nth 0 r 50) 3 0
def jTile (r : List (BitVec 8)) : Nat := fld (nth 0 r 50) 7 4
def jVr (r : List (BitVec 8)) : Nat := fld (nth 0 r 51) 2 0
def jVchk (r : List (BitVec 8)) : Bool := bit (nth 0 r 51) 3
def jLseq (r : List (BitVec 8)) : Nat := le r 52 4

/-- A record rearranges or sums runs of 32 elements (R606, R607). -/
def jRuns (r : List (BitVec 8)) : Bool := jXp r || jSum r

/-- Units of a job: groups or blocks, or runs of 32 of them. -/
def jUnits (r : List (BitVec 8)) : Nat :=
  (List.range' 1 4).foldl (fun n d => n * jW r d) (if jRuns r then jW r 0 / 32 else jW r 0)

/-- Window coordinates of a unit; j1 runs fastest, and in a run it is the run's first. -/
def jCoord (r : List (BitVec 8)) (u : Nat) : List Nat :=
  let w0 := if jRuns r then jW r 0 / 32 else jW r 0
  let (l, _) := (List.range 5).foldl (fun (x : List Nat × Nat) d =>
    let w := max 1 (if d = 0 then w0 else jW r d)
    (x.1 ++ [x.2 % w * (if d = 0 ∧ jRuns r then 32 else 1)], x.2 / w)) ([], u)
  l

/-- Coordinates from a start and window coordinates. -/
def addC (s : Nat → Int) (j : List Nat) : List Int := (List.range 5).map (fun d => s d + (nth 0 j d : Nat))

/-- Bytes of a weight image by format (R607). -/
def imageBytes (f : Nat) : Nat := if f = 6 then 640 else 1152

/-- The sum lane's image of a run of 32 stored groups: the columns, and the signed 32-bit sum of each column's lanes (R518,
R539, R607). -/
def sumImage (f : Nat) (bs : List (BitVec 8)) : List (BitVec 8) :=
  let g := runBytes f 32
  let cols := (List.range 32).map (fun p => (bs.drop (g * p)).take g)
  cols.flatten ++ cols.flatMap (fun col =>
    bytesLE 4 (wrapN 32 ((List.range 32).foldl (fun (a : Int) i => a + elemInt f col i) 0)))

/-- A run of 32 groups transposed: lane l of group c is lane c of group l (R606). -/
def transposeRun (f : Nat) (bs : List (BitVec 8)) : List (BitVec 8) :=
  let g := runBytes f 32
  let grp (l : Nat) : List (BitVec 8) := (bs.drop (g * l)).take g
  (List.range 32).flatMap (fun c => elemsPut f ((List.range 32).map (fun l => elemGet f (grp l) c)))

/-- Answer of a burst that was performed at once or has returned: the transfer goes on; a refused or failed read gives
zeros. -/
def Xfer.fin (x : Xfer) (data : List (BitVec 8)) : Xfer :=
  match x.ops with
  | .rd _ _ ofs :: rest => { x with ops := rest, busy := false, port := none, buf := x.buf.putBytes ofs data }
  | _ :: rest => { x with ops := rest, busy := false, port := none }
  | [] => { x with busy := false, port := none }

namespace Chip

def eng (c : Chip) (e : Nat) : Engine := nth {} c.engines e
def modEng (c : Chip) (e : Nat) (f : Engine → Engine) : Chip := { c with engines := modNth f c.engines e }
def jport (c : Chip) (k : Nat) : JobPort := nth {} c.ports k
def modPort (c : Chip) (k : Nat) (f : JobPort → JobPort) : Chip := { c with ports := modNth f c.ports k }

/-- Kennel of a requester of jobs (R145). -/
def portKen (c : Chip) (k : Nat) : Nat := if k = 16 then 0 else c.owner k
/-- Path of a requester of jobs (R126). -/
def portPath (k : Nat) : Nat := if k = 16 then 0 else 1

/-- JSTAT and JUSE of an engine as they follow from its jobs (R624). -/
def showEng (c : Chip) (e : Nat) : Chip :=
  let js := (c.eng e).jobs
  let c := (c.wf (R.DMA.JSTAT e) 5 0 js.length).wf (R.DMA.JSTAT e) 8 6 (js.filter (·.running)).length
  forN 8 (fun k c => c.wf (R.DMA.JUSE e k) 5 0 (js.filter (fun j => j.ken == k)).length) c

/-! ### Acceptance -/

/-- Why a job is refused: 0 when it is not (R620). -/
def jobWhy (c : Chip) (ken : Nat) (r sb db : List (BitVec 8)) : Nat :=
  let s := Desc.of sb
  let d := Desc.of db
  let (dlo, dhi) := d.footprint
  let (slo, shi) := s.footprint
  let regs (x : Desc) (lo hi : Int) : Bool :=
    x.kind == 4 && x.typ == 1 && decide (0x800000000000 ≤ hi) &&
      (let w := (max lo 0x800000000000 - 0x800000000000) % 0x10000000000 + (hi - max lo 0x800000000000)
       decide (0xF000000000 ≤ w))
  let xpFmt := [0, 1, 3, 4, 5, 7, 8, 9, 10, 11].contains s.fmt
  let a0 : Int := (nth (0, 0) (d.parts (addC (jD r) [0, 0, 0, 0, 0])) 0).1
  let images := jUnits r * imageBytes s.fmt
  if fld (nth 0 r 49) 7 4 ≠ 0 ∨ fld (nth 0 r 51) 7 4 ≠ 0 ∨ ¬(r.drop 56).all (· == 0)
      ∨ (List.range 5).any (fun k => jW r k == 0) then 1
  else if (s.typ ≠ 1 ∧ s.typ ≠ 2) ∨ (d.typ ≠ 1 ∧ d.typ ≠ 2) ∨ s.ken ≠ ken ∨ d.ken ≠ ken then 2
  else if ¬s.rd ∨ ¬d.wr then 3
  else if s.fmt ≠ d.fmt ∨ s.nch ≠ d.nch then 4
  else if jXp r ∧ (¬xpFmt ∨ s.nch ≠ 31 ∨ d.nch ≠ 31 ∨ jW r 0 % 32 ≠ 0) then 5
  else if jSum r ∧ (jXp r ∨ ¬[0, 1, 6].contains s.fmt ∨ s.nch ≠ 31 ∨ jW r 0 % 32 ≠ 0 ∨ d.kind ≠ 2 ∨ d.typ ≠ 1 ∨ a0 % 64 ≠ 0
      ∨ a0 < dlo ∨ dhi < a0 + images - 1) then 6
  else if regs s slo shi ∨ regs d dlo dhi
      ∨ (d.kind = 3 ∧ d.typ = 1 ∧ (dlo < 0x2800300000 ∨ 0x28003FFFFF < dhi)) then 7
  else if jVchk r ∧ ¬c.rb (R.LST.LRCFG (jVr r)) 31 then 8
  else if jNtf r ∧ (c.tiles ≤ jTile r ∨ c.owner (jTile r) ≠ ken) then 9
  else 0

/-- The engine page is frozen or asked to freeze (R628). -/
def engFrz (c : Chip) (e : Nat) : Bool := c.rb (R.H.PCTL (slotDma e)) 2

/-- The requester whose head job the engine accepts next (R601, R647). -/
def acceptFrom (c : Chip) (e : Nat) : Option (Nat × Queued) :=
  ((List.range' 1 17).map (fun d => ((c.eng e).rotReq + d) % 17)).findSome? fun k =>
    match (c.jport k).queue with
    | q :: _ => match q.ent with
      | .dmaj eng _ _ =>
        let ken := c.portKen k
        if eng = e ∧ ((c.eng e).jobs.filter (fun j => j.ken == ken)).length < c.rf (R.KMAP.LIVE_CSH0 + 4 * ken) 5 0
        then some (k, q) else none
      | _ => none
    | [] => none

/-- A head job is accepted: its descriptors are captured, and it is checked (R598, R601, R620). `parS` and `parD` say that
the cached entry has bad parity (R627). -/
def jobAccept (c : Chip) (e : Nat) (parS parD : Bool) : Chip :=
  if c.engFrz e || !c.surv (20 + e) || 56 ≤ (c.eng e).jobs.length then c
  else match c.acceptFrom e with
    | none => c
    | some (k, q) =>
      let r := match q.ent with | .dmaj _ _ r => r | _ => []
      let ken := c.portKen k
      let m : Mover := ⟨.job e ken k, q.bundle⟩
      let c := (c.modPort k fun p => { p with queue := p.queue.drop 1 }).modEng e fun g => { g with rotReq := k }
      let c := c.showPort k
      let a := c.captureDesc m (.eng e) (le r 0 2) parS
      if a.res ≠ .ok then a.chip
      else
        let b := a.chip.captureDesc m (.eng e) (le r 2 2) parD
        if b.res ≠ .ok then b.chip
        else
          let c := b.chip
          let why := c.jobWhy ken r a.data b.data
          if why ≠ 0 then
            ((c.wf (R.DMA.JERR e) 3 0 why).wf (R.DMA.JERR e) 6 4 ken).kfault (slotDma e) 0x0411 ⟨portPath k, ken⟩ 0 ken
          else
            let j : Job := { ken := ken, who := k, bundle := q.bundle, rec_ := r, src := a.data, dst := b.data,
                             x := { id := (c.eng e).next } }
            (c.modEng e fun g => { g with jobs := g.jobs ++ [j], next := g.next + 1 }).showEng e

/-- A free job slot is given to a kennel by rotation (R602, R603, R648). -/
def slotGrant (c : Chip) (e : Nat) : Chip :=
  let js := (c.eng e).jobs
  if c.engFrz e || 4 ≤ (js.filter (·.running)).length then c
  else
    match ((List.range' 1 8).map (fun d => ((c.eng e).rotSlot + d) % 8)).find? (fun k => js.any (fun j => j.ken == k && !j.running)) with
    | none => c
    | some k =>
      match js.findIdx? (fun j => j.ken == k && !j.running) with
      | none => c
      | some i =>
        (c.modEng e fun g => { g with rotSlot := k, jobs := modNth (fun j => { j with running := true }) g.jobs i }).showEng e

/-! ### Owner lookups -/

/-- What one byte range of a distributed tensor resolves to. -/
inductive Piece2 where
  | at_ (a n : Nat)
  | hole (n : Nat)
  | bad
  deriving DecidableEq, Repr

/-- Note an event 0x0412: writes discarded (R590, R592). -/
def discard (c : Chip) (e n : Nat) : Chip := if n = 0 then c else (c.cnt (R.DMA.WDISC e) 31 0 n).eventOnce (slotDma e) 0x0412 e

/-- The owner entry of a block of a distributed tensor (R591, R595, R598): the job's own copy, the owner cache of the
requester, or table memory. `none` when the read fails. -/
def ownerEntry (c : Chip) (e : Nat) (j : Job) (a : Nat) : Option Nat × Job × Chip :=
  match j.owners.find? (fun o => o.1 == a) with
  | some o => (some o.2, j, c)
  | none =>
    let m : Mover := ⟨.job e j.ken j.who, j.bundle⟩
    match c.fence j.ken .table a 4 false with
    | some code => (none, j, c.kfault (slotDma e) code ⟨portPath j.who, j.ken⟩ a j.ken)
    | none =>
      match (c.jport j.who).owners.find? (fun o => o.1 == a) with
      | some o =>
        (some o.2, { j with owners := j.owners ++ [o] },
          c.modPort j.who fun p => { p with owners := o :: p.owners.filter (fun x => x.1 != a) })
      | none =>
        let r := c.readMem m a 4
        if r.res ≠ .ok then (none, j, r.chip)
        else
          let v := natLE r.data
          let c := if r.chip.rb R.TBL.TSTAT 0 then r.chip
            else r.chip.modPort j.who fun p => { p with owners := ((a, v) :: p.owners).take 256 }
          (some v, { j with owners := j.owners ++ [(a, v)] }, c)

/-- Resolve a byte range of a tensor, block by block, by fuel (R591 to R593). -/
def resolveN : Nat → Chip → Nat → Job → Desc → Nat → Nat → List Piece2 × Job × Chip
  | 0, c, _, j, _, _, _ => ([], j, c)
  | f + 1, c, e, j, d, o, n =>
    if n = 0 then ([], j, c)
    else
      let bs := 0x10000 * 2 ^ d.bsz
      let k := min n (bs - o % bs)
      let (v, j, c) := c.ownerEntry e j (d.base + 4 * (o / bs))
      match v with
      | none => ([.bad], j, c)
      | some v =>
        let dev := v / 2 ^ 27
        let lb := v % 2 ^ 24
        let off := lb * bs + o % bs
        let a := if dev = c.devNum then 0x100000000000 + off else winBase dev + off
        let isHole := 0x1000000000 < off + k || (dev == c.devNum && c.regionOf a k == .hole)
        if v / 2 ^ 24 % 8 ≠ j.ken ∨ (lb ≠ 0xFFFFFF ∧ isHole) then
          ([.bad], j, c.kfault (slotDma e) 0x0413 ⟨portPath j.who, j.ken⟩ (d.base + 4 * (o / bs)) j.ken)
        else
          let (l, j, c) := resolveN f c e j d (o + k) (n - k)
          ((if lb = 0xFFFFFF then .hole k else .at_ a k) :: l, j, c)

/-- Resolve a byte range of a tensor. -/
def resolve (c : Chip) (e : Nat) (j : Job) (d : Desc) (o : Int) (n : Nat) : List Piece2 × Job × Chip :=
  if d.typ = 2 then resolveN (n + 1) c e j d o.toNat n
  else ([.at_ (wrapN 48 o) n], j, c)

/-! ### Bursts -/

/-- Cut a byte range into bursts: 32 bytes in HBM, 64 bytes elsewhere (R602, R635). -/
def bursts (c : Chip) (a n : Nat) : List (Nat × Nat) :=
  let z := if c.regionOf (c.ownWindow a n) n = .hbm then 32 else 64
  if n = 0 then []
  else (List.range ((a + n - 1) / z - a / z + 1)).map (fun i =>
    let s := max a ((a / z + i) * z)
    (s, min (a + n) ((a / z + i + 1) * z) - s))

/-- The bursts that read or write a list of pieces, to or from a buffer offset on. -/
def opsOf (c : Chip) (wr : Bool) (ps : List Piece2) (ofs : Nat) : List DmaOp :=
  (ps.foldl (fun (x : List DmaOp × Nat) p => match p with
    | .at_ a n => (x.1 ++ (c.bursts a n).map (fun b => if wr then .wr b.1 b.2 (x.2 + (b.1 - a)) else .rd b.1 b.2 (x.2 + (b.1 - a))), x.2 + n)
    | .hole n => (x.1, x.2 + n)
    | .bad => x) ([], ofs)).1

/-- Reads or writes of the parts of one group or block, from a buffer offset on: the bursts, whether a part lies in a hole,
and whether all parts could be resolved. -/
def partOps (c : Chip) (e : Nat) (j : Job) (d : Desc) (wr : Bool) (i : List Int) (ofs : Nat) :
    List DmaOp × Bool × Bool × Job × Chip :=
  let (ops, hole, ok, j, c, _) := (d.parts i).foldl
    (fun (x : List DmaOp × Bool × Bool × Job × Chip × Nat) p =>
      let (ops, hole, ok, j, c, at_) := x
      if !ok then x
      else
        let (ps, j, c) := c.resolve e j d p.1 p.2
        let bad := ps.contains .bad
        (if bad then ops else ops ++ c.opsOf wr ps at_, hole || ps.any (fun q => match q with | .hole _ => true | _ => false),
          !bad, j, c, at_ + p.2)) ([], false, true, j, c, ofs)
  (ops, hole, ok, j, c)

/-- Plan the next unit of a job (R589 to R592, R604 to R607): the job with its bursts. A unit whose owner entries cannot be
used is not performed. -/
def planUnit (c : Chip) (e : Nat) (j : Job) : Job × Chip :=
  let s := Desc.of j.src
  let d := Desc.of j.dst
  let r := j.rec_
  let w := jCoord r j.x.unit
  let m := if jRuns r then 32 else 1
  let g := s.unit
  let lane (j : List Nat) (p : Nat) : List Nat := modNth (· + p) j 0
  let (rds, ok, j, c) := (List.range m).foldl (fun (x : List DmaOp × Bool × Job × Chip) p =>
    let (ops, ok, j, c) := x
    let (o, _, ok', j, c) := c.partOps e j s false (s.clamp (addC (jS r) (lane w p))) (g * p)
    (ops ++ o, ok && ok', j, c)) ([], true, j, c)
  let (wrs, disc, ok, j, c) :=
    if jSum r then
      let a0 := (nth (0, 0) (d.parts (addC (jD r) [0, 0, 0, 0, 0])) 0).1
      let (ps, j, c) := c.resolve e j d (a0 + j.x.unit * imageBytes s.fmt) (imageBytes s.fmt)
      (c.opsOf true ps 0, 0, ok, j, c)
    else
      (List.range m).foldl (fun (x : List DmaOp × Nat × Bool × Job × Chip) p =>
        let (ops, disc, ok, j, c) := x
        let to_ := addC (jD r) (lane w p)
        if !d.inside to_ then (ops, disc + 1, ok, j, c)
        else
          let (o, hole, ok', j, c) := c.partOps e j d true to_ (g * p)
          (ops ++ o, if hole then disc + 1 else disc, ok && ok', j, c)) ([], 0, ok, j, c)
  let turn := if jSum r then [.turn s.fmt true] else if jXp r then [.turn s.fmt false] else []
  let c := c.discard e disc
  let bytes := g * m
  let c := c.wf (R.DMA.RBHW e) 17 0 (max (c.rf (R.DMA.RBHW e) 17 0)
    (bytes + (c.eng e).jobs.foldl (fun n j => n + j.x.resv) 0 + (c.eng e).moves.foldl (fun n v => n + v.x.resv) 0))
  ({ j with x := { j.x with unit := j.x.unit + 1, ops := if ok then rds ++ turn ++ wrs else [], busy := false, buf := [],
                            resv := bytes } }, c)

/-- What a burst that is tried comes to. -/
inductive Tried where
  | done | placed | wait
  deriving DecidableEq, Repr

/-- The waiting for a credit ends: its cycles are counted (R662). -/
def waitEnd (c : Chip) (e : Nat) (x : Xfer) : Xfer × Chip :=
  match x.wait with
  | none => (x, c)
  | some (t, _) => ({ x with wait := none }, c.cnt (R.DMA.CWAIT e) 31 0 ((c.now - t) / 5))

/-- A transfer waits for a credit (R652): since now, for as long as FCFG.CWTO allows. A wait on full parts of an HBM pool is
counted (R662). -/
def waitFor (c : Chip) (e : Nat) (x : Xfer) (stack : Option Nat) : Xfer × Chip :=
  match x.wait with
  | some _ => (x, c)
  | none =>
    let c := match stack with | some s => c.cnt (R.HBM.WQSHR s) 31 0 1 | none => c
    ({ x with wait := some (c.now, c.now + us (c.rf (R.DMA.FCFG e) 15 0)) }, c)

/-- Try the next burst of a transfer (R215, R608, R635, R649, R668). -/
def tryOp (c : Chip) (e ken : Nat) (m : Mover) (x : Xfer) : Tried × Xfer × Chip :=
  if x.busy then (.placed, x, c)
  else match x.ops with
  | [] => (.done, x, c)
  | .turn f sum :: rest =>
    let bs := x.buf.bytes 0 (32 * runBytes f 32)
    (.done, { x with ops := rest, buf := Memory.putBytes [] 0 (if sum then sumImage f bs else transposeRun f bs) },
      if sum then c.meter (slotDma e) 2 ken 1 else c.meter (slotDma e) 1 ken bs.length)
  | op :: _ =>
    let (a, n, w) : Nat × Nat × Option (List (BitVec 8)) := match op with
      | .rd a n _ => (a, n, none)
      | .wr a n ofs => (a, n, some (x.buf.bytes ofs n))
      | .turn .. => (0, 0, none)
    let la := c.ownWindow a n
    let paid := match m.ag with | .lmov _ _ k => if c.deferred k then 8 else k | _ => ken
    let c := if x.wait.isSome then c else c.meter (slotDma e) 0 paid 1
    match c.regionOf la n with
    | .remote d =>
      let msg := remoteMsg a n ken w true
      let v := if w.isSome then 2 else 0
      if !(c.numbered && (c.routeTo d).isSome) then
        let (x, c) := c.waitEnd e x
        (.done, x.fin (zeros n), c.report (slotVxl 0) 0x0604 .refusal ⟨c.agPath m.ag, ken⟩ a)
      else if !c.vcredit ((c.routeTo d).getD 0) v ken then
        let (x, c) := c.waitFor e x none
        (.wait, x, c)
      else
        let (x, c) := c.waitEnd e x
        (.placed, { x with busy := true }, (c.vxlSend msg (.job e x.id)).2)
    | .hbm =>
      let s := c.stackOf la
      if (c.fence ken .hbm la n w.isSome).isSome || (c.unavailable .hbm la n).isSome then
        let r := c.access m a n w
        (.done, x.fin r.data, r.chip)
      else
        let p := c.pchanOf la
        if !c.poolFree s p w.isSome e then
          let (x, c) := c.waitFor e x (some s)
          (.wait, x, c)
        else
          let (x, c) := c.waitEnd e x
          match w with
          | some bs => let r := c.writeMem m a bs; (.done, x.fin [], r.chip.pushWrite s p e)
          | none =>
            let ofs := match op with | .rd _ _ o => o | _ => 0
            (.placed, { x with busy := true }, c.pushRead s ⟨p, a, n, e, x.id, ofs⟩)
    | .sp t => (.placed, { x with busy := true, port := some t }, c)
    | _ =>
      let r := c.access m a n w
      (.done, x.fin r.data, r.chip)

/-! ### Line moves -/

/-- Fields of a line-move program (R624). -/
def lmF (c : Chip) (e p hi lo : Nat) : Nat := c.rf (R.DMA.LMCFG e p) hi lo
def lmKen (c : Chip) (e p : Nat) : Nat := c.lmF e p 6 4
def lmElem (c : Chip) (e p : Nat) : Nat := max 1 (c.lmF e p 16 15)
def lmLen (c : Chip) (e p : Nat) : Nat := c.rf (R.DMA.LMDST e p) 29 12 * c.lmElem e p

/-- A landed or lost line is given to every enabled program of its view ring (R609, R612). -/
def lineMoveIssue (c : Chip) (v lseq slot frame row : Nat) : Chip :=
  forN 8 (fun e c => forN 4 (fun p c =>
    if !(c.lmF e p 0 0 == 1 && c.lmF e p 3 1 == v) || !c.surv (20 + e) then c
    else if 8 ≤ ((c.eng e).moves.filter (fun m => m.prog == p)).length then
      (c.cnt (R.DMA.LMCNT e p) 31 16 1).report (slotDma e) 0x0414 .event ⟨0, c.lmKen e p⟩ 0
    else c.modEng e fun g => { g with moves := g.moves ++ [⟨p, v, lseq, slot, frame, row, { id := g.next }⟩], next := g.next + 1 }) c) c

/-- Plan the next 64 destination bytes of a line move: the line is read at once, the piece then waits for the tile's port
(R610, R611). -/
def planMove (c : Chip) (e : Nat) (m : LineMove) : LineMove × Chip :=
  let ken := c.lmKen e m.prog
  let len := c.lmLen e m.prog
  let z := c.lmF e m.prog 16 15
  let t := c.lmF e m.prog 10 7
  let x := c.lmF e m.prog 14 11
  let o := m.x.unit * 64
  let n := min 64 (len - o)
  let base := c.viewSlot m.view m.slot + 64
  let sofs := sInt 19 (c.rf (R.DMA.LMOFS e m.prog) 18 0)
  let width : Int := c.rf (R.DMA.LMSRC e m.prog) 17 0
  let src (b : Nat) : Int := if z = 0 then sofs + (o + b : Nat) else
    clampI 0 (width - 1) (sofs + ((o + b) / z : Nat)) * z + ((o + b) % z : Nat)
  let lo := src 0
  let hi := src (n - 1)
  let hi := max hi lo
  let mv : Mover := ⟨.lmov e m.prog ken, 0xFFFFFFFFFFFF⟩
  let a : Nat := wrapN 48 (base + lo)
  let r := c.readMem mv a (hi - lo + 1).toNat
  let data := (List.range n).map (fun b => nth 0 r.data (src b - lo).toNat)
  let c := r.chip
  let g := c.ring t x
  let dst := spBase t + g.base + m.frame % max 1 g.nslot * g.slotLen + m.row * c.rf (R.DMA.LMDST e m.prog) 11 0 * 64 + o
  ({ m with x := { m.x with unit := m.x.unit + 1, ops := (c.bursts dst n).map (fun b => .wr b.1 b.2 (b.1 - dst)), busy := false,
                            buf := Memory.putBytes [] 0 data, resv := n } }, c)

/-- A line move has more to do. -/
def moveMore (c : Chip) (e : Nat) (m : LineMove) : Bool := m.x.ops ≠ [] || m.x.unit * 64 < c.lmLen e m.prog

/-- A job has more to do. -/
def jobMore (j : Job) : Bool := (j.x.ops ≠ [] || j.x.unit < jUnits j.rec_) && !j.x.abort

/-- Jobs of a kennel issue bursts while the kennel is active and not deferred (R155, R855). -/
def kenRuns (c : Chip) (k : Nat) : Bool := c.kstate k == 0 && !c.deferred k

/-! ### A turn of an engine -/

def putJob (c : Chip) (e i : Nat) (j : Job) : Chip := c.modEng e fun g => { g with jobs := modNth (fun _ => j) g.jobs i }
def putMove (c : Chip) (e i : Nat) (m : LineMove) : Chip := c.modEng e fun g => { g with moves := modNth (fun _ => m) g.moves i }

/-- At muzzle level m an engine issues bursts for POOL kennels only in every 2^m-th turn (R860). -/
def muzzled (c : Chip) (e ken : Nat) : Bool :=
  !bit (nth 0 c.elg.kcfg ken) 0 && decide ((c.eng e).turns % 2 ^ c.elg.mlvl ≠ 0)

/-- The turn of one job: a unit is planned when none is under way, and its next burst is tried. -/
def turnJob (c : Chip) (e i : Nat) : Chip :=
  match (c.eng e).jobs[i]? with
  | none => c
  | some j =>
    if !j.running || !c.kenRuns j.ken || !jobMore j || c.muzzled e j.ken then c
    else
      let (j, c) := if j.x.ops.isEmpty then c.planUnit e j else (j, c)
      let (_, x, c) := c.tryOp e j.ken ⟨.job e j.ken j.who, j.bundle⟩ j.x
      c.putJob e i { j with x := x }

/-- The turn of the line-move slot: the oldest move (R609, R635). -/
def turnMove (c : Chip) (e : Nat) : Chip :=
  match (c.eng e).moves with
  | [] => c
  | m :: _ =>
    if !c.moveMore e m then c
    else
      let (m, c) := if m.x.ops.isEmpty then c.planMove e m else (m, c)
      let (_, x, c) := c.tryOp e (c.lmKen e m.prog) ⟨.lmov e m.prog (c.lmKen e m.prog), 0xFFFFFFFFFFFF⟩ m.x
      c.putMove e 0 { m with x := x }

/-- One turn of an engine (R649). -/
def burstTurn (c : Chip) (e : Nat) : Chip :=
  if c.engFrz e || !c.surv (20 + e) then c
  else
    let c := c.modEng e fun g => { g with turns := g.turns + 1 }
    let c := c.turnMove e
    forN (c.eng e).jobs.length (fun i c => c.turnJob e i) c

/-! ### Returns -/

/-- A transfer of an engine by its number: a job or a line move, with its kennel and requester. -/
def xferOf (c : Chip) (e id : Nat) : Option (Xfer × Mover × Nat) :=
  match (c.eng e).jobs.find? (fun j => j.x.id == id) with
  | some j => some (j.x, ⟨.job e j.ken j.who, j.bundle⟩, j.ken)
  | none => match (c.eng e).moves.find? (fun m => m.x.id == id) with
    | some m => let k := c.lmKen e m.prog; some (m.x, ⟨.lmov e m.prog k, 0xFFFFFFFFFFFF⟩, k)
    | none => none

/-- Change a transfer of an engine by its number. -/
def modXfer (c : Chip) (e id : Nat) (f : Xfer → Xfer) : Chip :=
  c.modEng e fun g => { g with jobs := g.jobs.map (fun j => if j.x.id = id then { j with x := f j.x } else j),
                               moves := g.moves.map (fun m => if m.x.id = id then { m with x := f m.x } else m) }

/-- A read returns from HBM (R260, R636): its data goes to its transfer, and its entry is free. A transfer that was
discarded meanwhile takes nothing. -/
def readReturn (c : Chip) (s i : Nat) : Chip :=
  match (c.hbmSt s).rq[i]? with
  | none => c
  | some q =>
    let c := c.modHbm s fun h => { h with rq := h.rq.eraseIdx i }
    match c.xferOf q.eng q.id with
    | none => c
    | some (_, m, _) =>
      let r := c.readMem m q.addr q.len
      r.chip.modXfer q.eng q.id fun x => x.fin r.data

/-- The engine whose access a tile's DMA port serves next, in ascending rotation (R640). -/
def portNext (c : Chip) (t : Nat) : Option (Nat × Nat) :=
  ((List.range' 1 8).map (fun d => (nth 7 c.dport t + d) % 8)).findSome? fun e =>
    let xs := (c.eng e).moves.map (·.x) ++ (c.eng e).jobs.map (·.x)
    (xs.find? (fun x => x.busy && x.port == some t)).map (fun x => (e, x.id))

/-- A waiting access is performed at its bank; on a tagged ring it may go on waiting (R215, R640). -/
def portServe (c : Chip) (t : Nat) : Chip :=
  match c.portNext t with
  | none => c
  | some (e, id) =>
    let c := { c with dport := c.dport.set t e }
    match c.xferOf e id with
    | none => c
    | some (x, m, _) =>
      match x.ops with
      | op :: _ =>
        let (a, n, w) : Nat × Nat × Option (List (BitVec 8)) := match op with
          | .rd a n _ => (a, n, none)
          | .wr a n ofs => (a, n, some (x.buf.bytes ofs n))
          | .turn .. => (0, 0, none)
        let r := c.access m a n w
        match r.res with
        | .stall .. => r.chip
        | _ => r.chip.modXfer e id fun x => x.fin r.data
      | [] => c

/-! ### Completion -/

/-- Jobs leave the engine and their entries return. -/
def dropJob (c : Chip) (e id : Nat) : Chip :=
  (c.modEng e fun g => { g with jobs := g.jobs.filter (fun j => j.x.id != id) }).showEng e

/-- The first job that is complete and before which no job of its kennel stands (R603). -/
def jobReady (c : Chip) (e : Nat) : Option Job :=
  let js := (c.eng e).jobs
  (List.range js.length).findSome? fun i =>
    match js[i]? with
    | some j => if j.running && !jobMore j && !j.x.busy && !(js.take i).any (fun k => k.ken == j.ken) && c.kenRuns j.ken then some j else none
    | none => none

/-- A job completes: the view check, JDONE, and PUT or FREE with NTF; one whose remote message was ended has only aborted
(R277, R603, R794). A PUT or FREE that meets a tagged ring waits. -/
def jobDone (c : Chip) (e : Nat) : Chip :=
  if c.engFrz e then c
  else match c.jobReady e with
  | none => c
  | some j =>
    let r := j.rec_
    if j.x.abort then c.dropJob e j.x.id
    else
      let (res, c') := if jNtf r then c.ringCmd (jTile r) (jCtx r) (jRcf r) 3 (.job e j.ken j.who) j.bundle else (.ok, c)
      match res with
      | .stall .. => c'
      | _ =>
        let c := if jVchk r then c'.viewCheck (jVr r) (jLseq r) j.ken else c'
        (c.inc (R.DMA.JDONE e j.ken) 31 0 1).dropJob e j.x.id

/-- The oldest line move completes (R277, R610). -/
def moveDone (c : Chip) (e : Nat) : Chip :=
  match (c.eng e).moves with
  | [] => c
  | m :: rest =>
    if c.moveMore e m || m.x.busy then c
    else
      let c := c.modEng e fun g => { g with moves := rest }
      if m.x.abort then c
      else (c.viewCheck m.view m.lseq (c.lmKen e m.prog)).cnt (R.DMA.LMCNT e m.prog) 15 0 1

/-! ### Credits -/

/-- Transfers of all engines that wait for a credit: when each began, its engine and number. -/
def waiters (c : Chip) : List (Nat × Nat × Nat) :=
  (List.range 8).flatMap fun e =>
    ((c.eng e).moves.map (·.x) ++ (c.eng e).jobs.map (·.x)).filterMap (fun x => x.wait.map (fun w => (w.1, e, x.id)))

/-- The stack that a waiting transfer's burst lies on, its pseudo-channel and whether it writes; none for a Vaxlin
credit. -/
def waitsOn (c : Chip) (e id : Nat) : Option (Nat × Nat × Bool) :=
  match (c.xferOf e id).map (·.1.ops) with
  | some (op :: _) =>
    let (a, n, wr) : Nat × Nat × Bool := match op with | .rd a n _ => (a, n, false) | .wr a n _ => (a, n, true) | .turn .. => (0, 0, false)
    let la := c.ownWindow a n
    if c.regionOf la n = .hbm then some (c.stackOf la, c.pchanOf la, wr) else none
  | _ => none

/-- A waiting transfer can take its credit: from its own part, or from the shared part. -/
def canTake (c : Chip) (w : Nat × Nat × Nat) : Bool :=
  match c.waitsOn w.2.1 w.2.2 with
  | some (s, p, wr) => c.poolFree s p wr w.2.1
  | none => true

/-- Order among claimants (R638): a group with an entry of its own part first; for the shared part in rotation after the
group last served; within a group by the time the wait began. -/
def claimKey (c : Chip) (w : Nat × Nat × Nat) : Nat × Nat × Nat :=
  match c.waitsOn w.2.1 w.2.2 with
  | some (s, p, wr) =>
    if c.ownFree s p wr w.2.1 then (0, w.1, w.2.1)
    else (1, (w.2.1 + 12 - (if wr then (c.hbmSt s).rotW else (c.hbmSt s).rotR) - 1) % 12, w.1)
  | none => (0, w.1, w.2.1)

/-- Lexicographic order of claim keys. -/
def keyLt (a b : Nat × Nat × Nat) : Bool :=
  a.1 < b.1 || (a.1 == b.1 && (a.2.1 < b.2.1 || (a.2.1 == b.2.1 && a.2.2 < b.2.2)))

/-- A waiting requester takes a freed credit (R636, R638); a frozen engine takes none (R667). -/
def creditTake (c : Chip) : Chip :=
  let ws := c.waiters.filter (fun w => c.canTake w && !c.engFrz w.2.1)
  match ws.foldl (fun (b : Option (Nat × Nat × Nat)) w => match b with
    | none => some w
    | some v => if keyLt (c.claimKey w) (c.claimKey v) then some w else some v) none with
  | none => c
  | some (_, e, id) =>
    match c.xferOf e id with
    | none => c
    | some (x, m, ken) =>
      if c.kstate ken ≠ 0 then c
      else
        let (_, x, c) := c.tryOp e ken m x
        c.modXfer e id fun _ => x

/-- A transfer has waited longer than CWTO: it is cut, and its kennel faults (R652). -/
def creditTimeout (c : Chip) (e : Nat) : Chip :=
  let xs := (c.eng e).moves.map (·.x) ++ (c.eng e).jobs.map (·.x)
  match xs.filterMap (fun x => x.wait.map (fun w => (w.2, x.id))) with
  | [] => c
  | w :: rest =>
    let (t, id) := rest.foldl (fun a b => if b.1 < a.1 then b else a) w
    match c.xferOf e id with
    | none => c
    | some (x, m, ken) =>
      let c := c.waitTo t
      let (_, c) := c.waitEnd e x
      let c := c.cnt (R.DMA.CWTOC e) 15 0 1
      let c := (c.dropJob e id).modEng e fun g => { g with moves := g.moves.filter (fun v => v.x.id != id) }
      c.kfault (slotDma e) 0x0415 (c.agReq m.ag) 0 ken

/-! ### Table syllables -/

/-- A valid allocation record of a kennel holds one allocation of a kind and access that contains a span (R159, R162). -/
def allocCovers (c : Chip) (ken kind acc : Nat) (lo hi : Int) : Bool :=
  let b := 0x2800000000 + ken * 0x1000
  let ent (i : Nat) : List (BitVec 8) := c.getBytes .table (b + 16 * i) 16
  let h := ent 0
  let n := le h 0 2
  bit (nth 0 h 3) 0 && fld (nth 0 h 3) 7 1 == 0 && le h 8 8 == 0 && (nth 0 h 2).toNat == ken && n ≤ 255 &&
  (List.range' 1 n).any (fun i =>
    let e := ent i
    let base := le e 0 6
    let size := le e 8 4 * 256
    let a := (nth 0 e 13).toNat
    le e 6 2 == 0 && le e 14 2 == 0 && a < 4 && (nth 0 e 12).toNat == kind && kind ≤ 4 && base % 256 == 0 && size != 0
      && a &&& acc == acc && decide ((base : Int) ≤ lo) && decide (hi < ((base + size : Nat) : Int)))

/-- The code with which TDNEW rejects an image: 0 when it accepts it (R617, R618). -/
def tdCode (c : Chip) (ken idx : Nat) (img : List (BitVec 8)) : Nat :=
  let d := Desc.of img
  let tensor := d.typ == 1 || d.typ == 2
  let (lo, hi) := d.footprint
  let bs := 0x10000 * 2 ^ d.bsz
  let ot : Int := d.base + 4 * d.otlen
  if 3 < d.typ ∨ (tensor ∧ descZeroBad img) then 0x0401
  else if tensor ∧ 13 < d.fmt then 0x0402
  else if ken ≠ 0 ∧ d.ken ≠ ken then 0x0403
  else if 0xFFFF < idx ∨ idx < 512 ∨ 49151 < idx ∨ ¬c.fenceTable ken (entryAddr idx) 64 true ∧ ken ≠ 0 then 0x0404
  else if d.typ = 0 then 0
  else if d.typ = 3 then
    let t := fld (nth 0 img 2) 3 0
    if c.tiles ≤ t ∨ c.owner t ≠ d.ken then 0x040A else 0
  else if d.typ = 1 ∧ ¬c.allocCovers d.ken d.kind (b2n d.rd + 2 * b2n d.wr) lo hi then 0x0405
  else if ¬sw24Scale d.scale then 0x0406
  else if ¬zpOk d.fmt d.zp then 0x0407
  else if d.ndim = 0 ∨ 5 < d.ndim ∨ (d.ext.take d.ndim).any (· == 0)
      ∨ (if d.block then nth 0 d.str 0 ≠ 0 ∨ d.gsz < (if d.fmt = 12 then 33 else 17) else d.gsz ≠ 0)
      ∨ lo < 0 ∨ 2 ^ 48 ≤ hi then 0x0408
  else if d.typ = 2 ∧ (d.kind ≠ 0 ∨ d.base < 0x2800300000 ∨ 0x2800400000 < ot ∨ d.base % 4 ≠ 0 ∨ d.otlen = 0 ∨ 8 < d.bsz
      ∨ ((d.otlen * bs : Nat) : Int) ≤ hi ∨ ¬c.allocCovers d.ken 3 1 d.base (ot - 1)) then 0x0409
  else 0

/-- TDRES of a requester (R623). -/
def tdres (k : Nat) : Nat := if k = 16 then R.CC.TDRES else R.TILE.TDRES k
def setTdres (c : Chip) (k st code : Nat) : Chip := (c.wf (tdres k) 1 0 st).wf (tdres k) 31 16 code

/-- The head of a requester's queue leaves it. -/
def portPop (c : Chip) (k : Nat) : Chip := (c.modPort k fun p => { p with queue := p.queue.drop 1 }).showPort k

/-- TDNEW at the head of a queue is checked and written whole (R617, R618). -/
def tdnewDone (c : Chip) (k : Nat) : Chip :=
  match (c.jport k).queue with
  | q :: _ => match q.ent with
    | .tdnew idx _ img =>
      let ken := c.portKen k
      let code := c.tdCode ken idx img
      let c := c.portPop k
      if code = 0 then
        let a := entryAddr idx
        let c := c.eccWrite .table a img
        (c.inc R.TBL.TDNC 31 0 1).setTdres k 2 0
      else
        let c := ((c.cnt R.TBL.TDRJ 15 0 1).wf R.TBL.TDLAST 15 0 code).wf R.TBL.TDLAST 18 16 ken
        let c := (c.wf R.TBL.TDLIDX 15 0 idx).setTdres k 3 code
        c.report 0x00D code .event ⟨portPath k, ken⟩ (entryAddr (idx % 0x10000))
    | _ => c
  | [] => c

/-- Remove a descriptor entry, or all, from every descriptor cache (R597). -/
def dropDescs (c : Chip) (sel : Nat → Bool) : Chip :=
  { c with ports := c.ports.map (fun p => { p with cache := p.cache.filter (fun x => !sel x.1) })
           engines := c.engines.map (fun g => { g with cache := g.cache.filter (fun x => !sel x.1) }) }
/-- Remove owner entries from every owner cache (R597). -/
def dropOwners (c : Chip) (sel : Nat → Bool) : Chip :=
  { c with ports := c.ports.map (fun p => { p with owners := p.owners.filter (fun x => !sel x.1) }) }

/-- TDINV or OTINV at the head of a queue completes (R597, R616). -/
def invalDone (c : Chip) (k : Nat) : Chip :=
  match (c.jport k).queue with
  | q :: _ =>
    let ken := c.portKen k
    let bad (c : Chip) (a : Nat) : Chip := c.kfault (corePage k) 0x0505 ⟨portPath k, ken⟩ a ken
    match q.ent with
    | .tdinv idx all =>
      let c := c.portPop k
      if !all && ken != 0 && !c.fenceTable ken (entryAddr idx) 64 true then bad c (entryAddr idx)
      else (c.dropDescs (fun i => all || i == idx)).cnt R.TBL.TINV 15 0 1
    | .otinv a n all =>
      let c := c.portPop k
      if !all && ken != 0 && !c.fenceTable ken a (4 * n) true then bad c a
      else (c.dropOwners (fun x => all || (a ≤ x && x < a + 4 * n))).cnt R.TBL.TINV 31 16 1
    | _ => c
  | [] => c

/-- Every descriptor and owner cache is swept empty (R596). -/
def sweepCaches (c : Chip) : Chip := (c.dropDescs (fun _ => true)).dropOwners (fun _ => true)

/-! ### Line-move registers -/

/-- A line-move program cannot be enabled as it stands (R625). -/
def lmBad (c : Chip) (e p : Nat) (val : BitVec 32) : Bool :=
  let z := fld val 16 15
  let width := c.rf (R.DMA.LMSRC e p) 17 0
  let pitch := c.rf (R.DMA.LMDST e p) 11 0
  let len := c.rf (R.DMA.LMDST e p) 29 12
  z == 3 || width == 0 || pitch == 0 || len == 0 || decide (pitch * 64 < len * max z 1) || !c.rb (R.LST.LRCFG (fld val 3 1)) 31

/-- A write of a line-move register (R625): LMCFG with EN, or a register of a program that is not enabled. -/
def lmWrite (c : Chip) (who : Who) (e p : Nat) (key : Nat) (val : BitVec 32) : Chip :=
  let cfg := R.DMA.LMCFG e p
  let on := c.rb cfg 0
  if key = cfg then
    if bit val 0 then
      let same := fld val 16 1 == c.rf cfg 16 1
      c.putIf who key val (if on then same else !c.lmBad e p val) (fun c => c.badValue who key)
    else if on then c.putReg who key (setBit (c.r cfg) 0 false ||| (val &&& 0xFFFE0000))
    else c.putReg who key val
  else if on then c.noteRsv key val
  else c.putReg who key val

/-- A write of FCFG (R663). -/
def fcfgWrite (c : Chip) (who : Who) (e : Nat) (val : BitVec 32) : Chip :=
  c.putIf who (R.DMA.FCFG e) val (decide (1 ≤ fld val 15 0) && decide (fld val 15 0 ≤ 50000)) (fun c => c.badValue who (R.DMA.FCFG e))

/-- Discard the jobs of a kennel; their credits return (R155, R629). -/
def discardJobs (c : Chip) (sel : Job → Bool) : Chip :=
  forN 8 (fun e c => (c.modEng e fun g => { g with jobs := g.jobs.filter (fun j => !sel j) }).showEng e) c

/-- Every queued job, table syllable and line move is discarded, every cache is empty and every program off (R631). -/
def dmaReset (c : Chip) : Chip :=
  let c := { c with engines := List.replicate 8 {}, ports := List.replicate 17 {}, hbm := c.hbm.map (fun h => { h with wbuf := [], rq := [] }) }
  forN 8 (fun e c => c.showEng e) c

end Chip

/-! ### Commands -/

/-- DMAJ (R613). -/
def execDmaj (h : Syl) (eng : BitVec 3) (an : BitVec 4) (s : State) : Host.Outcome State Fault Refusal :=
  s.up fun c => c.syl h [.n] true fun x => nBody (.dmaj eng.toNat (x.A an.toNat).toNat []) []

/-- TDNEW (R613). -/
def execTdnew (h : Syl) (an : BitVec 4) (di : BitVec 5) (s : State) : Host.Outcome State Fault Refusal :=
  s.up fun c => c.syl h [.n] true fun x => nBody (.tdnew (x.D di.toNat).toNat (x.A an.toNat).toNat []) [di]

/-- TDINV (R613): with ALL the index field is 0. -/
def execTdinv (h : Syl) (di : BitVec 5) (all : Bool) (s : State) : Host.Outcome State Fault Refusal :=
  s.up fun c => c.syl h [.n] true fun x => { nBody (.tdinv (x.D di.toNat).toNat all) [di] with ok := !all || di == 0 }

/-- OTINV (R613): with ALL the register fields are 0. -/
def execOtinv (h : Syl) (an : BitVec 4) (dn : BitVec 5) (all : Bool) (s : State) : Host.Outcome State Fault Refusal :=
  s.up fun c => c.syl h [.n] true fun x =>
    { nBody (.otinv (x.A an.toNat).toNat ((x.D dn.toNat).toNat % 0x10000) all) [dn] with ok := !all || (an == 0 && dn == 0) }

/-- TDNEW_COMPLETE (R617). -/
def execTdnewComplete (k : CoreId) (s : State) : Host.Outcome State Fault Refusal := s.up fun c => (c.tdnewDone k.val).settle

/-- INVALIDATE_COMPLETE (R597). -/
def execInvalidateComplete (k : CoreId) (s : State) : Host.Outcome State Fault Refusal := s.up fun c => (c.invalDone k.val).settle

/-- DMA_JOB_ACCEPT (R601). -/
def execDmaJobAccept (e : Fin 8) (parS parD : Bool) (s : State) : Host.Outcome State Fault Refusal :=
  s.up fun c => (c.jobAccept e.val parS parD).settle

/-- DMA_JOB_SLOT_GRANT (R648). -/
def execDmaJobSlotGrant (e : Fin 8) (s : State) : Host.Outcome State Fault Refusal := s.up fun c => c.slotGrant e.val

/-- DMA_BURST_ISSUE (R649). -/
def execDmaBurstIssue (e : Fin 8) (s : State) : Host.Outcome State Fault Refusal := s.up fun c => c.burstTurn e.val

/-- DMA_JOB_COMPLETE (R603). -/
def execDmaJobComplete (e : Fin 8) (s : State) : Host.Outcome State Fault Refusal := s.up fun c => (c.jobDone e.val).settle

/-- LINE_MOVE_COMPLETE (R610). -/
def execLineMoveComplete (e : Fin 8) (s : State) : Host.Outcome State Fault Refusal := s.up fun c => c.moveDone e.val

/-- HBM_READ_RETURN (R260): errors that have struck the bursts read, then the return. -/
def execHbmReadReturn (st : Fin 4) (i : Nat) (errs : List (BitVec 48 × Bool)) (s : State) : Host.Outcome State Fault Refusal :=
  s.up fun c => (c.strike errs).readReturn st.val i

/-- CREDIT_TAKE (R636). -/
def execCreditTake (s : State) : Host.Outcome State Fault Refusal := s.up fun c => c.creditTake

/-- CREDIT_WAIT_TIMEOUT (R652). -/
def execCreditWaitTimeout (e : Fin 8) (s : State) : Host.Outcome State Fault Refusal := s.up fun c => c.creditTimeout e.val

end Sys2Proof.Machine
end

