-- ==== Sys2Proof/Machine/Drain.lean ====
section
/-!
DEFINITION. The drain unit: its stages, the begin, the rows, the pieces and the end of a job, profiles and the drain parameter
memory, and the count latch with the scale proposal.
-/
namespace Sys2Proof.Machine

/-! ### Stages -/

/-- Word `i` of a captured profile, and the fields of a profile (R575). -/
def DrnJob.word (j : DrnJob) (i : Nat) : BitVec 32 := nth 0 j.words i
def pKind (w : List (BitVec 32)) : Nat := fld (nth 0 w 0) 1 0
def pFmt (w : List (BitVec 32)) : Nat := fld (nth 0 w 0) 5 2
def pAct (w : List (BitVec 32)) : Nat := fld (nth 0 w 0) 8 6
def pBias (w : List (BitVec 32)) : Bool := bit (nth 0 w 0) 9
def pCtx (w : List (BitVec 32)) : Nat := fld (nth 0 w 0) 13 10
def pNch (w : List (BitVec 32)) : Nat := fld (nth 0 w 0) 19 14
def pDscl (w : List (BitVec 32)) : Nat := fld (nth 0 w 1) 23 0
def pOscl (w : List (BitVec 32)) : Nat := fld (nth 0 w 2) 23 0
def pExt (w : List (BitVec 32)) (d : Nat) : Nat := fld (nth 0 w (3 + d / 2)) (13 * (d % 2) + 12) (13 * (d % 2))
def pStr (w : List (BitVec 32)) (d : Nat) : Int := sInt 24 (fld (nth 0 w (5 + d)) 23 0)
def pZp (w : List (BitVec 32)) : Int := sInt 16 (fld (nth 0 w 10) 15 0)
def pGsz (w : List (BitVec 32)) : Nat := fld (nth 0 w 10) 31 16

/-- A quotient of dyadics rounded once into a float format; the divisor is positive. -/
def FFmt.quot (f : FFmt) (neg : Bool) (m : Nat) (e : Int) (b : Dy) : Nat × Bool :=
  if m = 0 then f.round neg 0 0
  else
    let d := b.n.natAbs
    let k := 64 + d.log2
    let q := m * 2 ^ k / d
    f.round neg (2 * q + (if m * 2 ^ k % d = 0 then 0 else 1)) (e - b.e - (k : Int) - 1)

/-- De-quantise one accumulator of a row, as FP32 bits (R553). -/
def drnX (w : List (BitVec 32)) (row : List (BitVec 8)) (n : Nat) : Nat :=
  let s := sw24 (pDscl w)
  let scale : Fv := .fin false s.n.natAbs s.e
  let v : Fv := match pKind w with
    | 0 => let i := sInt 32 (natLE ((row.drop (4 * n)).take 4)); .fin (decide (i < 0)) i.natAbs 0
    | 1 => fp32.decode (bfValue (natLE ((row.drop (8 * n)).take 8)))
    | _ => fp32.decode (natLE ((row.drop (4 * n)).take 4))
  (fp32.encode (v.mul scale)).1

/-- The activation of x through a table: the value, and the table words it reads (R555). -/
def drnTable (tab : Nat → Nat) (xlo : Nat) (sx : Int) (edge : Bool) (x : Nat) : Nat × List Nat :=
  let T (i : Nat) : Fv := fp32.decode (tab i)
  let u : Fv := match (fp32.decode x).add (fp32.decode xlo).neg with
    | .fin s m e => .fin s m (e - sx)
    | v => v
  let out (v : Fv) : Nat := (fp32.encode v).1
  let endAt (i j : Nat) (ovr : Fv) : Nat × List Nat :=
    if edge then
      let slope := (T i).add (T j).neg
      let slope := if i = 0 then slope.neg else slope
      match ovr with
      | .inf _ => match slope with
        | .nan => (fp32.nan, [i, j])
        | .inf s => (out (.inf (if i = 0 then !s else s)), [i, j])
        | .fin s m _ => if m = 0 then (out (T i), [i, j]) else (out (.inf (if i = 0 then !s else s)), [i, j])
      | v => (out ((T i).add (v.mul slope)), [i, j])
    else (out (T i), [i])
  match u with
  | .nan => (fp32.nan, [])
  | .inf true => endAt 0 1 u
  | .inf false => endAt 255 254 u
  | .fin s m e =>
    let d := (Fv.fin s m e).dy
    if d.n < 0 then endAt 0 1 u
    else if !(d.lt (Dy.ofInt 255)) then endAt 255 254 (Fv.ofDy (d.sub (Dy.ofInt 255)) false)
    else
      let i : Nat := if 0 ≤ d.e then d.n.natAbs * 2 ^ d.e.toNat else d.n.natAbs / 2 ^ (-d.e).toNat
      let f := Fv.ofDy (d.sub (Dy.ofInt i)) false
      (out ((T i).add (f.mul ((T (i + 1)).add (T i).neg))), [i, i + 1])

/-- The stored element of y in a plain format: its bits, whether it saturated, and whether its real value is 0 (R556,
R557). -/
def drnElem (f : Nat) (oscl : Nat) (z : Int) (y : Nat) : Nat × Bool × Bool :=
  let s := sw24 oscl
  match fmtFloat f with
  | some g =>
    let r := match fp32.decode y with
      | .fin n m e => g.quot n m e s
      | v => g.encode v
    (r.1, r.2, r.1 % g.signBit == 0)
  | none =>
    match fmtRange f with
    | none => (0, false, false)
    | some (lo, hi) =>
      let (q, sat) : Int × Bool := match fp32.decode y with
        | .nan => (z, false)
        | .inf n => (if n then lo else hi, true)
        | .fin n m e => let q := divRne ⟨if n then -(m : Int) else m, e⟩ s + z; (clampI lo hi q, clampI lo hi q != q)
      (wrapN (fmtBits f) q, sat, q == z)

/-- A finite FP32 value that is not 0. -/
def nzFin (y : Nat) : Bool := match fp32.decode y with | .fin _ m _ => m != 0 | _ => false

/-- What a row stores: the element bytes, the exponent byte of a block, and its counts: saturations, underuse, and the
largest magnitudes of its positive and negative values (R556, R557). -/
structure RowOut where
  data : List (BitVec 8)
  exp : Nat := 0
  sat : Nat := 0
  und : Nat := 0
  maxp : Nat := 0
  maxn : Nat := 0

def drnRow (w : List (BitVec 32)) (ys : List Nat) : RowOut :=
  let f := pFmt w
  let z := pZp w
  let pad := 32 - ys.length
  let pos := ys.filter (fun y => nzFin y && y < 2 ^ 31)
  let neg := (ys.filter (fun y => nzFin y && 2 ^ 31 ≤ y)).map (· - 2 ^ 31)
  let mx (l : List Nat) : Nat := l.foldl max 0
  if aryBlock f then
    let s := sw24 (pOscl w)
    let xs := ys.map (fun y => match fp32.decode y with
      | .nan => Bv.nan
      | .inf n => Bv.inf n
      | .fin n m e => Bv.q ⟨if n then -(m : Int) else m, e⟩ s)
    let (e, ms, sat) := blkPack (f == 13) xs
    let und := ((ys.zip ms).filter (fun p => nzFin p.1 && p.2 == 0)).length
    { data := elemsPut f (ms.map (wrapN (fmtBits f)) ++ List.replicate pad 0), exp := e, sat := sat, und := und
      maxp := mx pos, maxn := mx neg }
  else
    let es := ys.map (drnElem f (pOscl w) z)
    let padEl := if (fmtFloat f).isSome then 0 else wrapN (fmtBits f) z
    { data := elemsPut f (es.map (·.1) ++ List.replicate pad padEl)
      sat := (es.filter (·.2.1)).length
      und := ((ys.zip es).filter (fun p => nzFin p.1 && p.2.2.2)).length
      maxp := mx pos, maxn := mx neg }

/-! ### Permute -/

/-- Position of row `r` under the five-dimension generator (R558). -/
def drnK (w : List (BitVec 32)) (r : Nat) : Int :=
  let n0 := pExt w 0
  let n1 := pExt w 1
  let n2 := pExt w 2
  let n3 := pExt w 3
  (r % n0 : Nat) * pStr w 0 + (r / n0 % n1 : Nat) * pStr w 1 + (r / (n0 * n1) % n2 : Nat) * pStr w 2
    + (r / (n0 * n1 * n2) % n3 : Nat) * pStr w 3 + (r / (n0 * n1 * n2 * n3) : Nat) * pStr w 4

/-- Where a row's element bytes begin (R558). -/
def drnAddr (w : List (BitVec 32)) (a r : Nat) : Int :=
  let k := drnK w r
  if aryBlock (pFmt w) then a + 64 * pGsz w * (k / 64) + 64 + blkBytes (pFmt w) * (k % 64) else a + k

/-- Where a block row's exponent lies, and its group (R558). -/
def drnExp (w : List (BitVec 32)) (a r : Nat) : Int × Int :=
  let k := drnK w r
  (a + 64 * pGsz w * (k / 64) + k % 64, k / 64)

/-- Bytes of a row's 32 elements. -/
def drnBytes (w : List (BitVec 32)) : Nat := 32 * fmtBits (pFmt w) / 8

/-! ### Pieces -/

/-- Bytes split at 64-byte lines, in ascending order (R565). -/
def splitLines (bs : List (Nat × BitVec 8)) : List (List (Nat × BitVec 8)) :=
  bs.foldl (fun acc b =>
    match acc.getLast? with
    | some p => match p.head? with
      | some h => if h.1 / 64 = b.1 / 64 then acc.dropLast ++ [p ++ [b]] else acc ++ [[b]]
      | none => acc ++ [[b]]
    | none => [[b]]) []

/-- The line a piece lies in. -/
def Piece.line (p : Piece) : Nat := match p.bytes.head? with | some h => h.1 / 64 | none => 0

/-- A data piece joins the job's sequence, merged with the piece just before it when both lie in one line (R565). -/
def addPiece (ps : List Piece) (bs : List (Nat × BitVec 8)) (r : Nat) : List Piece :=
  let p : Piece := ⟨bs, [r], false⟩
  match ps.getLast? with
  | some q => if !q.exps && q.line == p.line then ps.dropLast ++ [⟨q.bytes ++ bs, if q.rows.contains r then q.rows else q.rows ++ [r], false⟩]
      else ps ++ [p]
  | none => [p]

/-- The exponent piece that is due (R565). -/
def DrnJob.flushExp (j : DrnJob) (r : Nat) : DrnJob :=
  if j.expo.isEmpty then j else { j with pieces := j.pieces ++ [⟨j.expo, [r], true⟩], expo := [] }

/-- A row's bytes join the pieces of its job (R558, R565). -/
def DrnJob.addRow (j : DrnJob) (r : Nat) (o : RowOut) : DrnJob :=
  let a := (drnAddr j.words j.addr r).toNat
  let bs := (List.range o.data.length).zip o.data |>.map (fun x => (a + x.1, x.2))
  if aryBlock (pFmt j.words) then
    let (ea, g) := drnExp j.words j.addr r
    let j := if j.group.isSome && j.group != some g then j.flushExp (r - 1) else j
    let j := { j with pieces := addPiece j.pieces bs r, expo := j.expo ++ [(ea.toNat, BitVec.ofNat 8 o.exp)], group := some g }
    if r + 1 = j.nrow then j.flushExp r else j
  else { j with pieces := (splitLines bs).foldl (fun ps b => addPiece ps b r) j.pieces }

/-- The first piece will take no more rows: another piece follows, the job's rows have all been read, or the next row does
not merge with it (R565). -/
def DrnJob.closed (j : DrnJob) : Bool :=
  let r := j.reads.length
  decide (2 ≤ j.pieces.length) || r == j.nrow ||
    (match j.pieces.head? with
     | some p => p.exps || decide ((drnAddr j.words j.addr r).toNat / 64 ≠ p.line)
         || (aryBlock (pFmt j.words) && j.group != some (drnExp j.words j.addr r).2)
     | none => false)

/-- Pipeline depth (R566). -/
def DrnJob.depth (j : DrnJob) : Nat := if aryBlock (pFmt j.words) then 26 else 22

namespace Chip

def drnSt (c : Chip) (t : Nat) : DrnSt := nth {} c.drn t
def modDrn (c : Chip) (t : Nat) (f : DrnSt → DrnSt) : Chip := ({ c with drn := modNth f c.drn t }).showDrn t

/-! ### The drain parameter memory -/

/-- A word as a job or an access reads it: an uncorrectable word reads as 0 (R577). -/
def dpmWord (c : Chip) (t i : Nat) : Nat :=
  if (c.drnSt t).dpmEcc.any (fun e => e.1 == i && e.2 != .ce) then 0 else (getKey 0 (c.drnSt t).dpm i).toNat

/-- Words of the memory have been read: marked words are corrected or reported (R577). -/
def dpmTouch (c : Chip) (t : Nat) (ws : List Nat) : Chip :=
  let hits := (c.drnSt t).dpmEcc.filter (fun e => ws.contains e.1)
  hits.foldl (fun c e =>
    match e.2 with
    | .ce => ((c.modDrn t fun u => { u with dpmEcc := delKey e.1 u.dpmEcc }).cnt (R.DRN.DECC t) 15 0 1).eventOnce (slotDrn t) 0x0251 t
    | _ => (c.cnt (R.DRN.DECC t) 31 16 1).tileFault t (slotDrn t) 0x0252 0) c

def dpmPut (c : Chip) (t i : Nat) (v : BitVec 32) : Chip :=
  c.modDrn t fun u => { u with dpm := putKey 0 i v u.dpm, dpmEcc := delKey i u.dpmEcc }

/-- Errors strike words of the memory. -/
def dpmStrike (c : Chip) (t : Nat) (errs : List (BitVec 11 × Bool)) : Chip :=
  errs.foldl (fun c e => if e.1.toNat < 1280 then c.modDrn t fun u =>
    if u.dpmEcc.any (fun x => x.1 == e.1.toNat) then u
    else { u with dpmEcc := insKey e.1.toNat (if e.2 then .ue else .ce) u.dpmEcc } else c) c

def drnBusy (c : Chip) (t : Nat) : Bool := c.rb (R.DRN.DSTAT t) 0
def drnCfgErr (t : Nat) (c : Chip) : Chip := c.wb (R.DRN.DSTAT t) 5 true

/-- DPA moves on; what follows word 1,279 the spec does not state (log entry 2). -/
def dpaNext (c : Chip) (t : Nat) : Chip :=
  let i := c.rf (R.DRN.DPA t) 10 0
  if i < 1279 then c.wf (R.DRN.DPA t) 10 0 (i + 1)
  else let (v, c) := c.free; c.wf (R.DRN.DPA t) 10 0 (v % 1280)

/-- A read of DPD (R574, R578). -/
def dpdRead (c : Chip) (t : Nat) : BitVec 32 × Chip :=
  if c.drnBusy t then (0, drnCfgErr t c)
  else
    let i := c.rf (R.DRN.DPA t) 10 0
    let v := BitVec.ofNat 32 (c.dpmWord t i)
    (v, ((c.dpmTouch t [i]).dpaNext t).w (R.DRN.DPD t) v)

/-- A write of DPD (R574, R578). -/
def dpdWrite (c : Chip) (t : Nat) (val : BitVec 32) : Chip :=
  if c.drnBusy t then drnCfgErr t c else ((c.dpmPut t (c.rf (R.DRN.DPA t) 10 0) val).dpaNext t).w (R.DRN.DPD t) val

/-- A write of DPA (R576). -/
def dpaWrite (c : Chip) (who : Who) (t : Nat) (val : BitVec 32) : Chip :=
  c.putIf who (R.DRN.DPA t) val (decide (fld val 10 0 ≤ 1279)) (drnCfgErr t)

/-- A write of ATXLOt or ATCFGt (R576, R578). -/
def atWrite (c : Chip) (who : Who) (t key : Nat) (cfg : Bool) (val : BitVec 32) : Chip :=
  let sx := sInt 8 (fld val 7 0)
  c.putIf who key val (!c.drnBusy t && (!cfg || (decide (-24 ≤ sx) && decide (sx ≤ 24)))) (drnCfgErr t)

/-! ### Profiles -/

/-- All staging profiles become live (R572). -/
def pcmtCopy (c : Chip) (t : Nat) : Chip :=
  let c := forN 8 (fun p c => forN 13 (fun i c => c.w (R.DRN.LIVE_PCFG t p + 4 * i) (c.r (R.DRN.PCFG t p + 4 * i))) c) c
  (c.wb (R.DRN.PCMT t) 0 false).wb (R.DRN.DSTAT t) 6 false

/-- A write of PCMT (R572). -/
def pcmtWrite (c : Chip) (t : Nat) (val : BitVec 32) : Chip :=
  let c := c.noteRsv (R.DRN.PCMT t) val
  let c := if bit val 0 then (c.wb (R.DRN.PCMT t) 0 true).wb (R.DRN.DSTAT t) 6 true else c
  if bit val 1 then c.pcmtCopy t else c

/-- A pending ARM copies in cycle 0 of a tick head or ledger round, after the latch (R572). -/
def pcmtHead (c : Chip) (t : Nat) : Chip := if c.rb (R.DRN.PCMT t) 0 then c.pcmtCopy t else c

/-! ### The count latch -/

/-- A quotient as a normalised scale word (R494). -/
def quotSw24 (a b : Dy) : Nat :=
  if a.n = 0 then 0
  else
    let l := quotLog2 a b
    let m := (divRne (a.abs.shift (14 - l)) b).toNat
    toSw24 ⟨m, l - 14⟩

/-- The scale proposal of a profile (R561). -/
def nscl (w : List (BitVec 32)) (mp mn : Nat) : Option Nat :=
  let f := pFmt w
  let padp := nth 0 w 11
  let tgt := fld padp 7 0
  match fmtRange f with
  | none => some (pOscl w)
  | some (lo, hi) =>
    let hp := hi - pZp w
    let hn := pZp w - lo
    let cand (y : Nat) (h : Int) : Dy × Dy := if h > 0 then ((fp32.decode y).dy, Dy.ofInt h) else (Dy.zero, Dy.ofInt 1)
    let p := cand mp hp
    let n := cand mn hn
    let r := if quotLt p.1 p.2 n.1 n.2 then n else p
    if r.1.n = 0 then some (pOscl w)
    else if tgt = 0 then none
    else
      let a := r.1.mul (Dy.ofInt 256)
      let b := r.2.mul (Dy.ofInt tgt)
      let os := sw24 (pOscl w)
      let rl := fld padp 9 8
      let lo := os.shift (-((rl : Int) + 1))
      let hi := os.shift ((rl : Int) + 1)
      let (a, b) := if rl = 3 then (a, b)
        else if a.lt (lo.mul b) then (lo, Dy.ofInt 1)
        else if (hi.mul b).lt a then (hi, Dy.ofInt 1) else (a, b)
      let v := quotSw24 a b
      let v := if v / 2 ^ 16 < fld padp 23 16 then fld padp 23 16 * 2 ^ 16 + 16384 else v
      some (if fld padp 31 24 < v / 2 ^ 16 then fld padp 31 24 * 2 ^ 16 + 32767 else v)

/-- Latch of one profile's counts, and its proposal and events (R560 to R563). -/
def drnLatch1 (c : Chip) (t p : Nat) : Chip :=
  let u := c.drnSt t
  let w := c.liveProfile t p
  let s := nth 0 u.sat p
  let d := nth 0 u.und p
  let c := ((c.w (R.DRN.LSAT t p) (BitVec.ofNat 32 s)).w (R.DRN.LUND t p) (BitVec.ofNat 32 d)).cnt (R.DRN.TSAT t p) 31 0 s
  let c := (c.w (R.DRN.LAMXP t p) (BitVec.ofNat 32 (nth 0 u.maxp p))).w (R.DRN.LAMXN t p) (BitVec.ofNat 32 (nth 0 u.maxn p))
  let c := match nscl w (nth 0 u.maxp p) (nth 0 u.maxn p) with
    | some v => c.wf (R.DRN.NSCL t p) 23 0 v
    | none => let (v, c) := c.free; c.wf (R.DRN.NSCL t p) 23 0 v
  let th := nth 0 w 12
  let c := if fld th 15 0 ≠ 0 ∧ fld th 15 0 ≤ s then c.event (slotDrn t) 0x0B32 else c
  let c := if fld th 31 16 ≠ 0 ∧ fld th 31 16 ≤ d then c.event (slotDrn t) 0x0B33 else c
  c.modDrn t fun u => { u with sat := u.sat.set p 0, und := u.und.set p 0, maxp := u.maxp.set p 0, maxn := u.maxn.set p 0 }

/-- The latch of a tile's profiles: none while the tile is in NAP (R560, R582). -/
def drnLatch (c : Chip) (t : Nat) : Chip := if c.napped t || !c.surv t then c else forN 8 (fun p c => c.drnLatch1 t p) c

/-! ### Jobs -/

/-- Why a drain job is refused (R570): 0 when it is not. -/
def djobWhy (c : Chip) (t a dr dn : Nat) (w : List (BitVec 32)) : Nat :=
  let f := pFmt w
  let nrow := dn % 4096
  let o : Int := (spBase t : Nat)
  let top : Int := o + (c.spSize : Nat)
  let padp := nth 0 w 11
  let inside (x : Int) (n : Nat) : Bool := decide (o ≤ x) && decide (x + (n : Nat) ≤ top)
  if pKind w = 3 ∨ 6 ≤ pAct w ∨ f = 2 ∨ f = 14 ∨ f = 15 ∨ pNch w = 0 ∨ 32 < pNch w then 1
  else if !sw24Scale (pDscl w) || !sw24Scale (pOscl w) then 2
  else if !zpOk f (pZp w) then 3
  else if nrow = 0 ∨ 2048 < nrow ∨ kindRows (pKind w) < dr % 2048 + nrow ∨ dr / 2 ^ 11 ≠ 0 ∨ dn / 2 ^ 12 ≠ 0 then 4
  else if (List.range 4).any (fun d => pExt w d == 0) || (aryBlock f && (a % 64 != 0 || decide (64 * pGsz w < grpBytes f))) then 5
  else if !(List.range nrow).all (fun r => inside (drnAddr w a r) (drnBytes w)
      && (!aryBlock f || (decide (0 ≤ drnK w r) && inside (drnExp w a r).1 1))) then 6
  else if fld padp 7 0 = 0 ∨ fld padp 23 16 = 0 ∨ fld padp 31 24 < fld padp 23 16 then 7
  else 0

/-- The array commands issued before a job have completed (R564). -/
def aryBefore (c : Chip) (t seq : Nat) : Bool :=
  let u := c.arySt t
  !(u.queue.any (fun q => q.seq < seq) || u.runs.any (fun r => r.seq < seq) || u.loading.any (fun l => l.seq < seq))

/-- The job at the head of the queue is checked and begins (R551, R564, R570). -/
def drnBegin (c : Chip) (t : Nat) : Chip :=
  let u := c.drnSt t
  match u.queue with
  | [] => c
  | q :: _ =>
    if c.unitFrz t (slotDrn t) then c
    else match q.cmd with
      | .djob p a dr dn ntf wa words seq =>
        let why := c.djobWhy t a dr dn words
        if why ≠ 0 then
          ((c.modDrn t fun u => { u with queue := u.queue.drop 1 }).wf (R.DRN.DERR t) 3 0 why).tileFault t (slotDrn t) 0x0B31 0
        else if u.jobs.any (fun j => j.reads.length < j.nrow) || (wa && !c.aryBefore t seq) then c
        else
          let b := max (max (q.at_ + 4) (u.lastRead + 1)) (max c.cycle (c.arySt t).fillUntil)
          let b := c.portCycle (if wa then max b ((c.arySt t).lastDone + 1) else b) true
          (c.waitTo (cyc b)).modDrn t fun u => { u with
            queue := u.queue.drop 1
            jobs := u.jobs ++ [{ prof := p, addr := a, row := dr % 2048, nrow := dn % 4096, ntf := ntf, words := words, beg := b
                                 bundle := q.bundle }] }
      | _ => c

/-- The values y of a row's real columns, and the parameter words they read (R553 to R555). -/
def drnYs (c : Chip) (t : Nat) (j : DrnJob) (row : List (BitVec 8)) : List Nat × List Nat :=
  let w := j.words
  let act := pAct w
  let cols := (List.range (pNch w)).map (fun n =>
    let x := drnX w row n
    let (x, ws) := if pBias w then ((addF32 x (c.dpmWord t (32 * j.prof + n))).1, [32 * j.prof + n]) else (x, [])
    match act with
    | 0 => (x, ws)
    | 1 => (match fp32.decode x with
        | .nan => fp32.nan
        | v => if v.neg? || x % 2 ^ 31 == 0 then 0 else x, ws)
    | a =>
      let base := 256 + 256 * (a - 2)
      let cfg := c.r (R.DRN.ATCFG t (a - 2))
      let r := drnTable (fun i => c.dpmWord t (base + i)) (c.r (R.DRN.ATXLO t (a - 2))).toNat (sInt 8 (fld cfg 7 0)) (bit cfg 8) x
      (r.1, ws ++ r.2.map (base + ·)))
  (cols.map (·.1), cols.flatMap (·.2))

/-- The next row of the job is read when the row buffer has room, passes its stages and is counted (R553 to R566). -/
def drnRead (c : Chip) (t : Nat) : Chip :=
  if c.unitFrz t (slotDrn t) then c
  else match (c.drnSt t).jobs.findIdx? (fun j => j.reads.length < j.nrow) with
    | none => c
    | some k =>
      match (c.drnSt t).jobs[k]? with
      | none => c
      | some j =>
        let r := j.reads.length
        if 64 ≤ r ∧ j.pieces.any (fun p => !p.exps && p.rows.contains (r - 64)) then c
        else
          let due := max (j.beg + r) (if 64 ≤ r then getKey 0 j.lastw (r - 64) + 1 else 0)
          let due := max due (match j.reads.getLast? with | some x => x + 1 | none => 0)
          let c := c.waitTo (cyc due)
          let z := 32 * kindBytes (pKind j.words)
          let (c, row) := c.aamRead t (z * (j.row + r)) z
          let (ys, ws) := c.drnYs t j row
          let c := (c.dpmTouch t ws).meter (slotDrn t) 0 (c.owner t) 1
          let o := drnRow j.words ys
          let up (l : List Nat) (f : Nat → Nat) : List Nat := modNth f l j.prof
          c.modDrn t fun u => { u with
            lastRead := c.cycle
            sat := up u.sat (satAdd 32 · o.sat), und := up u.und (satAdd 32 · o.und)
            maxp := up u.maxp (max o.maxp), maxn := up u.maxn (max o.maxn)
            jobs := modNth (fun j => { (j.addRow r o) with reads := j.reads ++ [c.cycle] }) u.jobs k }

/-- The bytes of a piece as runs of consecutive addresses. -/
def byteRuns (bs : List (Nat × BitVec 8)) : List (Nat × List (BitVec 8)) :=
  (bs.foldl (fun (acc : List (Nat × List (BitVec 8))) b =>
    match acc with
    | (a, l) :: r => if a + l.length = b.1 then (a, l ++ [b.2]) :: r else (b.1, [b.2]) :: acc
    | [] => [(b.1, [b.2])]) []).reverse

/-- The next piece of the oldest job is written in its odd cycle (R566, R571). `force` writes a piece that more rows could
still have joined (R579). -/
def drnWrite (c : Chip) (t : Nat) (force : Bool) : Chip :=
  match (c.drnSt t).jobs.findIdx? (fun j => !j.pieces.isEmpty) with
  | none => c
  | some k =>
    match (c.drnSt t).jobs[k]? with
    | none => c
    | some j =>
      match j.pieces with
      | [] => c
      | p :: rest =>
        if !force && !j.closed then c
        else
          let last := nth 0 j.reads (p.rows.foldl max 0)
          let w := c.portCycle (max (max ((c.drnSt t).wprev + 2) (last + j.depth)) c.cycle) true
          let c := c.waitTo (cyc w)
          let (c, held) := (byteRuns p.bytes).foldl (fun (x : Chip × Bool) b =>
            if x.2 then x
            else
              let r := x.1.writeMem ⟨.drn t, j.bundle⟩ b.1 b.2
              match r.res with
              | .stall .. => (r.chip, true)
              | _ => (r.chip, false)) (c, false)
          if held then c
          else (c.meter (slotDrn t) 1 (c.owner t) 1).modDrn t fun u => { u with
            wprev := w
            jobs := modNth (fun j => { j with
              pieces := rest
              lastw := if p.exps then j.lastw else p.rows.foldl (fun l r => insKey r w l) j.lastw }) u.jobs k }

/-- The oldest job completes (R566). -/
def drnDone (c : Chip) (t : Nat) : Chip :=
  let u := c.drnSt t
  match u.jobs with
  | [] => c
  | j :: _ =>
    if j.reads.length < j.nrow || !j.pieces.isEmpty then c
    else
      let c := c.waitTo (cyc (u.wprev + 1))
      let (res, c) := if j.ntf then c.ringCmd t (pCtx j.words) false 2 (.drn t) j.bundle else (.ok, c)
      match res with
      | .stall .. => c
      | _ => (c.inc (R.DRN.DJCNT t) 31 0 1).modDrn t fun u => { u with jobs := u.jobs.drop 1 }

/-- The rows already read are written (R579). -/
def drnFinish (c : Chip) (t : Nat) : Chip :=
  let n := (c.drnSt t).jobs.foldl (fun n j => n + j.pieces.length) 0
  forN n (fun _ c => c.drnWrite t true) c

/-- The rows already read are written with the exponents of their groups; every queued job and the rest of the running
one are discarded (R580). -/
def drnDiscard (c : Chip) (t : Nat) : Chip :=
  let c := c.modDrn t fun u => { u with jobs := u.jobs.map (fun j => j.flushExp (j.reads.length - 1)) }
  (c.drnFinish t).modDrn t fun u => { u with queue := [], jobs := [] }

/-- The zero-fill of the accumulator and drain parameter memories begins and is done within 2,048 cycles (R547, R581). -/
def unitFill (c : Chip) (t : Nat) : Chip :=
  let e := c.cycle + 2048
  (c.modAry t fun u => { u with aam := [], aamEcc := [], fillUntil := e }).modDrn t fun u => { u with dpm := [], dpmEcc := [] }

end Chip

/-- DJOB (R569). -/
def execDjob (h : Syl) (prof : BitVec 3) (an : BitVec 4) (dr dn : BitVec 5) (ntf wa : Bool) (s : State) :
    Host.Outcome State Fault Refusal :=
  s.up fun c => c.syl h [.n] false fun x =>
    nBody (.djob prof.toNat (x.A an.toNat).toNat (x.D dr.toNat).toNat (x.D dn.toNat).toNat ntf wa [] 0) [dr, dn]

/-- DRAIN_JOB_BEGIN (R564). -/
def execDrainJobBegin (t : TileId) (s : State) : Host.Outcome State Fault Refusal := s.up fun c => (c.drnBegin t.val).settle

/-- DRAIN_ROW_READ (R566): errors that strike the drain parameter memory first. -/
def execDrainRowRead (t : TileId) (errs : List (BitVec 11 × Bool)) (s : State) : Host.Outcome State Fault Refusal :=
  s.up fun c => (c.dpmStrike t.val errs).drnRead t.val

/-- DRAIN_PIECE_WRITE (R566). -/
def execDrainPieceWrite (t : TileId) (s : State) : Host.Outcome State Fault Refusal := s.up fun c => (c.drnWrite t.val false).settle

/-- DRAIN_JOB_COMPLETE (R566). -/
def execDrainJobComplete (t : TileId) (s : State) : Host.Outcome State Fault Refusal := s.up fun c => (c.drnDone t.val).settle

end Sys2Proof.Machine
end

