-- ==== Sys2Proof/Machine/Learn.lean ====
section
/-!
DEFINITION. The learning engine: samples and rewards, the epoch-end update, the plastic store in MRAM with its commits, and
the operations of LCTL.
-/
namespace Sys2Proof.Machine

/-! ### Checks -/

/-- The CRC-32 of IEEE 802.3 (R683). -/
def crc32 (bs : List (BitVec 8)) : Nat :=
  let step (r : BitVec 32) (b : BitVec 8) : BitVec 32 :=
    forN 8 (fun _ (x : BitVec 32) => if bit x 0 then (x >>> 1) ^^^ 0xEDB88320 else x >>> 1) (r ^^^ b.setWidth 32)
  ((bs.foldl step 0xFFFFFFFF) ^^^ 0xFFFFFFFF).toNat

/-- The CRC-16 of a page: generator 0x1021, initial value 0xFFFF, unreflected (R682). -/
def crc16 (bs : List (BitVec 8)) : Nat :=
  let step (r : BitVec 16) (b : BitVec 8) : BitVec 16 :=
    forN 8 (fun _ (x : BitVec 16) => if bit x 15 then (x <<< 1) ^^^ 0x1021 else x <<< 1) (r ^^^ ((b.setWidth 16) <<< 8))
  (bs.foldl step 0xFFFF).toNat

/-! ### Values -/

/-- A value rounded to FP32 (R500 to R503). -/
def fpr (x : Fv) : Fv := fp32.decode (fp32.encode x).1
/-- A dyadic as a float value. -/
def fvd (x : Dy) : Fv := Fv.ofDy x false

/-- Order of magnitudes with a threshold, false for a NaN. -/
def magLt (x : Fv) (t : Dy) : Bool :=
  match x with | .nan => false | .inf _ => false | x => x.dy.abs.lt t
def magGe (x : Fv) (t : Dy) : Bool :=
  match x with | .nan => false | .inf _ => true | x => t.le x.dy.abs

/-- Clamp a value to ±WMAX; a NaN stays. -/
def clampF (w : Dy) (x : Fv) : Fv :=
  match x with
  | .nan => .nan
  | .inf s => fvd (if s then w.neg else w)
  | x => fvd ((x.dy.max w.neg).min w)

/-- The values of a row of BS8 blocks with a scale (R487): exponents and mantissas by block. -/
def rowVals (scale : Dy) (row : List (Nat × List (BitVec 8))) : List Fv :=
  row.flatMap fun b => b.2.map fun m => fvd (((Dy.ofInt (sInt 8 m.toNat)).mul scale).shift ((b.1 : Int) - 127))

/-- Values packed as a row of BS8 blocks with a scale (R490). -/
def rowPack (scale : Dy) : Nat → List Fv → List (Nat × List (BitVec 8))
  | 0, _ => []
  | n + 1, xs =>
    let (e, ms, _) := blkPack false ((xs.take 32).map (fun x => match x with
      | .nan => Bv.nan | .inf s => Bv.inf s | x => Bv.q x.dy scale))
    (e, ms.map (fun m => BitVec.ofNat 8 (wrapN 8 m))) :: rowPack scale n (xs.drop 32)

namespace Chip

/-! ### The engine's accesses -/

abbrev lrnSlot : Nat := 0x00E

/-- What an access sequence of the engine comes to: goes on, is cut by a failed access (R705, R706), or stalls. -/
inductive LrnAns (α : Type) where
  | ok (a : α) (c : Chip)
  | cut (c : Chip)
  | stall (c : Chip)

def lrnRead (c : Chip) (a n : Nat) : LrnAns (List (BitVec 8)) :=
  let r := c.readMem ⟨.lrn, 0xFFFFFFFFFFFF⟩ a n
  match r.res with
  | .ok => .ok r.data r.chip
  | .stall .. => .stall r.chip
  | _ => .cut r.chip

def lrnWrite (c : Chip) (a : Nat) (bs : List (BitVec 8)) : LrnAns Unit :=
  let r := c.writeMem ⟨.lrn, 0xFFFFFFFFFFFF⟩ a bs
  match r.res with
  | .ok => .ok () r.chip
  | .stall .. => .stall r.chip
  | _ => .cut r.chip

end Chip

/-- Sequence two parts of the engine's work. -/
def Chip.LrnAns.bind {α β : Type} (x : Chip.LrnAns α) (f : α → Chip → Chip.LrnAns β) : Chip.LrnAns β :=
  match x with
  | .ok a c => f a c
  | .cut c => .cut c
  | .stall c => .stall c

/-- The device after the engine's work, however it ended. -/
def Chip.LrnAns.chip {α : Type} : Chip.LrnAns α → Chip
  | .ok _ c => c
  | .cut c => c
  | .stall c => c

namespace Chip

/-- Do something for each of a list in turn. -/
def lrnEach {α : Type} (f : α → Chip → LrnAns Unit) : List α → Chip → LrnAns Unit
  | [], c => .ok () c
  | x :: r, c => (f x c).bind fun _ c => lrnEach f r c

/-- Addresses in a row of `n` blocks: exponents and mantissas of each group of up to 64 (R488, R489). -/
def rowGroups (a n : Nat) : List (Nat × Nat × Nat) :=
  (List.range (cdiv n 64)).map (fun g => (a + g * 2112, a + g * 2112 + 64, min 64 (n - g * 64)))

/-- Read a row of `n` BS8 blocks. -/
def readRow (c : Chip) (a n : Nat) : LrnAns (List (Nat × List (BitVec 8))) :=
  (rowGroups a n).foldl (fun acc g => acc.bind fun l c =>
    (c.lrnRead g.1 g.2.2).bind fun es c => (c.lrnRead g.2.1 (32 * g.2.2)).bind fun ms c =>
      .ok (l ++ (List.range g.2.2).map (fun i => ((nth 0 es i).toNat, (ms.drop (32 * i)).take 32))) c) (.ok [] c)

/-- Write a row of BS8 blocks. -/
def writeRow (c : Chip) (a : Nat) (row : List (Nat × List (BitVec 8))) : LrnAns Unit :=
  lrnEach (fun (g : (Nat × Nat × Nat) × Nat) c =>
    let bl := (row.drop (64 * g.2)).take g.1.2.2
    (c.lrnWrite g.1.1 (bl.map (fun b => BitVec.ofNat 8 b.1))).bind fun _ c => c.lrnWrite g.1.2.1 (bl.flatMap (·.2)))
    ((rowGroups a row.length).zipIdx) c

/-! ### Registers and addresses -/

def nin (c : Chip) : Nat := c.rf R.LRN.LGEO 12 0
def nproto (c : Chip) : Nat := c.rf R.LRN.LGEO 24 16
def lscl (c : Chip) (key : Nat) : Dy := sw24 (c.rf key 23 0)
def lstate (c : Chip) : Nat := c.rf R.LRN.LSTAT 2 0
def setLstate (c : Chip) (n : Nat) : Chip := c.wf R.LRN.LSTAT 2 0 n
def lwbase (c : Chip) : Nat := c.r64 R.LRN.LWBASE_LO % 2 ^ 48
def lxbase (c : Chip) : Nat := c.r64 R.LRN.LXBASE_LO % 2 ^ 48
/-- Rows of prototype p in the work area (R682, R698). -/
def wRow (c : Chip) (p : Nat) : Nat := c.lwbase + (512 + 17 * p) * 256
def eRow (c : Chip) (p : Nat) : Nat := c.lwbase + 0x140000 + 4352 * p
def gRow (c : Chip) (p : Nat) : Nat := c.lwbase + 0x250000 + 4352 * p
def oRow (c : Chip) (p : Nat) : Nat := c.lwbase + 0x360000 + 4096 * p
def bRow (c : Chip) (p : Nat) : Nat := c.lwbase + 512 * p

def setLrn (c : Chip) (f : LrnSt → LrnSt) : Chip := { c with lrn := f c.lrn }
def showLq (c : Chip) : Chip := c.wf R.LRN.LQ 4 0 c.lrn.queue.length

/-! ### Sample and reward -/

/-- A run lies wholly in a scratchpad of a tile of LRNK or in HBM, 64-byte aligned (R695). -/
def runOk (c : Chip) (a n : Nat) : Bool :=
  a % 64 == 0 && (match c.regionOf (c.ownWindow a n) n with
    | .sp t => c.owner t == c.lrnk
    | .hbm => true
    | _ => false)

/-- Bytes of an input run (R695). -/
def inputLen (c : Chip) : Nat :=
  if c.rf R.LRN.LCFG 3 0 = 12 then
    let n := c.nin / 32
    n / 64 * 2112 + (if n % 64 = 0 then 0 else 64 + 32 * (n % 64))
  else c.nin

/-- The real values of the inputs (R496, R675). -/
def readInput (c : Chip) (a : Nat) : LrnAns (List Fv) :=
  let f := c.rf R.LRN.LCFG 3 0
  let s := c.lscl R.LRN.ISCL
  if f = 12 then (c.readRow a (c.nin / 32)).bind fun row c => .ok (rowVals s row) c
  else
    let z := sInt 16 (c.rf R.LRN.LCFG 31 16)
    (c.lrnRead a c.nin).bind fun bs c =>
      .ok (bs.map (fun b => fvd ((Dy.ofInt ((if f = 0 then (b.toNat : Int) else sInt 8 b.toNat) - z)).mul s))) c

/-- LSMP (R675): outputs first, then the traces. -/
def sample (c : Chip) (addr out : Nat) : LrnAns Unit :=
  let nb := c.nin / 32
  let td := c.rf R.LRN.LCFG 11 8
  let d : Dy := if td = 0 then Dy.zero else ⟨2 ^ td - 1, -(td : Int)⟩
  (c.readInput addr).bind fun xs c =>
  ((List.range c.nproto).foldl (fun acc p => acc.bind fun l c =>
    (c.readRow (c.wRow p) nb).bind fun row c =>
      let sum := ((rowVals (c.lscl R.LRN.WSCL) row).zip xs).foldl (fun (a : Dy) y => a.add (y.1.dy.mul y.2.dy)) Dy.zero
      .ok (l ++ [(fp32.encode (fvd sum)).1]) c) (LrnAns.ok [] c)).bind fun as c =>
  (c.lrnWrite out (as.flatMap (bytesLE 4))).bind fun _ c =>
  let vals := as.map fp32.decode
  let best := (vals.zipIdx).foldl (fun (b : Option (Fv × Nat)) v => match b with
    | none => some v
    | some w => if Fv.cmp v.1 w.1 = 1 then some v else some w) none
  let post (p : Nat) : Fv :=
    if c.rb R.LRN.LCFG 4 then (if best.map (·.2) = some p then fvd (Dy.ofInt 1) else fvd Dy.zero) else nth .nan vals p
  let ts := c.lscl R.LRN.TSCL
  lrnEach (fun p c => (c.readRow (c.eRow p) nb).bind fun row c =>
    let es := ((rowVals ts row).zip xs).map (fun y => fpr (((fvd d).mul y.1).add (fpr (y.2.mul (post p)))))
    c.writeRow (c.eRow p) (rowPack ts nb es)) (List.range c.nproto) c

/-- LREW (R676). -/
def reward (c : Chip) (addr : Nat) : LrnAns Unit :=
  let nb := c.nin / 32
  (c.lrnRead addr c.nproto).bind fun qs c =>
  lrnEach (fun p c => (c.readRow (c.eRow p) nb).bind fun erow c => (c.readRow (c.gRow p) nb).bind fun grow c =>
    let gs := c.lscl R.LRN.GSCL
    let r := fvd ((Dy.ofInt (sInt 8 (nth 0 qs p).toNat)).mul (c.lscl R.LRN.RSCL))
    let g := ((rowVals gs grow).zip (rowVals (c.lscl R.LRN.TSCL) erow)).map (fun y => fpr (y.1.add (fpr (r.mul y.2))))
    c.writeRow (c.gRow p) (rowPack gs nb g)) (List.range c.nproto) c

/-! ### The command queue -/

/-- A learning syllable that is not performed (R696). -/
def lrnRefuse (c : Chip) (why t : Nat) : Chip :=
  (c.wf R.LRN.LQ 11 8 why).kfault lrnSlot 0x0A04 ⟨1, c.owner t⟩ 0 c.lrnk

/-- A PUT that is due at the completion of a command is applied, or waits (R213, R694). -/
def lrnNtf (c : Chip) : Chip :=
  match c.lrn.ntf with
  | none => c
  | some (t, x, b) =>
    match c.ringCmd t x false 3 .lrn b with
    | (.stall .., c) => c
    | (_, c) => c.setLrn fun l => { l with ntf := none }

/-- The engine takes no further command: it is frozen (R707), its kennel is not active, an update or EXPORT holds them
(R678, R691), or a PUT waits. -/
def lrnHeld (c : Chip) : Bool :=
  c.rb (R.H.PCTL lrnSlot) 2 || c.kstate c.lrnk != 0 || c.lrn.ntf.isSome || (c.lrn.due && c.lrn.first == 0)
    || c.lstate == 3 || c.lstate == 4

/-- The head command leaves the queue. -/
def lrnPop (c : Chip) : Chip := (c.setLrn fun l => { l with queue := l.queue.drop 1, first := l.first - 1 }).showLq

/-- Perform the head command (R675 to R677, R696); none when it cannot be performed now. -/
def lrnStep (c : Chip) : Option Chip :=
  let c := c.lrnNtf
  if c.lrnHeld then none
  else match c.lrn.queue with
  | [] => none
  | (a, t, b) :: _ =>
    let fin (r : LrnAns Unit) (ntf : Bool) (ctx : Nat) : Option Chip :=
      match r with
      | .ok _ c =>
        let c := ((c.lrnPop).inc R.LRN.LDONE 31 0 1).meter lrnSlot 0 c.lrnk (c.nin * c.nproto)
        some (if ntf then (c.setLrn fun l => { l with ntf := some (t, ctx, b) }).lrnNtf else c)
      | .cut c => some c.lrnPop
      | .stall _ => none
    if c.lstate ≠ 2 ∨ ¬c.rb R.LRN.LCTL 0 then some (c.lrnPop.lrnRefuse 1 t)
    else match a with
      | .lsmp ad out ntf ctx =>
        if c.runOk ad c.inputLen && c.runOk out (4 * c.nproto) then fin (c.sample ad out) ntf ctx else some (c.lrnPop.lrnRefuse 2 t)
      | .lrew ad ntf ctx =>
        if c.runOk ad c.nproto then fin (c.reward ad) ntf ctx else some (c.lrnPop.lrnRefuse 2 t)
      | _ => some c.lrnPop

/-- Perform commands while they can be performed, by fuel. -/
def lrnRunN : Nat → Chip → Chip
  | 0, c => c
  | n + 1, c => match c.lrnStep with
    | some c => lrnRunN n c
    | none => c.lrnNtf
def lrnRun (c : Chip) : Chip := lrnRunN (c.lrn.queue.length + 1) c

/-- A kennel fault of LRNK discards every queued command (R705). -/
def lrnDiscard (c : Chip) : Chip := (c.setLrn fun l => { l with queue := [], ntf := none, first := 0 }).showLq

/-! ### Epochs -/

/-- A frame-tick edge (R678). -/
def lrnEdge (c : Chip) (flush : Bool) : Chip :=
  let c := if c.rb R.LRN.LCTL 0 && !flush then c.w R.LRN.LECNT (c.r R.LRN.LECNT + 1) else c
  let full := c.rb R.LRN.LCTL 0 && !flush && decide (c.rf R.LRN.LEPOCH 16 0 ≤ c.rf R.LRN.LECNT 16 0)
  if full || c.lrn.epend then
    (c.w R.LRN.LECNT 0).setLrn fun l => { l with due := true, first := l.queue.length, epend := false }
  else c

/-- The epoch-end update starts once the earlier commands are done and no commit runs (R678, R680). -/
def updateBegin (c : Chip) : Chip :=
  let c := c.lrnRun
  if c.lrn.due && c.lrn.first == 0 && !c.rb R.LRN.LSTAT 3 && c.lstate == 2 && !c.rb (R.H.PCTL lrnSlot) 2 then c.setLstate 3 else c

/-- What the update makes of a layer's pairs: prunes and creations in ascending order of prototype and input (R679). -/
structure Upd where
  pruned : Nat := 0
  created : Nat := 0
  count : Nat := 0

/-- Bits of a prototype's connection bitmap (R682). -/
def bitsOf (bs : List (BitVec 8)) (n : Nat) : List Bool := (List.range n).map (fun i => bit (nth 0 bs (i / 8)) (i % 8))
def bitsBytes (l : List Bool) : List (BitVec 8) :=
  (List.range (cdiv l.length 8)).map (fun j => BitVec.ofNat 8 ((List.range 8).foldl (fun a i => a + (if nth false l (8 * j + i) then 2 ^ i else 0)) 0))

/-- One row of the update: bits, weights and optimiser values (R679). -/
structure URow where
  bits : List Bool
  w : List Fv
  m : List Fv

/-- Read and step a prototype's row: the optimiser state, the weights of synapses; the gradients are cleared. -/
def updRow (c : Chip) (p : Nat) : LrnAns URow :=
  let n := c.nin
  let nb := n / 32
  let ms := c.lscl R.LRN.MSCL
  let mb := c.rf R.LRN.LCFG 15 12
  let b : Fv := fvd ⟨1, -(mb : Int)⟩
  let b1 : Fv := fvd ⟨2 ^ mb - 1, -(mb : Int)⟩
  let eta := fvd (c.lscl R.LRN.ETA)
  let wm := c.lscl R.LRN.WMAX
  (c.lrnRead (c.oRow p) n).bind fun os c => (c.readRow (c.gRow p) nb).bind fun grow c =>
  (c.readRow (c.wRow p) nb).bind fun wrow c => (c.lrnRead (c.bRow p) (n / 8)).bind fun bs c =>
    let g := rowVals (c.lscl R.LRN.GSCL) grow
    let mOf (o : BitVec 8) (g : Fv) : Nat :=
      let old := (e5m2.decode o.toNat).mul (fvd ms)
      match fpr ((b1.mul old).add (b.mul g)) with
      | .fin s m e => (e5m2.quot s m e ms).1
      | x => (e5m2.encode x).1
    let enc := (os.zip g).map (fun y => mOf y.1 y.2)
    let m := enc.map (fun x => (e5m2.decode x).mul (fvd ms))
    let bits := bitsOf bs n
    let w := ((rowVals (c.lscl R.LRN.WSCL) wrow).zip (m.zip bits)).map (fun y =>
      if y.2.2 then clampF wm (fpr (y.1.add (eta.mul y.2.1))) else y.1)
    (c.lrnWrite (c.oRow p) (enc.map (BitVec.ofNat 8))).bind fun _ c =>
    (c.writeRow (c.gRow p) (List.replicate nb (0, zeros 32))).bind fun _ c => .ok ⟨bits, w, m⟩ c

/-- Prune weak synapses of a row, while fewer than PMAX are pruned (R679). -/
def pruneRow (c : Chip) (r : URow) (u : Upd) : URow × Upd :=
  let (out, u) := (r.bits.zip (r.w.zip r.m)).foldl (fun (x : List (Bool × Fv) × Upd) y =>
    if y.1 && magLt y.2.1 (c.lscl R.LRN.PRTH) && magLt y.2.2 (c.lscl R.LRN.MPTH) && decide (x.2.pruned < c.rf R.LRN.LPC 15 0) then
      (x.1 ++ [(false, fvd Dy.zero)], { x.2 with pruned := x.2.pruned + 1, count := x.2.count - 1 })
    else (x.1 ++ [(y.1, y.2.1)], x.2)) ([], u)
  ({ r with bits := out.map (·.1), w := out.map (·.2) }, u)

/-- Create promising synapses of a row, while fewer than CMAX are created and fewer than SMAX exist (R679). -/
def createRow (c : Chip) (r : URow) (u : Upd) : URow × Upd :=
  let eta := fvd (c.lscl R.LRN.ETA)
  let (out, u) := (r.bits.zip (r.w.zip r.m)).foldl (fun (x : List (Bool × Fv) × Upd) y =>
    if !y.1 && magGe y.2.2 (c.lscl R.LRN.CRTH) && decide (x.2.created < c.rf R.LRN.LPC 31 16)
        && decide (x.2.count < c.rf R.LRN.LSYN 20 0) then
      (x.1 ++ [(true, clampF (c.lscl R.LRN.WMAX) (fpr (eta.mul y.2.2)))],
        { x.2 with created := x.2.created + 1, count := x.2.count + 1 })
    else (x.1 ++ [(y.1, y.2.1)], x.2)) ([], u)
  ({ r with bits := out.map (·.1), w := out.map (·.2) }, u)

/-- The epoch-end update is performed and completes (R679). -/
def updateDone (c : Chip) : Chip :=
  if c.lstate ≠ 3 then c
  else
    let fin (c : Chip) (u : Upd) : Chip :=
      let c := (c.setLstate 2).w R.LRN.LEPNO (c.r R.LRN.LEPNO + 1)
      let c := (c.w R.LRN.LEVT (BitVec.ofNat 32 (u.pruned + u.created * 2 ^ 16))).wf R.LRN.LSCNT 20 0 u.count
      let n := c.lrn.updates + 1
      let due := decide (max 1 (c.rf R.LRN.LCMT 7 0) ≤ n)
      let c := c.setLrn fun l => { l with due := false, updates := if due then 0 else n, commitDue := l.commitDue || (due && c.rb R.LRN.LCTL 8) }
      c.event lrnSlot 0x0A01
    let rows := (List.range c.nproto).foldl (fun (acc : LrnAns (List URow)) p => acc.bind fun l c =>
      (c.updRow p).bind fun r c => .ok (l ++ [r]) c) (.ok [] c)
    match rows with
    | .ok rs c =>
      let count := rs.foldl (fun n r => n + (r.bits.filter id).length) 0
      let (rs, u) := rs.foldl (fun (x : List URow × Upd) r => let (r, u) := c.pruneRow r x.2; (x.1 ++ [r], u)) ([], { count := count })
      let (rs, u) := rs.foldl (fun (x : List URow × Upd) r => let (r, u) := c.createRow r x.2; (x.1 ++ [r], u)) ([], u)
      let out := lrnEach (fun (r : URow × Nat) c =>
        (c.lrnWrite (c.bRow r.2) (bitsBytes r.1.bits)).bind fun _ c =>
        c.writeRow (c.wRow r.2) (rowPack (c.lscl R.LRN.WSCL) (c.nin / 32) r.1.w)) rs.zipIdx c
      fin out.chip u
    | r => fin r.chip { count := c.rf R.LRN.LSCNT 20 0 }

/-! ### The plastic store -/

/-- Address of a physical page (R681), and its bytes. -/
abbrev pageAddr (p : Nat) : Nat := 0x3000000000 + 256 * p
def pageBytes (c : Chip) (p : Nat) : List (BitVec 8) := c.mem.bytes (pageAddr p) 256

/-- First page of the map of a record: A or B (R681). -/
def mapPage (b : Bool) : Nat := if b then 78 else 2
/-- The record of a page, and its map (R683). -/
def recBytes (c : Chip) (b : Bool) : List (BitVec 8) := c.mem.bytes (pageAddr (b2n b)) 64
def mapBytes (c : Chip) (b : Bool) : List (BitVec 8) := c.mem.bytes (pageAddr (mapPage b)) 19456

/-- A record is valid (R683). -/
def recValid (c : Chip) (b : Bool) : Bool :=
  let r := c.recBytes b
  le r 60 4 == crc32 (r.take 60) && le r 20 4 == crc32 (c.mapBytes b) && le r 4 1 == 1

/-- The record in force: none, A or B (R700). -/
def recIn (c : Chip) : Option Bool := match c.rf R.LRN.LSTAT 11 10 with | 1 => some false | 2 => some true | _ => none

/-- Put a record in force: its map governs the committed pages, and LCEP reads its epoch (R685, R690). -/
def recForce (c : Chip) (b : Bool) : Chip :=
  let m := c.mapBytes b
  let c := { c with plmap := (List.range 4864).filterMap (fun i => let p := le m (4 * i) 2 % 2 ^ 14; if p = 0 then none else some (i, p)) }
  (c.wf R.LRN.LSTAT 11 10 (if b then 2 else 1)).w R.LRN.LCEP (BitVec.ofNat 32 (le (c.recBytes b) 0 4))

/-- The record in force is selected at start-up (R687). -/
def recSelect (c : Chip) : Chip :=
  if c.lrn.selected || !c.coreUp then c else
  let c := c.setLrn fun l => { l with selected := true }
  let epoch (b : Bool) : BitVec 32 := BitVec.ofNat 32 (le (c.recBytes b) 0 4)
  let erased (b : Bool) : Bool := (c.recBytes b).all (· == 0)
  match c.recValid false, c.recValid true with
  | false, false => ({ c with plmap := [] }.wf R.LRN.LSTAT 11 10 0).event lrnSlot 0x0A05
  | true, true => c.recForce (decide (0 < (epoch true - epoch false).toNat ∧ (epoch true - epoch false).toNat < 2 ^ 31))
  | a, _ =>
    let b := !a
    let c := c.recForce b
    if erased (!b) then (c.wb R.LRN.LSTAT 12 true).event lrnSlot 0x0A03 else c

/-- Logical page as committed (R690), and as the work area holds it. -/
def lpBytes (c : Chip) (i : Nat) : List (BitVec 8) :=
  match getKey 0 c.plmap i with | 0 => zeros 256 | p => c.pageBytes p

/-- The pages that hold a byte of a weight of a row page (R682, R684): mantissa and exponent offsets in the row. -/
def weightOfs (n i : Nat) : Nat × Nat :=
  let k := i / 32
  let g := k / 64 * 2112
  let _ := n
  (g + k % 64, g + 64 + 32 * (k % 64) + i % 32)

/-- The real value of weight i of a row given its bytes (R487). -/
def weightAt (row : List (BitVec 8)) (scale : Dy) (i : Nat) : Dy :=
  let (e, m) := weightOfs 0 i
  ((Dy.ofInt (sInt 8 (nth 0 row m).toNat)).mul scale).shift (((nth 0 row e).toNat : Int) - 127)

/-- A logical page is to be written (R684, R703). -/
def pageChanged (c : Chip) (new : Nat → List (BitVec 8)) (oldScale : Dy) (i : Nat) : Bool :=
  if c.lrn.dirty.contains i then true
  else if i < 512 then new i != c.lpBytes i
  else
    let p := (i - 512) / 17
    let pg := (i - 512) % 17
    let base := 512 + 17 * p
    let row (f : Nat → List (BitVec 8)) : List (BitVec 8) := (List.range 17).flatMap (fun j => f (base + j))
    let a := row new
    let b := row c.lpBytes
    (List.range c.nin).any (fun w =>
      let (e, m) := weightOfs 0 w
      (e / 256 == pg || m / 256 == pg) &&
        (let d := ((weightAt a (c.lscl R.LRN.WSCL) w).sub (weightAt b oldScale w)).abs
         (c.lscl R.LRN.WOCT).le d && (d.n != 0 || nth 0 a e != nth 0 b e || nth 0 a m != nth 0 b m)))

/-- The next free data page in cyclic order (R688), by fuel. -/
def freePage (used : List Nat) : Nat → Nat → Nat
  | 0, p => p
  | f + 1, p => let p := if p < 256 ∨ 16383 < p then 256 else p
                if used.contains p then freePage used f (p + 1) else p

/-- Write the changed pages, the map and the record: the commit's steps 2 to 4 (R685, R704). `all` writes every page; `bad`
gives read-back failures by logical page; none when the commit is abandoned. -/
def commitPages (c : Chip) (new : Nat → List (BitVec 8)) (all : Bool) (epoch nin npro syn wscl : Nat) (bad : Nat → Nat) :
    Option Chip :=
  let cur := c.recIn
  let b := match cur with | some r => !r | none => false
  let oldScale := match cur with | some r => sw24 (le (c.recBytes r) 12 3) | none => Dy.zero
  let alloc0 := match cur with | some r => le (c.recBytes r) 16 2 | none => 256
  let sel := (List.range 4864).filter (fun i => all || c.pageChanged new oldScale i)
  let oldMap := c.plmap
  let step (x : Option (Chip × List (Nat × Nat) × List Nat × Nat × Nat)) (i : Nat) :=
    match x with
    | none => none
    | some (c, m, used, al, n) =>
      if (new i).all (· == 0) then some (c, delKey i m, used, al, n)
      else if 3 ≤ bad i then none
      else
        let (p, used) := (List.range (bad i + 1)).foldl (fun (y : Nat × List Nat) _ =>
          let p := freePage y.2 16384 y.1; (p + 1, y.2 ++ [p])) (al, used)
        let q := p - 1
        some ({ c with mem := c.mem.putBytes (pageAddr q) (new i) }, insKey i q m, used, p, n + bad i + 1)
  match sel.foldl step (some (c, oldMap, oldMap.map (·.2), alloc0, 0)) with
  | none => none
  | some (c, m, _, al, n) =>
    let c := c.meter lrnSlot 1 c.lrnk n
    let c' := { c with plmap := m }
    let mb := (List.range 4864).flatMap (fun i => match getKey 0 m i with
      | 0 => zeros 4
      | p => bytesLE 2 p ++ bytesLE 2 (crc16 (c'.pageBytes p)))
    let c := { c with mem := c.mem.putBytes (pageAddr (mapPage b)) mb }
    let al := if al < 256 ∨ 16383 < al then 256 else al
    let r0 := bytesLE 4 epoch ++ [1] ++ bytesLE 2 nin ++ bytesLE 2 npro ++ bytesLE 3 syn ++ bytesLE 3 wscl ++ [0] ++ bytesLE 2 al
      ++ zeros 2 ++ bytesLE 4 (crc32 mb) ++ zeros 36
    let c := { c with mem := c.mem.putBytes (pageAddr (b2n b)) (r0 ++ bytesLE 4 (crc32 r0)) }
    some ((c.recForce b).wf R.LRN.LWPG 15 0 n)

/-- A commit begins: the older record is erased (R684, R685). -/
def commitBegin (c : Chip) : Chip :=
  if !c.lrn.commitDue || c.rb R.LRN.LSTAT 3 || c.lstate == 3 || c.rb (R.H.PCTL lrnSlot) 2 then c
  else
    let b := match c.recIn with | some r => !r | none => false
    let c := { c with mem := c.mem.putBytes (pageAddr (b2n b)) (zeros 64) }
    (c.wb R.LRN.LSTAT 3 true).setLrn fun l => { l with commitDue := false }

/-- The work area's logical page image (R698). -/
def workPage (c : Chip) (i : Nat) : List (BitVec 8) := c.getBytes .hbm (c.lwbase + 256 * i) 256

/-- A commit completes, or is abandoned before its commit point (R685, R704). -/
def commitDone (c : Chip) (bad : List (Nat × Nat)) : Chip :=
  if !c.rb R.LRN.LSTAT 3 then c
  else
    let c0 := c.wb R.LRN.LSTAT 3 false
    match c0.commitPages c0.workPage false (c.r R.LRN.LEPNO).toNat c.nin c.nproto (c.rf R.LRN.LSCNT 20 0) (c.rf R.LRN.WSCL 23 0)
        (getKey 0 bad) with
    | some c => (c.setLrn fun l => { l with dirty := [] }).event lrnSlot 0x0A02
    | none => c0.event lrnSlot 0x0A08

/-! ### Operations -/

/-- A run lies within one valid HBM range of LRNK (R697). -/
def inHrng (c : Chip) (a n : Nat) : Bool :=
  c.regionOf a n == .hbm && (List.range 4).any (fun j => c.hrng c.lrnk j a && c.hrng c.lrnk j (a + n - 1))

/-- Positive and normalised; or a normalised threshold that is not negative (R494, R697). -/
def thrOk (w : Nat) : Bool := w == 0 || sw24Scale w

/-- The image at LXBASE (R691, R692), and its header record. -/
def imgHead (c : Chip) : List (BitVec 8) := c.getBytes .hbm c.lxbase 256
def imgLen (c : Chip) : Nat := if bit (nth 0 c.imgHead 64) 0 then 4522240 else 1245440
def imgOk (c : Chip) : Bool :=
  let h := c.imgHead
  le h 60 4 == crc32 (h.take 60) && le h 4 1 == 1 && le h 68 4 == crc32 (c.getBytes .hbm (c.lxbase + 256) (c.imgLen - 256))

/-- NIN and NPROTO lie within R672. -/
def geoOk (n p : Nat) : Bool := n % 32 == 0 && decide (32 ≤ n) && decide (n ≤ 4096) && decide (1 ≤ p) && decide (p ≤ 256)

/-- Operations of LCTL by bit: 0 EN, 1 LOAD, 2 EPEND, 3 EXPORT, 5 IMPORT, 6 ERASE. Why one is refused, 0 when it is not
(R697). -/
def opWhy (c : Chip) (op : Nat) (xwork : Bool) : Nat :=
  let st := c.lstate
  let busy := c.rb R.LRN.LSTAT 3
  let need := match op with
    | 1 | 6 | 5 => st == 0
    | 3 => (st == 0 || st == 2) && !busy
    | 2 => st == 2 && !busy
    | _ => st == 2 || c.rb R.LRN.LCTL 0
  let work := c.lwbase % 0x100000 == 0 && c.inHrng c.lwbase 0x500000
  let xlen := if op = 5 then c.imgLen else if xwork && st == 2 then 4522240 else 1245440
  let image := c.lxbase % 0x1000 == 0 && c.inHrng c.lxbase xlen
  let (n, p) := match op with
    | 1 => (match c.recIn with | some r => (le (c.recBytes r) 5 2, le (c.recBytes r) 7 2) | none => (c.nin, c.nproto))
    | 5 => (le c.imgHead 5 2, le c.imgHead 7 2)
    | _ => (c.nin, c.nproto)
  let w (k : Nat) : Nat := c.rf k 23 0
  let scales := [R.LRN.ISCL, R.LRN.WSCL, R.LRN.TSCL, R.LRN.GSCL, R.LRN.MSCL, R.LRN.RSCL, R.LRN.ETA, R.LRN.WMAX].all (fun k => sw24Scale (w k))
  let thrs := [R.LRN.PRTH, R.LRN.MPTH, R.LRN.CRTH, R.LRN.WOCT].all (fun k => thrOk (w k)) && (c.lscl R.LRN.MPTH).le (c.lscl R.LRN.CRTH)
  let f := c.rf R.LRN.LCFG 3 0
  let iz := sInt 16 (c.rf R.LRN.LCFG 31 16)
  let len := c.rf R.LRN.LEPOCH 16 0
  let cfg := scales && thrs && (f == 0 || f == 1 || f == 12) && zpOk f iz && decide (256 ≤ len) && decide (len ≤ 65536)
    && c.rf R.LRN.LCMT 7 0 != 0 && c.rf R.LRN.LCFG 15 12 != 0
  if !need then 1
  else if (op = 1 ∨ op = 3) ∧ c.recIn = none then 2
  else if (op ≠ 3 ∧ ¬work) ∨ ((op = 3 ∨ op = 5) ∧ ¬image) then 3
  else if op = 5 ∧ ¬c.imgOk then 6
  else if op ≠ 3 ∧ (¬geoOk n p ∨ n * p < c.rf R.LRN.LSYN 20 0) then 4
  else if op ≠ 3 ∧ ¬cfg then 5
  else 0

/-- The lowest reason of several (R697). An image's header reason 6 gives way to reasons 4 and 5 of the registers. -/
def lowWhy (l : List Nat) : Nat := l.foldl (fun a b => if b = 0 then a else if a = 0 then b else min a b) 0

/-- A write of LCTL (R697, R700). -/
def lctlWrite (c : Chip) (who : Who) (val : BitVec 32) : Chip :=
  let ops := [0, 1, 2, 3, 5, 6].filter (fun i => bit val i && !(i == 0 && c.rb R.LRN.LCTL 0))
  let why := lowWhy (ops.map (fun i => c.opWhy i (bit val 4)))
  if why ≠ 0 then ((c.noteRsv R.LRN.LCTL val).wf R.LRN.LSTAT 9 6 why).wb R.LRN.LSTAT 4 true |>.event lrnSlot 0x0A09
  else
    let c := c.putReg who R.LRN.LCTL val
    ops.foldl (fun c i => match i with
      | 1 => if c.lstate = 0 then c.setLstate 1 else c
      | 2 => c.setLrn fun l => { l with epend := true }
      | 3 => if c.lstate = 0 ∨ c.lstate = 2 then (c.setLrn fun l => { l with before := c.lstate }).setLstate 4 else c
      | 5 => if c.lstate = 0 then c.setLstate 5 else c
      | 6 => if c.lstate = 0 then c.setLstate 6 else c
      | _ => c) c

/-- MRAM words that an error has struck, met by an operation: page, word, and whether it is uncorrectable (R703). -/
abbrev MramErr := BitVec 14 × BitVec 5 × Bool

/-- The bytes of a committed logical page as read through its code and its CRC, with the errors met (R703). -/
def lpRead (c : Chip) (errs : List MramErr) (i : Nat) : List (BitVec 8) × Chip :=
  match getKey 0 c.plmap i with
  | 0 => (zeros 256, c)
  | p =>
    let mine := errs.filter (fun e => e.1.toNat == p)
    let c := (mine.filter (fun e => !e.2.2)).foldl (fun c _ => (c.cnt R.LRN.LMECC 15 0 1).eventOnce lrnSlot 0x0A07 0) c
    let ue := mine.filter (fun e => e.2.2)
    let bs := (c.pageBytes p).zipIdx.map (fun b => if ue.any (fun e => e.2.1.toNat == b.2 / 8) then 0 else b.1)
    if ue.isEmpty then (bs, c)
    else (bs, (((c.cnt R.LRN.LMECC 31 16 ue.length).wb R.LRN.LSTAT 5 true).event lrnSlot 0x0A06).setLrn fun l =>
      { l with dirty := l.dirty ++ [i] })

/-- Zero a run of the work area. -/
def zeroRun (c : Chip) (a n : Nat) : LrnAns Unit := lrnEach (fun i c => c.lrnWrite (a + 256 * i) (zeros 256)) (List.range (n / 256)) c

/-- The committed layer is copied into the work area; traces, gradients and optimiser state are zeroed, or taken from an
image (R692, R697). -/
def loadWork (c : Chip) (errs : List MramErr) (work : Option Nat) : LrnAns Unit :=
  match c.recIn with
  | none => .ok () c
  | some r =>
    let h := c.recBytes r
    let c := (c.wb R.LRN.LSTAT 5 false).setLrn fun l => { l with dirty := [] }
    (lrnEach (fun i c => let (bs, c) := c.lpRead errs i; c.lrnWrite (c.lwbase + 256 * i) bs) (List.range 4864) c).bind fun _ c =>
    (match work with
      | none => c.zeroRun (c.lwbase + 0x140000) 0x320000
      | some src => lrnEach (fun i c => (c.lrnRead (src + 256 * i) 256).bind fun bs c => c.lrnWrite (c.lwbase + 0x140000 + 256 * i) bs)
          (List.range (0x320000 / 256)) c).bind fun _ c =>
    let c := ((c.wf R.LRN.LGEO 12 0 (le h 5 2)).wf R.LRN.LGEO 24 16 (le h 7 2)).wf R.LRN.WSCL 23 0 (le h 12 3)
    .ok () ((c.wf R.LRN.LSCNT 20 0 (le h 9 3)).w R.LRN.LEPNO (BitVec.ofNat 32 (le h 0 4)))

/-- The state after an operation that loads: READY, or IDLE when an access has cut it (R706). -/
def opEnd (r : LrnAns Unit) : Chip :=
  match r with
  | .ok _ c => c.setLstate 2
  | r => r.chip.setLstate 0

/-- The running operation completes (R691, R692, R697). -/
def opDone (c : Chip) (errs : List MramErr) : Chip :=
  match c.lstate with
  | 1 => opEnd (c.loadWork errs none)
  | 6 =>
    match c.commitPages (fun _ => zeros 256) true 0 c.nin c.nproto 0 (c.rf R.LRN.WSCL 23 0) (fun _ => 0) with
    | some c => opEnd (c.loadWork [] none)
    | none => c.setLstate 0
  | 5 =>
    let h := c.imgHead
    let x := c.lxbase
    let work := bit (nth 0 h 64) 0
    match c.commitPages (fun i => c.getBytes .hbm (x + 256 + 256 * i) 256) true (le h 0 4) (le h 5 2) (le h 7 2) (le h 9 3) (le h 12 3)
        (fun _ => 0) with
    | some c => opEnd (c.loadWork [] (if work then some (x + 1245440) else none))
    | none => c.setLstate 0
  | 4 =>
    let ready := c.lrn.before == 2
    let work := c.rb R.LRN.LCTL 4 && ready
    let back (c : Chip) : Chip := c.setLstate c.lrn.before
    match c.recIn with
    | none => back c
    | some r =>
      let rec0 := c.recBytes r
      let (lps, c) := (List.range 4864).foldl (fun (a : List (List (BitVec 8)) × Chip) i =>
        let (bs, c) := a.2.lpRead errs i; (a.1 ++ [bs], c)) ([], c)
      let wk := if work then c.getBytes .hbm (c.lwbase + 0x140000) 0x320000 else []
      let body := lps.flatten ++ wk
      let head := rec0 ++ [BitVec.ofNat 8 (b2n work), 0, 0, 0] ++ bytesLE 4 (crc32 body) ++ zeros 184
      let out := lrnEach (fun i c => c.lrnWrite (c.lxbase + 256 * i) (((head ++ body).drop (256 * i)).take 256))
        (List.range ((256 + body.length) / 256)) c
      (back out.chip).lrnRun
  | _ => c

/-- A write of another LRN register (R701). -/
def lrnRegWrite (c : Chip) (who : Who) (key : Nat) (val : BitVec 32) : Chip :=
  let st := c.lstate
  let busy := st == 1 || 3 ≤ st
  let geo := (key == R.LRN.LGEO || key == R.LRN.WSCL) && st == 2
  if key ≥ 0xE000 + 0x040 && key != R.LRN.LSTAT && (busy || geo) then (c.noteRsv key val).wb R.LRN.LSTAT 4 true
  else c.putReg who key val

end Chip

/-! ### Commands -/

/-- LSMP (R694): bits that the format shows as 0 are checked with the syllable. -/
def execLsmp (h : Syl) (an am : BitVec 4) (ntf : Bool) (ctx : BitVec 4) (s : State) : Host.Outcome State Fault Refusal :=
  s.up fun c => (c.syl h [.n] false fun x => nBody (.lsmp (x.A an.toNat).toNat (x.A am.toNat).toNat ntf ctx.toNat) []).lrnRun

/-- LREW (R694). -/
def execLrew (h : Syl) (an : BitVec 4) (ntf : Bool) (ctx : BitVec 4) (s : State) : Host.Outcome State Fault Refusal :=
  s.up fun c => (c.syl h [.n] false fun x => nBody (.lrew (x.A an.toNat).toNat ntf ctx.toNat) []).lrnRun

/-- EPOCH_END_UPDATE (R679): the update starts. -/
def execEpochEndUpdate (s : State) : Host.Outcome State Fault Refusal := s.up fun c => c.updateBegin

/-- EPOCH_END_UPDATE_DONE (R679): it is performed and completes; the commands held meanwhile follow. -/
def execEpochEndUpdateDone (s : State) : Host.Outcome State Fault Refusal := s.up fun c => (c.updateDone.lrnRun).settle

/-- PLASTIC_COMMIT (R685). -/
def execPlasticCommit (s : State) : Host.Outcome State Fault Refusal := s.up fun c => c.commitBegin

/-- PLASTIC_COMMIT_DONE (R685): read-back failures by logical page. -/
def execPlasticCommitDone (bad : List (Nat × Nat)) (s : State) : Host.Outcome State Fault Refusal := s.up fun c => c.commitDone bad

/-- LRN_OPERATION_DONE (R697): with the MRAM errors that the operation meets. -/
def execLrnOperationDone (errs : List (BitVec 14 × BitVec 5 × Bool)) (s : State) : Host.Outcome State Fault Refusal :=
  s.up fun c => (c.opDone errs).settle

/-- PLASTIC_RECORD_SELECT (R687). -/
def execPlasticRecordSelect (s : State) : Host.Outcome State Fault Refusal := s.up fun c => c.recSelect

/-- DMA_PORT_ACCESS (R640): an engine's waiting access is served, and the learning engine tries again. -/
def execDmaPortAccess (t : TileId) (s : State) : Host.Outcome State Fault Refusal :=
  s.up fun c => ((c.portServe t.val).settle).lrnRun

end Sys2Proof.Machine
end

