-- ==== Sys2Proof/Machine/Kennels.lean ====
section
/-!
DEFINITION. Soft reset and freezing of pages, the kennel map and its commit, and the freeze and reset of kennels.
-/
namespace Sys2Proof.Machine

/-- Offset of a register in its page. -/
abbrev ofsOf (key : Nat) : Nat := key % 0x1000

namespace Chip

/-! ### Soft reset -/

/-- The block-specific registers of a page return to their reset values, but for those that soft reset keeps (R107). -/
def resetRegs (c : Chip) (slot : Nat) : Chip :=
  match pageOf slot with
  | none => c
  | some (k, _) => { c with regs := c.regs.filter (fun r => r.1 / 0x1000 != slot || ofsOf r.1 < 0x040 || srstKeeps k (ofsOf r.1)) }

/-- A requester that waits on a tagged ring of a tile is discarded with its job (R242). -/
def dropStalled (c : Chip) (t : Nat) : Chip :=
  let ags := (c.scratch t).rings.flatMap (fun r => r.stalls.map (·.1))
  let c := ags.foldl (fun c ag => match ag with
    | .job e k b => c.modEng e fun g => { g with jobs := g.jobs.filter (fun j => !(j.ken == k && j.who == b && j.x.busy)) }
    | .lmov e m _ => c.modEng e fun g => { g with moves := g.moves.filter (fun x => !(x.prog == m && x.x.busy)) }
    | .lrn => c.setLrn fun l => { l with ntf := none }
    | .ext (.cust u) => { c.modCust u.val (fun q => { q with ntf := [] }) with cport := { c.cport with inq := c.cport.inq.drop 1 } }
    | _ => c) c
  forN 8 (fun e c => c.showEng e) c

/-- A tile's core returns to its reset state, stopped, and its halt ends; the vector unit's power goes on as it is (R359, R470,
R972). -/
def resetCore (c : Chip) (t : Nat) : Chip :=
  let fill := (c.core t).run == .filling
  let c := c.modCore t fun x => { idleAt := c.cycle, wakeEnd := x.wakeEnd, relAt := c.now, issued := x.issued }
  let c := (c.wb R.DBG.HSTAT t false).w (R.DBG.HCAUSE t) 0
  let c := { c with dbg := { c.dbg with haltReq := c.dbg.haltReq.filter (fun h => h.1 != t), stepping := c.dbg.stepping.filter (· != t)
                                        resumeDue := c.dbg.resumeDue.filter (· != t) } }
  if fill then ({ c with pstore := c.pstore.zero (t * 0x20000) 0x18000 }).w (R.TILE.PFSTAT t) 0 else c

/-- The state of a tile's TILE page: core, rings, slip log, queues of its requesters (R107, R242, R359). -/
def resetTile (c : Chip) (t : Nat) : Chip :=
  let c := (c.custEndTile t).dropStalled t
  let c := c.resetCore t
  let c := c.modSp t fun s => { s with rings := List.replicate 16 {}, slips := [] }
  let pwr := c.rf (R.TILE.VSTAT t) 1 0
  let c := { c with ports := modNth (fun p => { p with queue := [] }) c.ports t }
  (c.resetRegs (slotTile t)).wf (R.TILE.VSTAT t) 1 0 pwr

/-- Reset the state of a page's block, clear PIRQS and lock the page (R107). -/
def resetPage (c : Chip) (slot : Nat) : Chip :=
  let c := match pageOf slot with
    | some (.tile, t) => c.resetTile t
    | some (.ary, t) => (c.aryDiscard t).resetRegs slot
    | some (.drn, t) => (c.drnDiscard t).resetRegs slot
    | _ => c
  (c.w (R.H.PIRQS slot) 0).lockPage slot

/-- A write of PCTL.SRST = 1 (R107): BUSY stands until the reset completes. -/
def softReset (c : Chip) (slot : Nat) : Chip :=
  let c := c.resetPage slot
  { c with bus := { c.bus with srst := if c.bus.srst.contains slot then c.bus.srst else slot :: c.bus.srst } }

/-! ### Freezing pages -/

/-- A freeze ends: the block resumes from the state it held (R108). -/
def unfreeze (c : Chip) (slot : Nat) : Chip :=
  let c := (c.wb (R.H.PCTL slot) 2 false).wb (R.H.PSTAT slot) 6 false
  let c := { c with bus := { c.bus with frzing := c.bus.frzing.filter (· != slot), unfrz := c.bus.unfrz.filter (· != slot) } }
  match pageOf slot with
  | some (.tile, t) => c.syncCore t
  | _ => c

/-- FRZ = 0 writes that waited take effect once a page is no longer busy (R171). -/
def unfreezeDue (c : Chip) (slot : Nat) : Chip :=
  if c.bus.unfrz.contains slot && !c.pageBusy slot then c.unfreeze slot else c

/-- A soft reset completes (R107). -/
def softResetDone (c : Chip) (slot : Nat) : Chip :=
  ({ c with bus := { c.bus with srst := c.bus.srst.filter (· != slot) } }).unfreezeDue slot

/-- A page is asked to freeze (R108). -/
def freezeAsk (c : Chip) (slot : Nat) : Chip :=
  let c := c.wb (R.H.PCTL slot) 2 true
  let c := { c with bus := { c.bus with frzing := if c.bus.frzing.contains slot then c.bus.frzing else slot :: c.bus.frzing,
                                        unfrz := c.bus.unfrz.filter (· != slot) } }
  match pageOf slot with
  | some (.tile, t) => c.syncCore t
  | _ => c

/-- A core stands: it issues nothing. -/
def coreStands (c : Chip) (k : Nat) : Bool := match (c.core k).run with | .stopped | .frozen | .filling | .halted => true | _ => false

/-- A page has come to its stopping point (R108): a core has stopped (R358), an array slice and a drain unit finish the rows
they have read (R544, R579), an engine stands between bursts (R628), the learning engine has ended what runs (R707). -/
def pageFrozen (c : Chip) (slot : Nat) : Chip :=
  if !c.rb (R.H.PCTL slot) 2 || c.rb (R.H.PSTAT slot) 6 then c
  else
    let done (c : Chip) : Chip := ({ c with bus := { c.bus with frzing := c.bus.frzing.filter (· != slot) } }).wb (R.H.PSTAT slot) 6 true
    match pageOf slot with
    | some (.tile, t) => let c := c.syncCore t; if c.coreStands t then done c else c
    | some (.ary, t) => done (c.aryFinish t)
    | some (.drn, t) => done (c.drnFinish t)
    | some (.dma, _) => done c
    | some (.lrn, _) => if (c.lstate = 0 ∨ c.lstate = 2) ∧ ¬c.rb R.LRN.LSTAT 3 then done c else c
    | _ => c

/-- A write of PCTL (R106 to R108). -/
def pctlWrite (c : Chip) (who : Who) (slot : Nat) (val : BitVec 32) : Chip :=
  match pageOf slot with
  | none => c
  | some (k, _) =>
    let was := c.rb (R.H.PCTL slot) 2
    let c := (c.putReg who (R.H.PCTL slot) val).wb (R.H.PCTL slot) 2 (was && k.hasFrz)
    let c := if !k.hasFrz then c
      else if bit val 2 then (if was then { c with bus := { c.bus with unfrz := c.bus.unfrz.filter (· != slot) } } else c.freezeAsk slot)
      else if !was then c
      else if c.pageBusy slot then { c with bus := { c.bus with unfrz := if c.bus.unfrz.contains slot then c.bus.unfrz else slot :: c.bus.unfrz } }
      else c.unfreeze slot
    if k.hasSrst && bit val 1 then c.softReset slot else c

/-- A write of PERRC: CLR clears the capture (R110). -/
def perrcWrite (c : Chip) (slot : Nat) (val : BitVec 32) : Chip :=
  let c := c.noteRsv (R.H.PERRC slot) val
  if bit val 31 then ((c.w (R.H.PERRC slot) 0).w64 (R.H.PERRA_LO slot) 0).wb (R.H.PSTAT slot) 1 false else c

/-- A write of PIRQF: each 1 sets its PIRQS bit, and PTICK follows (R124). -/
def pirqfWrite (c : Chip) (slot : Nat) (val : BitVec 32) : Chip :=
  match pageOf slot with
  | none => c
  | some (k, _) =>
    let c := c.noteRsv (R.H.PIRQF slot) val
    let m := val.toNat &&& k.irqMask
    if m = 0 then c else (c.setIrq slot m).w (R.H.PTICK slot) (BitVec.ofNat 32 c.fnum)

/-! ### The kennel map -/

/-- Granules of a valid staging range: base and last. -/
abbrev GRange := Nat × Nat

def stHrng (c : Chip) (k : Nat) : List GRange :=
  ((List.range 4).filter (fun j => c.rb (R.KMAP.KATTR k) j)).map (fun j =>
    (c.rf (R.KMAP.HRNG (4 * k + j)) 11 0, c.rf (R.KMAP.HRNG (4 * k + j)) 23 12))
def stLrng (c : Chip) (k : Nat) : List GRange :=
  ((List.range 2).filter (fun j => c.rb (R.KMAP.KATTR k) (4 + j))).map (fun j =>
    (c.rf (R.KMAP.LRNG (2 * k + j)) 8 0, c.rf (R.KMAP.LRNG (2 * k + j)) 17 9))
def stTrng (c : Chip) (k : Nat) : List GRange :=
  if c.rb (R.KMAP.KATTR k) 6 then [(c.rf (R.KMAP.TRNG k) 9 0, c.rf (R.KMAP.TRNG k) 19 10)] else []

/-- Owner of a tile under the staging map. -/
def stOwner (c : Chip) (t : Nat) : Nat :=
  if t < 8 then c.rf R.KMAP.TOWN0 (3 * t + 2) (3 * t) else c.rf R.KMAP.TOWN1 (3 * (t - 8) + 2) (3 * (t - 8))

/-- Ranges of two different kennels overlap. -/
def crossing (f : Nat → List GRange) : Bool :=
  (List.range 8).any (fun a => (List.range a).any (fun b => (f a).any (fun x => (f b).any (fun y => x.1 ≤ y.2 && y.1 ≤ x.2))))

/-- A DMA job, or a command of its units, of a tile is in flight (R169). -/
def tileBusy (c : Chip) (t : Nat) : Bool :=
  !(nth {} c.ports t).queue.isEmpty || c.engines.any (fun g => g.jobs.any (fun j => j.who == t))
    || !(c.arySt t).queue.isEmpty || !(c.arySt t).runs.isEmpty || (c.arySt t).loading.isSome
    || !(c.drnSt t).queue.isEmpty || !(c.drnSt t).jobs.isEmpty

/-- A tile whose owner changes may not change it now, or a tile that is disabled or not built is given away (R169). -/
def ownerBad (c : Chip) (t : Nat) : Bool :=
  let live := c.tiles ≤ t || !c.surv t
  (live && c.stOwner t != 0) ||
  (!live && c.stOwner t != c.owner t &&
    (!(List.all [slotTile t, slotAry t, slotDrn t] (fun s => c.rb (R.H.PSTAT s) 6)) || c.napped t || c.tileBusy t))

/-- Why the staging map cannot be committed: 0 when it can (R169, R991). -/
def mapWhy (c : Chip) : Nat :=
  let ks := List.range 8
  let all (f : Nat → List GRange) : List GRange := ks.flatMap f
  let sum (h l : Nat) : Nat := ks.foldl (fun n k => n + c.rf (R.KMAP.CSH0 + 4 * k) h l) 0
  if (all c.stHrng ++ all c.stLrng ++ all c.stTrng).any (fun g => g.2 < g.1) then 1
  else if (all c.stHrng).any (fun g => decide (1024 * c.stackCnt ≤ g.2) ||
        (List.range 4).any (fun s => !c.surv (16 + s) && decide (g.1 < 1024 * (s + 1)) && decide (1024 * s ≤ g.2)))
      || (all c.stLrng).any (fun g => decide (384 ≤ g.2) || !c.surv 28) then 2
  else if crossing c.stHrng || crossing c.stLrng || crossing c.stTrng then 3
  else if ks.any (fun k => k != 0 && (c.stTrng k).any (fun g => g.1 < 8)) then 4
  else if 56 < sum 5 0 ∨ 16 < sum 12 8 then 5
  else if (List.range 16).any c.ownerBad then 6
  else if c.rf R.KMAP.MISC 2 0 ≠ c.lrnk ∧ ¬c.rb (R.H.PSTAT 0x00E) 6 then 7
  else if ks.any (fun k => c.kstate k == 1 || c.kstate k == 3) then 8
  else 0

/-- A tile takes a new owner (R171, R359, R547, R581): its pages are soft-reset, its program store emptied and its memories
filled with zeros. -/
def newOwner (c : Chip) (t : Nat) : Chip :=
  let c := ((c.softReset (slotTile t)).softReset (slotAry t)).softReset (slotDrn t)
  let c := ({ c with pstore := c.pstore.zero (t * 0x20000) 0x18000 }).w (R.TILE.PFSTAT t) 0
  (c.unitFill t).modSp t fun s => { s with fillAll := true }

/-- A commit is refused (R169). -/
def commitRefuse (c : Chip) (why : Nat) : Chip :=
  (((c.wb R.KMAP.CSTAT 0 false).wb R.KMAP.CSTAT 1 true).wf R.KMAP.CSTAT 7 4 why).event 0x00C 0x0511

/-- Commit the staging map (R168, R169, R171); `also` is a further reason to refuse it. -/
def commitMap (c : Chip) (also : Nat) : Chip :=
  let why := if c.mapWhy ≠ 0 then c.mapWhy else also
  if why ≠ 0 then c.commitRefuse why
  else
    let moved := (List.range c.tiles).filter (fun t => c.stOwner t != c.owner t)
    let offs := [0x040, 0x044, 0x048] ++ (List.range 108).map (fun i => 0x050 + 4 * i)
    let c := offs.foldl (fun c o => c.w (0xC400 + o) (c.r (0xC000 + o))) c
    let c := (c.inc R.KMAP.CSEQ 31 0 1).wb R.KMAP.CSTAT 0 false
    moved.foldl newOwner c

/-- A deferred commit takes effect: in cycle 0 of a tick head, or in the first cycle of a ledger round (R167). -/
def commitHead (c : Chip) : Chip := if c.rb R.KMAP.CSTAT 0 then c.commitMap 0 else c

/-- A write of CMT (R167, R169, R179). -/
def cmtWrite (c : Chip) (who : Who) (val : BitVec 32) : Chip :=
  let c := c.noteRsv R.KMAP.CMT val
  if !bit val 0 then c
  else if !c.rwlOk who 0x00C then c.lockedWrite who R.KMAP.CMT
  else if c.rb R.KMAP.CSTAT 0 then c.commitRefuse (if c.mapWhy ≠ 0 then c.mapWhy else 9)
  else if bit val 1 then c.wb R.KMAP.CSTAT 0 true
  else c.commitMap 0

/-- The zero-fill after an owner change completes (R171). -/
def fillDone (c : Chip) (t : Nat) : Chip :=
  if !(c.scratch t).fillAll then c
  else
    let c := (c.spZero t 0 0x800000).modSp t fun s => { s with fillAll := false }
    [slotTile t, slotAry t, slotDrn t].foldl (fun c s => c.softResetDone s) c

/-! ### Freeze and reset of kennels -/

def modKen (c : Chip) (k : Nat) (f : KennelSt → KennelSt) : Chip := { c with kens := modNth f c.kens k }
def ken (c : Chip) (k : Nat) : KennelSt := nth {} c.kens k
def setKstate (c : Chip) (k v : Nat) : Chip := c.wf (R.KMAP.KSTAT k) 1 0 v

/-- A write of KCTL (R174, R175). -/
def kctlWrite (c : Chip) (who : Who) (k : Nat) (val : BitVec 32) : Chip :=
  let was := c.rb (R.KMAP.KCTL k) 0
  let c := c.putReg who (R.KMAP.KCTL k) val
  let st := c.kstate k
  if bit val 1 ∧ st ≠ 3 then
    let c := c.modKen k fun s => { s with rstSeq := true, tiles := c.tilesOf k }
    if st = 2 then c.setKstate k 3 else (c.setKstate k 1).syncKennel k
  else if bit val 0 ∧ ¬was ∧ st = 0 then
    ((c.modKen k fun s => { s with tiles := c.tilesOf k }).setKstate k 1).syncKennel k
  else if ¬bit val 0 ∧ was ∧ st = 2 then (c.setKstate k 0).syncKennel k
  else c

/-- A fill of a core that a kennel fault or reset meets is cut, and the program store is empty (R359). -/
def cutFill (c : Chip) (t : Nat) : Chip := if (c.core t).run = .filling then c.resetCore t else c

/-- The freeze step of a kennel is complete (R155): its cores stand, and its units finish what they have read. -/
def freezeDone (c : Chip) (k : Nat) : Chip :=
  let ts := (c.ken k).tiles
  let c := ts.foldl syncCore c
  if c.kstate k ≠ 1 ∨ ¬ts.all c.coreStands then c
  else
    let c := ts.foldl (fun c t => (c.aryFinish t).drnFinish t) c
    if (c.ken k).fltSeq || (c.ken k).rstSeq then (ts.foldl cutFill c).setKstate k 3
    else if c.rb (R.KMAP.KCTL k) 0 || c.pwr.deep != 0 then c.setKstate k 2
    else (c.setKstate k 0).syncKennel k

/-- Discard what a kennel has queued and running (R155, R705). -/
def discardKennel (c : Chip) (k : Nat) : Chip :=
  let ts := (c.ken k).tiles
  let c := c.discardJobs (fun j => j.ken == k)
  let c := ts.foldl (fun c t => ({ c with ports := modNth (fun p => { p with queue := [] }) c.ports t }).showPort t) c
  let c := if k = 0 then
      ({ c with ports := modNth (fun p => { p with queue := p.queue.filter (fun q => match q.ent with | .dmaj .. => false | _ => true) })
                  c.ports 16 }).showPort 16
    else c
  let c := if k = c.lrnk then c.lrnDiscard else c
  ts.foldl custEndTile c

/-- The reset step of a kennel is complete (R155, R174, R175, R359, R874). -/
def resetDone (c : Chip) (k : Nat) : Chip :=
  if c.kstate k ≠ 3 then c
  else
    let ts := (c.ken k).tiles
    let c := ts.foldl cutFill (c.discardKennel k)
    let c := ts.foldl (fun c t => ((c.resetPage (slotTile t)).resetPage (slotAry t)).resetPage (slotDrn t)) c
    let c := if (c.ken k).inRes then { c with elg := { c.elg with
        pool := c.elg.pool + (nth 0 c.elg.res k * 1000000 - nth 0 c.elg.chg k), rsv := modNth (fun _ => false) c.elg.rsv k
        res := modNth (fun _ => 0) c.elg.res k } } else c
    let c := c.modKen k fun _ => {}
    c.setKstate k (if c.rb (R.KMAP.KCTL k) 0 then 2 else 0)

/-! ### Allocation entries -/

/-- A write of ARWR: the staged image enters one allocation entry (R161). -/
def arwrWrite (c : Chip) (val : BitVec 32) : Chip :=
  let c := c.noteRsv R.TBL.ARWR val
  if !bit val 31 then c
  else
    let a := 0x2800000000 + fld val 10 8 * 0x1000 + 16 * fld val 7 0
    c.eccWrite .table a ((List.range 4).flatMap (fun i => bytesLE 4 (c.r (R.TBL.ARSTG i)).toNat))

end Chip

/-- SOFT_RESET_DONE (R107), by page slot. -/
def execSoftResetDone (slot : BitVec 12) (s : State) : Host.Outcome State Fault Refusal :=
  s.up fun c => if c.bus.srst.contains slot.toNat then c.softResetDone slot.toNat else c

/-- BLOCK_FROZEN (R108), by page slot. -/
def execBlockFrozen (slot : BitVec 12) (s : State) : Host.Outcome State Fault Refusal := s.up fun c => c.pageFrozen slot.toNat

/-- RING_ACTIVATE_DONE (R228). -/
def execRingActivateDone (t : TileId) (ctx : Fin 16) (s : State) : Host.Outcome State Fault Refusal :=
  s.up fun c => (c.ringActivateDone t.val ctx.val).settle

/-- RING_STALL_TIMEOUT (R216). -/
def execRingStallTimeout (t : TileId) (ctx : Fin 16) (s : State) : Host.Outcome State Fault Refusal :=
  s.up fun c => (c.ringTimeout t.val ctx.val).settle

/-- SPPROT_ZERO_FILL_DONE (R236). -/
def execSpprotZeroFillDone (t : TileId) (s : State) : Host.Outcome State Fault Refusal := s.up fun c => (c.spprotFillDone t.val).settle

/-- SCRATCHPAD_SCRUB_PASS (R207): errors that strike memory first, then the pass over the WGT or the STD quads. -/
def execScratchpadScrubPass (t : TileId) (wgt : Bool) (errs : List (BitVec 48 × Bool)) (s : State) :
    Host.Outcome State Fault Refusal := s.up fun c => (c.strike errs).scrubPass t.val wgt

/-- TILE_ZERO_FILL_DONE (R171). -/
def execTileZeroFillDone (t : TileId) (s : State) : Host.Outcome State Fault Refusal := s.up fun c => (c.fillDone t.val).settle

/-- KENNEL_FREEZE_DONE (R155). -/
def execKennelFreezeDone (k : Fin 8) (s : State) : Host.Outcome State Fault Refusal := s.up fun c => (c.freezeDone k.val).settle

/-- KENNEL_RESET_DONE (R155). -/
def execKennelResetDone (k : Fin 8) (s : State) : Host.Outcome State Fault Refusal := s.up fun c => (c.resetDone k.val).settle

end Sys2Proof.Machine
end

