-- ==== Sys2Proof/Machine/Ingest.lean ====
section
/-!
DEFINITION. Camera ingest over CoaXPress: links, groups, the pairing of lines with line ticks, landing and loss, images,
triggers and the control mailbox.
-/
namespace Sys2Proof.Machine

/-- Bytes that a stored line of pixels takes (R715): by SFMT. -/
def lineBytes (sf w : Nat) : Nat := match sf with | 0 => w | 1 => 3 * ((w + 1) / 2) | _ => 2 * w

/-- A pixel as it is stored (R714). -/
def pixOut (pf sf : Nat) (p : BitVec 16) : Nat :=
  if sf = 0 then (match pf with | 0 => p.toNat | 1 => p.toNat / 4 | 2 => p.toNat / 16 | _ => p.toNat / 256) % 256
  else if sf = 1 then p.toNat % 4096
  else p.toNat

/-- The format codes of R475 by SFMT (R725). -/
def sfCode (sf : Nat) : Nat := match sf with | 0 => 0 | 1 => 2 | _ => 3

namespace Chip

abbrev ingSlot : Nat := 0x010

def igrp (c : Chip) (g : Nat) : IngGroup := nth {} c.ing.groups g
def gEn (c : Chip) (g : Nat) : Bool := c.rb (R.ING.GCFG g) 0
def gImage (c : Chip) (g : Nat) : Bool := c.rb (R.ING.GCFG g) 1
def gSf (c : Chip) (g : Nat) : Nat := c.rf (R.ING.GCFG g) 11 10
def gPf (c : Chip) (g : Nat) : Nat := c.rf (R.ING.GCFG g) 9 8
def gWidth (c : Chip) (g : Nat) : Nat := c.rf (R.ING.GWID g) 17 0
def gFill (c : Chip) (g : Nat) : BitVec 8 := BitVec.ofNat 8 (c.rf (R.ING.GCFG g) 23 16)

/-- The links of a group: its master link first (R710). -/
def gLinks (v : BitVec 32) : List Nat := List.range' (fld v 5 2) (2 ^ fld v 7 6)

/-- Change a group; OUT counts the lines that wait (R738). -/
def modGrp (c : Chip) (g : Nat) (f : IngGroup → IngGroup) : Chip :=
  let c := { c with ing := { c.ing with groups := modNth f c.ing.groups g } }
  c.wf (R.ING.GSTAT g) 13 2 (c.igrp g).queue.length

/-- Write pixels of a row from pixel `i` on, the row's bytes beginning at an address; bytes from `lim` on are discarded. -/
def putPix (c : Chip) (pf sf row lim i : Nat) : List (BitVec 16) → Chip
  | [] => c
  | p :: rest =>
    let v := pixOut pf sf p
    let wr (c : Chip) (a : Nat) (bs : List (BitVec 8)) : Chip := if a + bs.length ≤ lim then c.eccWrite .line a bs else c
    let c := if sf = 0 then wr c (row + i) [BitVec.ofNat 8 v]
      else if sf = 1 then
        (if i % 2 = 0 then wr c (row + 3 * (i / 2)) [BitVec.ofNat 8 v, BitVec.ofNat 8 (v / 256), 0]
         else wr c (row + 3 * (i / 2) + 1)
           [BitVec.ofNat 8 ((c.getByte .line (row + 3 * (i / 2) + 1)).toNat % 16 + v % 16 * 16), BitVec.ofNat 8 (v / 16)])
      else wr c (row + 2 * i) (bytesLE 2 v)
    putPix c pf sf row lim (i + 1) rest

/-- Write the fill byte over a range of the line store (R722, R724, R731). -/
def fillLine (c : Chip) (a n : Nat) (b : BitVec 8) : Chip := c.eccWrite .line a (List.replicate n b)

/-! ### Landing and loss -/

/-- The 64 metadata bytes of a line (R725). -/
def lineMeta (c : Chip) (g : Nat) (x : ExpLine) (why : Nat) : List (BitVec 8) :=
  let w := c.gWidth g
  let flags := b2n (why != 0) + 2 * b2n (why == 0 && x.npix < w) + 4 * b2n (why == 0 && x.long) + 8 * b2n x.test + 16 * b2n x.tdrop
  bytesLE 4 x.n ++ bytesLE 8 x.frame ++ bytesLE 2 x.row ++ bytesLE 2 flags ++ bytesLE 8 x.tgt ++ bytesLE 8 c.gtime
    ++ bytesLE 4 x.pos ++ bytesLE 4 (min x.npix w) ++ [BitVec.ofNat 8 g, BitVec.ofNat 8 (sfCode (c.gSf g)), BitVec.ofNat 8 why]
    ++ zeros 21

/-- A line takes its slot: what lies there is no longer an older line (R277). -/
def takeSlot (c : Chip) (g : Nat) (x : ExpLine) : Chip := { c with landing := putKey 0 (g * 4096 + x.slot) (x.n + 1) c.landing }

/-- The metadata of line `i` of a group's queue is written: the line lands or is declared lost, and line moves are issued
(R609, R720, R724). -/
def lineMark (c : Chip) (g i : Nat) (x : ExpLine) (why : Nat) : Chip :=
  let c := ((c.takeSlot g x).meter ingSlot 1 8 1).eccWrite .line (c.viewSlot g x.slot) (c.lineMeta g x why)
  let c := c.modGrp g fun u => { u with queue := u.queue.eraseIdx i }
  c.lineMoveIssue g x.n x.slot x.frame x.row

/-- Line `i` of a group's queue is lost (R723, R724). -/
def lineLost (c : Chip) (g i why : Nat) : Chip :=
  match (c.igrp g).queue[i]? with
  | none => c
  | some x =>
    let c := c.fillLine (c.viewSlot g x.slot + 64) (lineBytes (c.gSf g) (c.gWidth g)) (c.gFill g)
    let c := if x.begun && !x.ended then c.modGrp g fun u => { u with skip := true } else c
    let c := (c.lineMark g i x why).modFrame x.frame fun r => { r with lost := r.lost + 1 }
    (c.cnt (R.ING.GCNT g) 15 0 1).eventOnce ingSlot 0x0701 g

/-- Every waiting line of a group that a test selects is lost, oldest first, by fuel. -/
def loseAll (c : Chip) (g why : Nat) (p : ExpLine → Bool) : Nat → Chip
  | 0 => c
  | n + 1 => match (c.igrp g).queue.findIdx? p with
    | some i => loseAll (c.lineLost g i why) g why p n
    | none => c

/-- The lines whose deadline has passed are lost (R721); those whose window has closed before they began are lost (R717). -/
def loseLate (c : Chip) (g : Nat) : Chip := c.loseAll g 2 (·.dead) (c.igrp g).queue.length
def loseClosed (c : Chip) (g : Nat) : Chip :=
  c.loseAll g 1 (fun x => !x.begun && x.at_ + ns (c.rf (R.ING.GWIN g) 19 0) < c.now) (c.igrp g).queue.length

/-- LINE_LANDED: the oldest line whose payload has ended lands (R720, R722). -/
def lineLanded (c : Chip) (g : Nat) : Chip :=
  let c := c.loseLate g
  match (c.igrp g).queue.findIdx? (fun x => x.begun && x.ended) with
  | none => c
  | some i =>
    match (c.igrp g).queue[i]? with
    | none => c
    | some x =>
      let w := c.gWidth g
      let sf := c.gSf g
      let have_ := lineBytes sf (min x.npix w)
      let c := if x.npix < w then c.fillLine (c.viewSlot g x.slot + 64 + have_) (lineBytes sf w - have_) (c.gFill g) else c
      let c := if x.npix < w ∨ x.long then (c.cnt (R.ING.GCNT2 g) 15 0 1).eventOnce ingSlot 0x0703 g else c
      c.lineMark g i x 0

/-! ### What the tick unit does to ingest -/

/-- A line tick: the write slot of each enabled view ring is claimed, and each enabled LINE group gets an expected line; a
triggered group's trigger falls due after TROFS (R79, R274, R716, R721, R727, R733). -/
def ingLineTick (c : Chip) (frame row pos : Nat) (test : Bool) (trg : BitVec 32) : Chip :=
  forN 8 (fun g c =>
    if !c.rb (R.LST.LRCFG g) 31 then c
    else
      let ((n, slot), c) := c.viewClaim g
      if !(c.gEn g && !c.gImage g) then c
      else
        let nl := c.rf (R.LST.LRCFG g) 21 9
        let c := c.modGrp g fun u => { u with queue := u.queue.map (fun x => if x.n + nl ≤ n then { x with dead := true } else x) }
        let c := c.loseLate g
        let x : ExpLine := { n := n, frame := frame, row := row, slot := slot, at_ := c.now, tgt := c.gtime, pos := pos, test := test }
        let due := if bit trg g then [(n, c.now + ns (fld trg 19 8))] else []
        let c := c.modGrp g fun u => { u with queue := u.queue ++ [x], trig := u.trig ++ due }
        if c.rf (R.ING.GSTAT g) 1 0 = 2 then c.lineLost g ((c.igrp g).queue.length - 1) 4 else c) c

/-- The edge E(f + 1) is the deadline of every line of frame f (R721, R726). -/
def ingEdge (c : Chip) (k : Nat) : Chip :=
  forN 8 (fun g c => if (c.igrp g).queue.isEmpty then c
    else c.modGrp g fun u => { u with queue := u.queue.map (fun x => if x.frame < k then { x with dead := true } else x) }) c

/-! ### Images -/

/-- First byte of the image buffer in use, and its end (R730). -/
def imgBase (c : Chip) (g : Nat) : Nat :=
  let nb := max 1 (c.rf (R.ING.GIMG g) 20 16)
  0x2000000000 + c.rf (R.ING.GIMG g) 8 0 * 0x10000 + (c.igrp g).seq % nb * (c.rf (R.ING.GIPIT g) 20 0 * 64)
def imgEnd (c : Chip) (g : Nat) (x : ImgRx) : Nat := x.base + c.rf (R.ING.GIPIT g) 20 0 * 64

/-- IMAGE_LANDED: what was not received is filled, the header is written last, and the image lands (R731, R739). -/
def imageLanded (c : Chip) (g : Nat) : Chip :=
  match (c.igrp g).img with
  | none => c
  | some x =>
    if !x.ended then c
    else
      let sf := c.gSf g
      let row := lineBytes sf x.xsize
      let total := row * x.ysize
      let got := x.pix / max 1 x.xsize * row + lineBytes sf (x.pix % max 1 x.xsize)
      let room := c.imgEnd g x - (x.base + 64)
      let c := if got < min total room then c.fillLine (x.base + 64 + got) (min total room - got) (c.gFill g) else c
      let part := x.part || x.pix < x.xsize * x.ysize || room < total
      let s := (c.igrp g).seq
      let h := bytesLE 4 s ++ bytesLE 8 x.fnum ++ zeros 4 ++ bytesLE 8 x.fgt ++ bytesLE 8 c.gtime ++ bytesLE 4 x.xsize
        ++ bytesLE 4 x.ysize ++ bytesLE 2 (b2n part + 2 * b2n x.crc) ++ [BitVec.ofNat 8 (sfCode sf)] ++ zeros 21
      let c := c.eccWrite .line x.base h
      let c := c.modGrp g fun u => { u with img := none, seq := s + 1 }
      let c := (c.wf (R.ING.GSTAT g) 31 16 s).setIrq ingSlot (2 ^ g)
      if part then (c.cnt (R.ING.GCNT g) 15 0 1).event ingSlot 0x0708 else c

/-- An image that is being received ends early (R731). -/
def imgCut (c : Chip) (g : Nat) : Chip :=
  c.modGrp g fun u => { u with img := u.img.map (fun x => if x.ended then x else { x with ended := true, part := true }) }

/-- Write pixels of an image, row by row, by fuel (R730). -/
def putRows (c : Chip) (pf sf lim base xs : Nat) : Nat → Nat → List (BitVec 16) → Chip
  | 0, _, _ => c
  | _, _, [] => c
  | f + 1, at_, ps =>
    let r := at_ / max 1 xs
    let i := at_ % max 1 xs
    let n := max 1 (xs - i)
    putRows (c.putPix pf sf (base + 64 + r * lineBytes sf xs) lim i (ps.take n)) pf sf lim base xs f (at_ + min n ps.length) (ps.drop n)

/-- A stream packet of an IMAGE group (R731). -/
def imgPacket (c : Chip) (g : Nat) (p : StreamPkt) : Chip :=
  let c := match p.img with
    | some (xs, ys) =>
      let c := if (c.igrp g).img.isSome then (c.imgCut g).imageLanded g else c
      let b := c.imgBase g
      let c := c.eccWrite .line b (List.replicate 4 (0xFF : BitVec 8))
      c.modGrp g fun u => { u with img := some { base := b, fnum := c.fnum, fgt := c.gtime, xsize := xs.toNat, ysize := ys.toNat } }
    | none => c
  match (c.igrp g).img with
  | none => c
  | some x =>
    if x.ended then c
    else
      let room := x.xsize * x.ysize - x.pix
      let ps := p.pix.take room
      let f := (c.gFill g).toNat
      let fill (j : Nat) : BitVec 16 := BitVec.ofNat 16 (if c.gSf g = 1 ∧ (x.pix + j) % max 1 x.xsize % 2 = 1 then f * 16 + f / 16 else f * 257)
      let c := if p.crcOk then c.putRows (c.gPf g) (c.gSf g) (c.imgEnd g x) x.base x.xsize (ps.length + 1) x.pix ps
        else c.putRows 0 (c.gSf g) (c.imgEnd g x) x.base x.xsize (ps.length + 1) x.pix ((List.range ps.length).map fill)
      let pix := x.pix + ps.length
      c.modGrp g fun u => { u with img := u.img.map (fun y => { y with
        pix := pix, part := y.part || !p.crcOk, crc := y.crc || !p.crcOk, ended := p.last || decide (x.xsize * x.ysize ≤ pix) }) }

/-! ### Stream packets of LINE groups -/

/-- A new line begins: it pairs with the oldest expected line that has not begun, or is unsolicited (R717, R718). -/
def lineBegin (c : Chip) (g : Nat) (p : StreamPkt) : Chip :=
  let c := c.loseClosed g
  let c := c.modGrp g fun u => { u with skip := false, queue := u.queue.map (fun x => if x.begun then { x with ended := true } else x) }
  match (c.igrp g).queue.findIdx? (fun x => !x.begun) with
  | none => ((c.cnt (R.ING.GCNT g) 31 16 1).eventOnce ingSlot 0x0702 g).modGrp g fun u => { u with skip := true }
  | some i =>
    let c := c.modGrp g fun u => { u with queue := modNth (fun x => { x with begun := true }) u.queue i }
    let c := match (c.igrp g).queue[i]? with | some x => c.takeSlot g x | none => c
    if p.pfmt = some (BitVec.ofNat 2 (c.gPf g)) then c else c.lineLost g i 5

/-- A stream packet of a LINE group (R717 to R723). -/
def linePacket (c : Chip) (g : Nat) (p : StreamPkt) : Chip :=
  let c := c.loseLate g
  let c := if p.first then c.lineBegin g p else c
  if (c.igrp g).skip then c
  else
    match (c.igrp g).queue.findIdx? (fun x => x.begun && !x.ended) with
    | none => c
    | some i =>
      match (c.igrp g).queue[i]? with
      | none => c
      | some x =>
        if !p.crcOk then c.lineLost g i 3
        else
          let w := c.gWidth g
          let c := c.putPix (c.gPf g) (c.gSf g) (c.viewSlot g x.slot + 64) (c.viewSlot g x.slot + 64 + lineBytes (c.gSf g) w)
            x.npix (p.pix.take (w - x.npix))
          c.modGrp g fun u => { u with queue := modNth (fun x => { x with
            npix := x.npix + p.pix.length, long := x.long || decide (w < x.npix + p.pix.length), ended := p.last }) u.queue i }

/-- A stream packet arrives on a link of a group. -/
def streamPacket (c : Chip) (g : Nat) (p : StreamPkt) : Chip :=
  let l := p.link.val
  if !c.gEn g || c.rf (R.ING.GSTAT g) 1 0 != 1 || !(gLinks (c.r (R.ING.GCFG g))).contains l then c
  else
    let bits := match c.gPf g with | 0 => 8 | 1 => 10 | 2 => 12 | _ => 16
    let c := (c.cnt (R.ING.LNKERR l) 15 0 p.cerr.toNat).meter ingSlot 0 8 ((p.pix.length * bits + 7) / 8)
    let c := if p.crcOk then c else (c.cnt (R.ING.LNKERR l) 23 16 1).eventOnce ingSlot 0x0704 l
    if p.strid.toNat ≠ c.rf (R.ING.GCFG g) 31 24 then (c.cnt (R.ING.GCNT g) 31 16 1).eventOnce ingSlot 0x0702 g
    else if c.gImage g then c.imgPacket g p
    else c.linePacket g p

/-! ### Links and groups -/

def linkUp (c : Chip) (l : Nat) : Bool := c.rb (R.ING.LNKST l) 1

/-- A group follows its links: UP while all are up, else DOWN, and then its lines are lost (R733). -/
def groupSync (c : Chip) (g : Nat) : Chip :=
  if !c.gEn g then c
  else
    let up := (gLinks (c.r (R.ING.GCFG g))).all c.linkUp
    let st := c.rf (R.ING.GSTAT g) 1 0
    let want := if up then 1 else 2
    if st = want then c
    else
      let c := ((c.wf (R.ING.GSTAT g) 1 0 want).setIrq ingSlot (2 ^ (8 + g))).event ingSlot (if up then 0x0706 else 0x0705)
      if up then c else ((c.loseAll g 4 (fun _ => true) (c.igrp g).queue.length).imgCut g).modGrp g fun u => { u with skip := true }

/-- A link's lock and liveness change; the groups follow. -/
def setLink (c : Chip) (l : Nat) (lock up : Bool) : Chip :=
  let c := (c.wb (R.ING.LNKST l) 0 lock).wb (R.ING.LNKST l) 1 up
  forN 8 (fun g c => c.groupSync g) c

def lnkEn (c : Chip) (l : Nat) : Bool := decide (l < c.cxps) && c.rb (R.ING.LNKCTL l) 8

/-- A heartbeat stands: one has arrived within HBTO (R733). -/
def hbFresh (c : Chip) (l : Nat) : Bool :=
  match nth none c.ing.hb l with
  | none => false
  | some t => decide (c.now < t + ms (c.rf R.ING.HBTO 15 0))

/-- LINK_LOCK (R733). -/
def linkLock (c : Chip) (l : Nat) : Chip :=
  if !c.lnkEn l || c.rb (R.ING.LNKST l) 0 then c
  else
    let c := c.waitTo (nth 0 c.ing.since l + ms 1)
    c.setLink l true (c.hbFresh l)

/-- A camera's heartbeat arrives (R733). -/
def cameraHeartbeat (c : Chip) (l : Nat) : Chip :=
  if !c.lnkEn l then c
  else
    let c := { c with ing := { c.ing with hb := c.ing.hb.set l (some c.now) } }
    if c.rb (R.ING.LNKST l) 0 then c.setLink l true true else c

/-- No heartbeat for HBTO milliseconds takes a link down (R733). -/
def heartbeatTimeout (c : Chip) (l : Nat) : Chip :=
  if !c.linkUp l then c
  else
    let c := c.waitTo ((nth none c.ing.hb l).getD 0 + ms (c.rf R.ING.HBTO 15 0))
    c.setLink l (c.rb (R.ING.LNKST l) 0) false

/-- A link loses lock (R733). -/
def lockLoss (c : Chip) (l cerr : Nat) : Chip :=
  if !c.rb (R.ING.LNKST l) 0 then c
  else
    let c := { c with ing := { c.ing with since := c.ing.since.set l c.now } }
    (c.cnt (R.ING.LNKERR l) 15 0 cerr).setLink l false false

/-- Every 100 ms ingest sends a heartbeat with GTIME to each camera, on the links that are its master link or belong to no
group (R711). -/
def hostHeartbeat (c : Chip) : Chip :=
  if !c.rb R.ING.ICTL 0 then c
  else
    let c := c.waitTo (c.ing.hbAt + ms 100)
    let c := { c with ing := { c.ing with hbAt := c.now } }
    let slave (l : Nat) : Bool := (List.range 8).any (fun g => c.gEn g && ((gLinks (c.r (R.ING.GCFG g))).drop 1).contains l)
    forN 16 (fun l c => if c.lnkEn l && !slave l then c.emit (.cxp l 1 (bytesLE 8 c.gtime)) else c) c

/-! ### Register writes -/

/-- A refused write (R740). -/
def ingBad (key : Nat) (val : BitVec 32) (c : Chip) : Chip := (c.noteRsv key val).wb R.ING.ISTAT 0 true

/-- A write of LNKCTL (R735, R740). A link that the part has not built has no register. -/
def lnkctlWrite (c : Chip) (who : Who) (l : Nat) (val : BitVec 32) : Chip :=
  let key := R.ING.LNKCTL l
  if c.cxps ≤ l then (if val = 0 then c else c.rsvWrite ingSlot)
  else if fld val 2 0 = 7 then c.ingBad key val
  else
    let c := c.putReg who key val
    let c := { c with ing := { c.ing with since := c.ing.since.set l c.now, hb := if bit val 8 then c.ing.hb else c.ing.hb.set l none } }
    c.setLink l false false

/-- A group's buffers or ring, and those of another, as line-store granule ranges. -/
def imgArea (c : Chip) (g : Nat) : Nat × Nat :=
  let b := c.rf (R.ING.GIMG g) 8 0 * 0x10000
  (b, b + c.rf (R.ING.GIMG g) 20 16 * (c.rf (R.ING.GIPIT g) 20 0 * 64))
def ringArea (c : Chip) (v : Nat) : Nat × Nat :=
  let b := c.rf (R.LST.LRCFG v) 8 0 * 0x10000
  (b, b + c.rf (R.LST.LRCFG v) 21 9 * (c.rf (R.LST.LRPIT v) 12 0 * 64))

/-- Why a write of GCFG with EN = 1 is refused, if it is (R736). -/
def gcfgBad (c : Chip) (g : Nat) (val : BitVec 32) : Bool :=
  let ls := gLinks val
  let pf := fld val 9 8
  let sf := fld val 11 10
  let n := 2 ^ fld val 7 6
  let meets (a b : Nat × Nat) : Bool := a.1 < b.2 && b.1 < a.2
  fld val 7 6 == 3 || sf == 3 || fld val 5 2 % n != 0 || ls.any (fun l => c.cxps ≤ l) ||
  (List.range 8).any (fun u => u != g && c.gEn u && (gLinks (c.r (R.ING.GCFG u))).any (fun l => ls.contains l)) ||
  (pf == 0 && sf != 0) || (pf == 3 && sf == 1) ||
  (if bit val 1 then
    c.rb (R.LST.LRCFG g) 31 || c.rf (R.ING.GIMG g) 20 16 < 2 || 16 < c.rf (R.ING.GIMG g) 20 16 || c.rf (R.ING.GIPIT g) 20 0 < 2
      || 0x1800000 < (c.imgArea g).2
      || (List.range 8).any (fun v => c.rb (R.LST.LRCFG v) 31 && meets (c.imgArea g) (c.ringArea v))
      || (List.range 8).any (fun u => u != g && c.gEn u && c.gImage u && meets (c.imgArea g) (c.imgArea u))
  else
    c.tickRuns || !c.rb (R.LST.LRCFG g) 31 || c.rf (R.LST.LRPIT g) 12 0 * 64 < 64 + lineBytes sf (c.gWidth g))

/-- A group is disabled: every waiting line is lost with OFF, then the group reads OFF (R742). -/
def groupOff (c : Chip) (g : Nat) : Chip :=
  let c := c.loseAll g 6 (fun _ => true) (c.igrp g).queue.length
  let c := (c.imgCut g).imageLanded g
  let st := c.rf (R.ING.GSTAT g) 1 0
  let c := (c.wf (R.ING.GSTAT g) 1 0 0).modGrp g fun _ => {}
  if st = 0 then c else c.setIrq ingSlot (2 ^ (8 + g))

/-- A write of GCFG (R736, R742). -/
def gcfgWrite (c : Chip) (who : Who) (g : Nat) (val : BitVec 32) : Chip :=
  let key := R.ING.GCFG g
  let was := c.gEn g
  if bit val 0 then
    if c.gcfgBad g val then (c.ingBad key val).event ingSlot 0x070A
    else
      let c := c.putReg who key val
      if was then c else (c.modGrp g fun _ => {}).groupSync g
  else
    let c := if was then c.groupOff g else c
    c.putReg who key val

/-- A write of ITRIG: a trigger packet for each IMAGE group whose bit is set (R729). -/
def itrigWrite (c : Chip) (val : BitVec 32) : Chip :=
  let c := c.noteRsv R.ING.ITRIG val
  forN 8 (fun g c => if bit val g && c.gEn g && c.gImage g then c.emit (.trigger g c.now 0) else c) c

/-- A write of HBTO (R740). -/
def hbtoWrite (c : Chip) (who : Who) (val : BitVec 32) : Chip :=
  c.putIf who R.ING.HBTO val (decide (100 ≤ fld val 15 0) && decide (fld val 15 0 ≤ 10000)) (ingBad R.ING.HBTO val)

/-- The mailbox is busy (R738). -/
def mbBusy (c : Chip) : Bool := c.rf R.ING.MBST 1 0 == 1

/-- A write of MBCMD (R740). -/
def mbcmdWrite (c : Chip) (who : Who) (key : Nat) (val : BitVec 32) : Chip :=
  if c.mbBusy then c.ingBad key val else c.putReg who key val

/-- A write of MBCTL: GO sends the command in MBCMD under the next tag (R734, R740). -/
def mbctlWrite (c : Chip) (who : Who) (val : BitVec 32) : Chip :=
  let len := fld val 16 8
  let link := fld val 3 0
  if !bit val 24 then c.putReg who R.ING.MBCTL val
  else if c.mbBusy ∨ len = 0 ∨ 256 < len ∨ ¬c.lnkEn link then c.ingBad R.ING.MBCTL val
  else
    let c := c.putReg who R.ING.MBCTL val
    let tag := (c.ing.tag + 1) % 256
    let c := { c with ing := { c.ing with tag := tag, mbAt := c.now } }
    let cmd := ((List.range 64).flatMap (fun i => bytesLE 4 (c.r (R.ING.MBCMD i)).toNat)).take len
    (c.w R.ING.MBST 1).emit (.cxp link 0 (BitVec.ofNat 8 tag :: cmd))

/-- The mailbox leaves busy (R734, R739). -/
def mbEnd (c : Chip) (st rlen : Nat) : Chip :=
  let c := (c.w R.ING.MBST (BitVec.ofNat 32 (st + rlen * 2 ^ 16))).setIrq ingSlot (2 ^ 16)
  if st = 3 then c.event ingSlot 0x0709 else c

/-- An acknowledgement arrives (R734). -/
def mbAck (c : Chip) (tag : Nat) (crcOk : Bool) (data : List (BitVec 8)) : Chip :=
  if !c.mbBusy ∨ tag ≠ c.ing.tag then c
  else if !crcOk then (c.cnt (R.ING.LNKERR (c.rf R.ING.MBCTL 3 0)) 23 16 1).mbEnd 3 0
  else
    let d := padTo 256 (data.take 256)
    let c := forN 64 (fun i c => c.w (R.ING.MBRSP i) (BitVec.ofNat 32 (natLE ((d.drop (4 * i)).take 4)))) c
    c.mbEnd 2 (min 256 data.length)

/-- A command is unanswered for 200 ms (R734). -/
def mbTimeout (c : Chip) : Chip := if !c.mbBusy then c else (c.waitTo (c.ing.mbAt + ms 200)).mbEnd 3 0

/-! ### Triggers -/

/-- The next trigger of a group falls due: its packet starts, or it is dropped while the previous packet of the uplink is
still being sent (R727, R728). -/
def cameraTrigger (c : Chip) (g delay : Nat) (busy : Bool) : Chip :=
  match (c.igrp g).trig with
  | [] => c
  | (n, due) :: rest =>
    let c := (c.waitTo due).modGrp g fun u => { u with trig := rest }
    if busy then
      (c.cnt (R.ING.GCNT2 g) 31 16 1).modGrp g fun u =>
        { u with queue := u.queue.map (fun x => if x.n = n then { x with tdrop := true } else x) }
    else c.emit (.trigger g due delay)

end Chip

/-- LINK_LOCK (R733). -/
def execLinkLock (l : Fin 16) (s : State) : Host.Outcome State Fault Refusal := s.up fun c => c.linkLock l.val

/-- CXP_LINK_LOCK_LOSS (R733), with the character errors met (R738). -/
def execCxpLinkLockLoss (l : Fin 16) (cerr : BitVec 16) (s : State) : Host.Outcome State Fault Refusal :=
  s.up fun c => c.lockLoss l.val cerr.toNat

/-- CAMERA_HEARTBEAT (R733). -/
def execCameraHeartbeat (l : Fin 16) (s : State) : Host.Outcome State Fault Refusal := s.up fun c => c.cameraHeartbeat l.val

/-- HEARTBEAT_TIMEOUT (R733). -/
def execHeartbeatTimeout (l : Fin 16) (s : State) : Host.Outcome State Fault Refusal := s.up fun c => c.heartbeatTimeout l.val

/-- HOST_HEARTBEAT_SEND (R711). -/
def execHostHeartbeatSend (s : State) : Host.Outcome State Fault Refusal := s.up fun c => c.hostHeartbeat

/-- STREAM_PACKET (R717). -/
def execStreamPacket (g : Fin 8) (p : StreamPkt) (s : State) : Host.Outcome State Fault Refusal := s.up fun c => c.streamPacket g.val p

/-- EVENT_PACKET (R734). -/
def execEventPacket (l : Fin 16) (s : State) : Host.Outcome State Fault Refusal :=
  s.up fun c => if c.lnkEn l.val then c.cnt (R.ING.LNKERR l.val) 31 24 1 else c

/-- LINE_WINDOW_CLOSE (R717): the window of the oldest line that has not begun closes. -/
def execLineWindowClose (g : Fin 8) (s : State) : Host.Outcome State Fault Refusal :=
  s.up fun c => match (c.igrp g.val).queue.findIdx? (fun x => !x.begun) with
    | none => c
    | some i =>
      let x := (c.igrp g.val).queue[i]?
      let c := c.waitTo ((x.map (·.at_)).getD 0 + ns (c.rf (R.ING.GWIN g.val) 19 0))
      c.lineLost g.val i 1

/-- LINE_LANDED (R720). -/
def execLineLanded (g : Fin 8) (s : State) : Host.Outcome State Fault Refusal := s.up fun c => c.lineLanded g.val

/-- LINE_DEADLINE (R721). -/
def execLineDeadline (g : Fin 8) (s : State) : Host.Outcome State Fault Refusal := s.up fun c => c.loseLate g.val

/-- IMAGE_LANDED (R731). -/
def execImageLanded (g : Fin 8) (s : State) : Host.Outcome State Fault Refusal := s.up fun c => c.imageLanded g.val

/-- MAILBOX_ACK (R734). -/
def execMailboxAck (tag : BitVec 8) (crcOk : Bool) (data : List (BitVec 8)) (s : State) : Host.Outcome State Fault Refusal :=
  s.up fun c => c.mbAck tag.toNat crcOk data

/-- MAILBOX_TIMEOUT (R734). -/
def execMailboxTimeout (s : State) : Host.Outcome State Fault Refusal := s.up fun c => c.mbTimeout

/-- CAMERA_TRIGGER (R727): the packet starts `delay` ns after it is due, or finds the uplink busy (R728). -/
def execCameraTrigger (g : Fin 8) (delay : BitVec 8) (busy : Bool) (s : State) : Host.Outcome State Fault Refusal :=
  s.up fun c => c.cameraTrigger g.val delay.toNat busy

end Sys2Proof.Machine
end

