-- ==== Sys2Proof/Machine/Ledger.lean ====
section
/-!
DEFINITION. The energy ledger: the latch of a tick, the budget, reservations, deferral, the muzzle and PMBus telemetry.
-/
namespace Sys2Proof.Machine
namespace Chip

abbrev elgSlot : Nat := 0x00A

def setElg (c : Chip) (f : Energy → Energy) : Chip := { c with elg := f c.elg }

/-- The static term since it was last added: charged to overhead, on the PWM page (R842, R846). -/
def staticAdd (c : Chip) : Chip :=
  let e := Config.staticMw c.elg.temp * (c.now - c.elg.staticAt) / 6
  (c.charge 8 e).setElg fun g => { g with static := g.static + e, staticAt := c.now }

/-- TSTAT.STATE (R82): 0 OFF, 1 RUN, 2 FLUSH, 3 HOLD. -/
def tstate (c : Chip) : Nat := c.rf R.TICK.TSTAT 1 0

/-- The flush period in ns (R73). -/
def flushNs (c : Chip) : Nat :=
  if c.tick.perOk then min 50000000 (max 40000 ((c.r R.TICK.PERIOD).toNat * 5 / 6)) else 50000000

/-! ### Head cycle 0 -/

/-- Energy that kennel k's charge of the ending tick leaves as debt, in µJ (R858). -/
def debtOf (g : Energy) (k : Nat) : Nat :=
  let ch := nth 0 g.chg k
  let total := if !nth false g.rsv k then nth 0 g.unc k
    else if bit (nth 0 g.kcfg k) 0 then ch - nth 0 g.res k * 1000000
    else ch - nth 0 g.kcap k * 1000000
  total / 1000000

/-- The meters are copied and cleared, and what was charged in excess moves into DEBT (R845, R858). -/
def meterLatch (c : Chip) : Chip :=
  (c.staticAdd).setElg fun g => { g with
    klast := (List.range 8).map (fun k => nth 0 g.chg k / 1000000)
    ovhmet := nth 0 g.chg 8 / 1000000
    debt := (List.range 8).map (fun k => nth 0 g.debt k + debtOf g k)
    chg := List.replicate 9 0, unc := List.replicate 8 0, newRes := List.replicate 8 false }

/-! ### Reservation -/

/-- The tick length T in ns (R849). -/
def tickLen (c : Chip) (round : Bool) : Nat :=
  if round then 1000000
  else if c.tick.flushTick then c.tick.flushPer
  else min 50000000 (max 40000 (c.rf R.TICK.NDIV 10 0 * c.rf R.TICK.LPER 23 0))

/-- MODE of a kennel's KSLOT as in force (R60, R66). -/
def kmode (c : Chip) (k : Nat) : Nat := fld (nth 0 c.tick.kslot k) 1 0

/-- A kennel takes part in the reservation (R851). -/
def reserves (c : Chip) (k : Nat) : Bool :=
  c.kmode k != 0 && c.kstate k != 1 && c.kstate k != 3 && !(c.tick.noRel.contains k)

/-- A kennel is deferred: its tiles and jobs freeze (R855). -/
def deferKen (c : Chip) (k : Nat) : Chip :=
  if c.deferred k then c
  else
    let c := (c.wb (R.ELG.KST k) 0 true).cnt (R.ELG.KECNT k) 15 0 1
    let c := match c.onceTick 0x0802 k with
      | (true, c) => c.report elgSlot 0x0802 .event ⟨0, k⟩ 0
      | (false, c) => c
    c.syncKennel k

/-- A kennel is skipped for want of energy (R70). -/
def skipNrg (c : Chip) (k : Nat) : Chip :=
  if c.kmode k = 1 then (c.cnt (R.TICK.KCNT k) 31 16 1).modTick fun t => { t with noRel := t.noRel ++ [k] } else c

/-- A kennel's turn in the reservation: it takes its grant and debt from what is available, fails or is shed (R851, R852). -/
def reserve1 (x : Chip × Nat) (k : Nat) : Chip × Nat :=
  let (c, avail) := x
  let g := c.elg
  let need := nth 0 g.kgrant k + nth 0 g.debt k
  if need ≤ avail then
    (c.setElg fun g => { g with res := modNth (fun _ => nth 0 g.kgrant k) g.res k, debt := modNth (fun _ => 0) g.debt k,
                                rsv := modNth (fun _ => true) g.rsv k, newRes := modNth (fun _ => true) g.newRes k }, avail - need)
  else if bit (nth 0 g.kcfg k) 0 then ((c.skipNrg k).report elgSlot 0x0801 .event ⟨0, k⟩ 0, avail)
  else (((c.cnt (R.ELG.KECNT k) 31 16 1).report elgSlot 0x0808 .event ⟨0, k⟩ 0 |>.skipNrg k).deferKen k, avail)

/-- Averaged telemetry power in mW (R862). -/
def pmAvg (c : Chip) : Nat := c.elg.hist.foldl (· + ·) 0 / max 1 c.elg.hist.length

/-- From cycle 257 of a tick head, or in a ledger round: the budget is formed and the kennels' grants are reserved (R849 to
R852, R862, R869, R873). -/
def reservation (c : Chip) (round : Bool) : Chip :=
  let T := c.tickLen round
  let tbud := c.rf R.ELG.BUDGET 16 0 * T / 1000000
  let board := c.rf R.ELG.BOARD 17 0
  let der := if c.rb R.ELG.LSTAT 0 then c.rf R.ELG.DERATE 23 0
    else if board ≠ 0 ∧ board < c.pmAvg then (c.pmAvg - board) * T / 1000000 else 0
  let ks := List.range 8
  let c := c.setElg fun g => { g with
    tovh := max (c.rf R.ELG.OVHFIX 23 0) g.ovhmet, formed := true
    kcfg := ks.map (fun k => c.r (R.ELG.KCFG k)), kgrant := ks.map (fun k => c.rf (R.ELG.KGRANT k) 23 0)
    kcap := ks.map (fun k => c.rf (R.ELG.KCAP k) 23 0), res := List.replicate 8 0, rsv := List.replicate 8 false }
  let c := ((c.wf R.ELG.TBUD 23 0 (min tbud 0xFFFFFF)).wf R.ELG.DERATE 23 0 (min der 0xFFFFFF)).wb R.ELG.LSTAT 2 round
  let tovh := c.elg.tovh
  let c := if tbud < der + tovh then c.event elgSlot 0x0804 else c
  let fixed := ks.filter (fun k => c.reserves k && bit (nth 0 c.elg.kcfg k) 0)
  let pooled := ks.flatMap (fun p => ks.filter (fun k => c.reserves k && !bit (nth 0 c.elg.kcfg k) 0 && fld (nth 0 c.elg.kcfg k) 4 2 == p))
  let (c, avail) := (fixed ++ pooled).foldl reserve1 (c, tbud - der - tovh)
  (c.setElg fun g => { g with pool := avail * 1000000 }).modTick fun t => { t with reserved := true }

/-- The deferral of kennels that hold a new reservation ends (R856). -/
def deferEnd (c : Chip) : Chip :=
  forN 8 (fun k c => if c.deferred k && nth false c.elg.newRes k then (c.wb (R.ELG.KST k) 0 false).syncKennel k else c) c

/-! ### Spending -/

/-- A kennel's charge has reached its deferral point (R854). -/
def atLimit (c : Chip) (k : Nat) : Bool :=
  let g := c.elg
  let ch := nth 0 g.chg k
  let guard := fld (nth 0 g.kcfg k) 15 8 * 8
  g.formed &&
  (if !nth false g.rsv k then g.pool == 0
   else if bit (nth 0 g.kcfg k) 0 then decide ((nth 0 g.res k - guard) * 1000000 ≤ ch)
   else g.pool == 0 || decide ((nth 0 g.kcap k - guard) * 1000000 ≤ ch))

/-- KENNEL_DEFERRAL (R854 to R857): deferral, or for a FIXED kennel with EXH = 1 kennel fault 0x0803. -/
def spendLimit (c : Chip) (k : Nat) : Chip :=
  if !c.atLimit k then c
  else if nth false c.elg.rsv k && bit (nth 0 c.elg.kcfg k) 0 && bit (nth 0 c.elg.kcfg k) 1 then
    c.kfault elgSlot 0x0803 ⟨0, k⟩ 0 k
  else c.deferKen k

/-! ### Muzzle -/

/-- The end of a muzzle window (R859, R863). -/
def muzzleEnd (c : Chip) : Chip :=
  let c := (c.waitTo (c.elg.winAt + us (c.rf R.ELG.MUZ 7 0))).staticAdd
  let e := c.elg.all - c.elg.winAll
  let limit := c.rf R.ELG.BUDGET 16 0 * c.rf R.ELG.MUZ 7 0 * c.rf R.ELG.MUZ 15 8 * 10
  c.setElg fun g => { g with
    mlvl := if c.rb R.ELG.LSTAT 1 then 3 else if limit < e then min 3 (g.mlvl + 1) else g.mlvl - 1
    winAt := c.now, winAll := g.all }

/-! ### Telemetry -/

/-- One regulator's power in mW from READ_VOUT with VOUT_MODE's exponent, and READ_IOUT in LINEAR11 (R861). -/
def pmPower (vexp : BitVec 5) (vout iout : BitVec 16) : Nat :=
  let ve := vexp.toInt
  let ie : Int := sInt 5 (iout.toNat / 2 ^ 11)
  let m : Int := vout.toNat * sInt 11 (iout.toNat % 2 ^ 11) * 1000
  let e := ve + ie
  (if e < 0 then m / (2 : Int) ^ (-e).toNat else m * 2 ^ e.toNat).toNat

/-- A poll of the regulators (R861, R862, R873): each answers with VOUT_MODE's exponent, READ_VOUT and READ_IOUT, or fails
twice and keeps its last reading. -/
def pmbusPoll (c : Chip) (rs : List (Option (BitVec 5 × BitVec 16 × BitVec 16))) : Chip :=
  let n := c.rf R.ELG.PMCFG 11 8
  let c := c.waitTo (c.elg.pollAt + ms (c.rf R.ELG.PMCFG 7 0))
  let c := c.setElg fun g => { g with pollAt := c.now }
  let get (i : Nat) : Option (BitVec 5 × BitVec 16 × BitVec 16) := nth none rs i
  let c := forN (min n 8) (fun i c => match get i with
    | none => c
    | some (v, vo, io) =>
      let v := (nth none c.elg.vexp i).getD v
      c.setElg fun g => { g with vexp := modNth (fun _ => some v) g.vexp i, last := modNth (fun _ => pmPower v vo io) g.last i }) c
  let bad := (List.range (min n 8)).any (fun i => (get i).isNone)
  let c := c.setElg fun g => { g with fails := if bad then g.fails + 1 else 0 }
  let c := if bad then c.event elgSlot 0x0807 else c
  let c := c.wb R.ELG.LSTAT 0 (decide (8 ≤ c.elg.fails))
  let p := (c.elg.last.take n).foldl (· + ·) 0
  let c := c.wf R.ELG.PMPWR 17 0 (min p 0x3FFFF)
  let c := c.setElg fun g => { g with hist := (g.hist ++ [p]).drop (g.hist.length + 1 - 8), tel := g.tel + p * c.rf R.ELG.PMCFG 7 0 }
  let board := c.rf R.ELG.BOARD 17 0
  let above := board ≠ 0 && board < c.pmAvg
  let c := if above && !c.elg.aboveBud then c.event elgSlot 0x0805 else c
  c.setElg fun g => { g with aboveBud := above }

/-- PMB_ALERT_N falls (R863): the status words of the regulators enter the AON event ring. -/
def pmbAlert (c : Chip) (sw : List (BitVec 16)) : Chip :=
  if c.rb R.ELG.LSTAT 1 then c
  else
    let c := (c.wb R.ELG.LSTAT 1 true).setElg fun g => { g with mlvl := 3 }
    let c := (sw.take (c.rf R.ELG.PMCFG 11 8)).foldl (fun c w =>
      if c.ev.queue.length < 16 then
        { c with ev := { c.ev with queue := c.ev.queue ++ [(⟨c.gtime, 0x0805, elgSlot, 0, 0, w.toNat⟩ : EvEntry)] } }
      else c.cnt R.AON.EVLOST 15 0 1) c
    c.event elgSlot 0x0805

/-- The meters are compared with the telemetry every 1,024 ms (R864, R873). A difference from no telemetry at all is a free
value (log entry 2). -/
def calibrate (c : Chip) : Chip :=
  let c := (c.waitTo (c.elg.calAt + ms 1024)).staticAdd
  let m := (c.elg.all - c.elg.calAll) / 1000000
  let t := c.elg.tel
  let next (c : Chip) : Chip := c.setElg fun g => { g with calAt := c.now, calAll := g.all, tel := 0 }
  if c.rb R.ELG.LSTAT 0 then next c
  else
    let (e, c) : Int × Chip := if t = 0 then (let (v, c) := c.free; (sInt 16 v, c)) else (clampI (-32768) 32767 (((m : Int) - t) * 1000 / t), c)
    let c := next (c.setElg fun g => { g with calErr := e })
    if c.rf R.ELG.PMCFG 23 16 < e.natAbs then c.event elgSlot 0x0806 else c

/-! ### Rounds -/

/-- KSLOT and HOLDTO come into force (R66, R81). -/
def kslotIn (c : Chip) : Chip :=
  c.modTick fun t => { t with kslot := (List.range 8).map (fun k => c.r (R.TICK.KSLOT k)), holdto := c.rf R.TICK.HOLDTO 15 0 }

/-- A 1 ms round of the ledger while the tick unit is OFF or in HOLD, with the steps of a tick head (R167, R560, R572, R849). -/
def ledgerRound (c : Chip) : Chip :=
  if !c.coreUp || c.pwr.deep != 0 || !(c.tstate = 0 || c.tstate = 3) then c
  else
    let c := c.waitTo (c.elg.roundAt + ms 1)
    let c := c.setElg fun g => { g with roundAt := c.now }
    let c := c.meterLatch
    let c := c.commitHead.kslotIn
    let c := forN 16 (fun t c => (c.drnLatch t).pcmtHead t) c
    (c.reservation true).deferEnd

/-! ### Register writes -/

/-- A write of an ELG configuration register (R871). -/
def elgWrite (c : Chip) (who : Who) (key : Nat) (val : BitVec 32) : Chip :=
  let ok := match ofsOf key with
    | 0x040 => 1000 ≤ fld val 16 0 && fld val 16 0 ≤ 120000
    | 0x044 => fld val 17 0 == 0 || (1000 ≤ fld val 17 0 && fld val 17 0 ≤ 250000)
    | 0x04C => 1 ≤ fld val 7 0 && 50 ≤ fld val 15 8 && fld val 15 8 ≤ 100
    | 0x050 => 1 ≤ fld val 7 0 && fld val 7 0 ≤ 100 && fld val 11 8 ≤ 8
    | _ => true
  c.putIf who key val (ok || c.lockedOut who key) (fun c => (c.wb R.ELG.LSTAT 3 true).badValue who key)

end Chip

/-- LEDGER_RESERVATION (R851): once in a tick, from head cycle 257. -/
def execLedgerReservation (s : State) : Host.Outcome State Fault Refusal :=
  s.up fun c => match c.tick.edgeAt with
    | some e => if c.tick.reserved || c.tstate = 0 || c.tstate = 3 then c else (c.waitTo (e + cyc 257)).reservation false
    | none => c

/-- DEFERRAL_END (R856): in head cycle 1,023. -/
def execDeferralEnd (s : State) : Host.Outcome State Fault Refusal :=
  s.up fun c => match c.tick.edgeAt with
    | some e => if c.tick.reserved then (((c.waitTo (e + cyc 1023)).deferEnd).setElg fun g => { g with newRes := List.replicate 8 false }).settle else c
    | none => c

/-- LEDGER_ROUND (R849). -/
def execLedgerRound (s : State) : Host.Outcome State Fault Refusal := s.up fun c => c.ledgerRound.settle

/-- KENNEL_DEFERRAL (R855). -/
def execKennelDeferral (k : Fin 8) (s : State) : Host.Outcome State Fault Refusal := s.up fun c => (c.spendLimit k.val).settle

/-- MUZZLE_WINDOW (R859). -/
def execMuzzleWindow (s : State) : Host.Outcome State Fault Refusal :=
  s.up fun c => if c.pwr.deep != 0 then c else c.muzzleEnd

/-- PMBUS_POLL (R861). -/
def execPmbusPoll (rs : List (Option (BitVec 5 × BitVec 16 × BitVec 16))) (s : State) : Host.Outcome State Fault Refusal :=
  s.on fun c => if c.coreUp then c.pmbusPoll rs else c

/-- PMB_ALERT (R863): the STATUS_WORD of each regulator. -/
def execPmbAlert (sw : List (BitVec 16)) (s : State) : Host.Outcome State Fault Refusal := s.on fun c => if c.coreUp then c.pmbAlert sw else c

/-- PMB_ALERT_RELEASE (R863). -/
def execPmbAlertRelease (s : State) : Host.Outcome State Fault Refusal := s.on fun c => c.wb R.ELG.LSTAT 1 false

/-- CALIBRATION_CHECK (R864). -/
def execCalibrationCheck (s : State) : Host.Outcome State Fault Refusal :=
  s.up fun c => if c.pwr.deep != 0 then c else c.calibrate

end Sys2Proof.Machine
end

