-- ==== Sys2Proof/Machine/Tick.lean ====
section
/-!
DEFINITION. The frame tick: the encoder, line ticks, frame-tick edges and the tick head, overrun, flush and HOLD, and the heel
token by which the acting manager shares them.
-/
namespace Sys2Proof.Machine

/-! ### Heel tokens -/

/-- The bytes of a heel token (R773). -/
def Token.bytes (t : Token) : List (BitVec 8) :=
  let b (x : Nat) : BitVec 8 := BitVec.ofNat 8 x
  let h := [b 0xF5, b t.kind, b (b2n t.boundary + 2 * b2n t.test + 4 * b2n t.dir), b t.hops, b t.mgrid, b t.mepo]
    ++ bytesLE 2 t.tseq ++ bytesLE 8 t.fnum ++ bytesLE 8 t.gtime ++ bytesLE 4 t.pos ++ bytesLE 2 t.row ++ [b t.state, 0]
    ++ bytesLE 4 t.age ++ bytesLE 4 t.fdly ++ bytesLE 4 t.fper ++ bytesLE 2 (t.pos / 2 ^ 32) ++ zeros 102
  h ++ bytesLE 4 (crc32 h)

/-- The token that 152 bytes spell: `none` unless MARK and CRC are right (R773). -/
def Token.parse (bs : List (BitVec 8)) : Option Token :=
  if bs.length ≠ 152 ∨ fle bs 0 1 ≠ 0xF5 ∨ fle bs 148 4 ≠ crc32 (bs.take 148) then none
  else
    let fl := fle bs 2 1
    some { kind := fle bs 1 1, boundary := fl.testBit 0, test := fl.testBit 1, dir := fl.testBit 2, hops := fle bs 3 1
           mgrid := fle bs 4 1 % 32, mepo := fle bs 5 1, tseq := fle bs 6 2, fnum := fle bs 8 8, gtime := fle bs 16 8
           pos := fle bs 24 4 + fle bs 44 2 * 2 ^ 32, row := fle bs 28 2, state := fle bs 30 1, age := fle bs 32 4
           fdly := fle bs 36 4, fper := fle bs 40 4 }

namespace Chip

abbrev tickSlot : Nat := 0x00B

def setCasc (c : Chip) (f : Cascade → Cascade) : Chip := { c with casc := f c.casc }

/-- CSTAT.AROLE (R797): 0 NONE, 1 MANAGER, 2 FOLLOWER, 3 STANDBY, 4 DEPOSED, 5 LISTEN. -/
def arole (c : Chip) : Nat := c.rf (R.VXL.CSTAT 0) 2 0
def croleOf (c : Chip) : Nat := c.rf (R.VXL.CROLE 0) 1 0
def clat (c : Chip) : Nat := c.rf (R.VXL.CLAT 0) 14 0

/-- TCFG.SRC (R37): 0 OFF, 1 ENC, 2 VXL, 3 TEST. -/
def src (c : Chip) : Nat := c.rf R.TICK.TCFG 1 0
def setTstate (c : Chip) (n : Nat) : Chip := c.wf R.TICK.TSTAT 1 0 n

/-- POS and SPOS (R41, R778). -/
def posNow (c : Chip) : Int := sInt 48 (c.r64 R.TICK.POS_LO)
def setPos (c : Chip) (x : Int) : Chip := c.w64 R.TICK.POS_LO (wrapN 48 x)
def sposNow (c : Chip) : Int := sInt 48 (c.r64 R.TICK.SPOS_LO)
def setSpos (c : Chip) (x : Int) : Chip := c.w64 R.TICK.SPOS_LO (wrapN 48 x)

/-- The line pitch in 1/65,536 counts (R42). -/
def pitch (c : Chip) : Int := (c.r R.TICK.LDIV).toNat

/-- A token leaves on every port that is UP, but for the one it came by (R774). -/
def sendToken (c : Chip) (t : Token) (skip : Option Nat) : Chip :=
  forN c.vxls (fun p c => if c.vst p = 5 ∧ some p ≠ skip then c.emit (.vxl p 4 t.tseq t.bytes) else c) c

/-- The state of the tick unit at the cascade time of what is decoded now (R773, R777). -/
def decState (c : Chip) : Nat :=
  match c.casc.due.getLast? with
  | some (_, t) => t.state
  | none => match c.tick.holdAt with
    | some h => if c.tstate = 2 ∧ h ≤ c.now + ns c.clat then (if c.tick.toOff then 0 else 3) else c.tstate
    | none => c.tstate

/-- The acting manager's token of what is decoded now (R773). -/
def heelToken (c : Chip) (kind : Nat) (boundary test : Bool) (fnum row state fper : Nat) : Token :=
  { kind := kind, boundary := boundary, test := test, dir := c.rb R.TICK.TSTAT 2, hops := 0, mgrid := c.devNum
    mepo := c.rf (R.VXL.CSTAT 0) 23 16, tseq := c.casc.txTseq, fnum := fnum, gtime := c.gtime
    pos := c.r64 R.TICK.POS_LO, row := row, state := state, age := 0, fdly := c.rf R.TICK.FDLY 14 0, fper := fper }

/-- Send a token as the acting manager. -/
def sendHeel (c : Chip) (t : Token) : Chip :=
  if c.arole = 1 then
    (c.sendToken t none).setCasc fun k => { k with txTseq := (k.txTseq + 1) % 0x10000, tokAt := c.now }
  else c

/-- What is decoded now acts at its cascade time, and goes out as a token (R773, R776). -/
def heelDue (c : Chip) (t : Token) : Chip :=
  (c.sendHeel t).setCasc fun k => { k with due := k.due ++ [(c.now + ns c.clat, t)] }

/-! ### TICK_OUT -/

/-- A pulse source that OSEL selects starts or restarts the pulse (R80). -/
def toutPulse (c : Chip) (osel : Nat) : Chip :=
  if fld c.tick.tout 1 0 = osel then c.modTick fun t => { t with pulseEnd := some (c.now + ns (100 * fld t.tout 15 8)) } else c

/-- Level of the pin TICK_OUT (R80, R888): low while the core domain is in reset. -/
def tickOut (c : Chip) : Bool :=
  let act := if fld c.tick.tout 1 0 = 3 then c.tstate == 1 || c.tstate == 2
    else fld c.tick.tout 1 0 != 0 && c.tick.pulseEnd.isSome
  c.coreUp && c.pwr.deep != 2 && (act != bit c.tick.tout 2)

/-! ### Line ticks -/

/-- A line tick takes effect (R47, R49, R50, R75, R79, R81): row `row` of frame `f` at position `pos`. -/
def lineAct (c : Chip) (f row : Nat) (bnd test : Bool) (fdly pos : Nat) : Chip :=
  let st := c.tstate
  if st = 2 then c.cnt R.TICK.HDISC 31 0 1
  else
    let c := if st = 1 then c
      else
        let c := (c.setTstate 1).modTick fun t => { t with leftAt := c.now, perOk := false, lastFlush := true }
        if st = 3 then c.event tickSlot 0x0105 else c
    let c := match c.tick.lineAt with
      | some l =>
        let c := c.wf R.TICK.LPER 23 0 (min 0xFFFFFF ((c.now - l) / 6))
        if c.now < l + us 1 then c.eventOnce tickSlot 0x0103 0 else c
      | none => c
    let c := c.modTick fun t => { t with lineAt := some c.now, trg := c.r R.TICK.TRG, tout := c.r R.TICK.TOUT, test := c.r R.TICK.TEST,
                                         frame := f, row := row }
    let c := if bnd then c.modTick fun t => { t with
        opened := true, pend := t.pend ++ [(c.now + ns fdly, f)]
        testF := (if test then [f] else []) ++ t.testF.filter (fun n => decide (f < n + 65536)) } else c
    (c.ingLineTick f row pos test c.tick.trg).toutPulse 2

/-- A line tick of the device's own source is decoded (R44, R49, R75, R773): with ROLE = NONE it acts at once, else at its cascade time. -/
def lineDecode (c : Chip) : Chip :=
  if c.decState = 2 then c.cnt R.TICK.HDISC 31 0 1
  else
    let t := c.tick
    let bnd := !t.opened || decide (c.rf R.TICK.NDIV 10 0 ≤ t.row + 1)
    let f := if bnd then t.nextF else t.frame
    let row := if bnd then 0 else t.row + 1
    let test := if bnd then c.src == 3 else t.testF.contains f
    let c := c.modTick fun t => { t with frame := f, row := row, opened := true, nextF := if bnd then f + 1 else t.nextF }
    if c.croleOf = 0 then c.lineAct f row bnd test (c.rf R.TICK.FDLY 14 0) (c.r64 R.TICK.POS_LO)
    else c.heelDue (c.heelToken 1 bnd test f row 1 0)

/-! ### The encoder -/

/-- The position takes a count (R41 to R43): a line tick falls due at `due` when it passes the next pitch multiple; a reversal beyond one
pitch raises 0x0108. -/
def countPos (c : Chip) (fwd : Bool) (due : Nat) : Chip :=
  let was := c.posNow
  let pos := if fwd then was + 1 else was - 1
  let c := (c.setPos pos).wb R.TICK.TSTAT 2 fwd
  let enc := c.src == 1
  let c := if fwd then c.modTick fun t => { t with revPeak := none, revDone := false }
    else
      let peak := c.tick.revPeak.getD was
      let c := c.modTick fun t => { t with revPeak := some peak }
      if enc && !c.tick.revDone && decide (c.pitch < (peak - pos) * 65536) then
        (c.event tickSlot 0x0108).modTick fun t => { t with revDone := true }
      else c
  if !enc || c.tstate = 0 then c
  else
    let c := c.modTick fun t => { t with hwm := max t.hwm (pos * 65536) }
    if c.tick.origin + c.tick.nextIx * c.pitch ≤ pos * 65536 then
      c.modTick fun t => { t with nextIx := t.nextIx + 1, lineDue := t.lineDue ++ [due] }
    else c

/-- A rising edge of ENC_Z is accepted (R45). -/
def indexPulse (c : Chip) : Chip :=
  if !c.rb R.TICK.TCFG 5 then c
  else
    let pos := c.posNow
    let c := match c.tick.zPos with
      | some z =>
        let n : Int := (pos - z).natAbs
        if (c.rf R.TICK.ZCPR 31 24 : Int) < (n - c.rf R.TICK.ZCPR 23 0).natAbs then
          let c := c.cnt R.TICK.QERR 31 16 1
          if c.src = 1 then c.event tickSlot 0x0107 else c
        else c
      | none => c
    c.modTick fun t => { t with zPos := some pos }

/-- Filtered levels are accepted on the pins that differ and are named (R38, R40, R41, R778). -/
def encAccept (c : Chip) (pins : BitVec 3) : Chip :=
  let t := c.tick
  let ch (i : Nat) : Bool := bit pins i && bit t.raw i != bit t.acc i
  let ps := (List.range 3).filter ch
  if ps.isEmpty || !c.coreUp then c
  else
    let filt := 8 * c.rf R.TICK.TCFG 10 6
    let at_ := ps.foldl (fun n i => max n (nth 0 t.since i)) 0
    let acc : BitVec 3 := BitVec.ofNat 3 ((List.range 3).foldl (fun n i => n + 2 ^ i * b2n (if ch i then bit t.raw i else bit t.acc i)) 0)
    let c := c.modTick fun t => { t with acc := acc }
    let standby := c.src == 2 && c.arole == 3
    if c.pwr.deep ≠ 0 ∨ (c.src = 2 ∧ ¬standby) then c
    else
      let c := c.waitTo (at_ + cyc (2 + filt))
      let a := bit acc 0
      let b := bit acc 1
      let c := if ch 0 ∧ ch 1 then
          let c := c.cnt R.TICK.QERR 15 0 1
          if c.src = 1 then c.eventOnce tickSlot 0x0106 0 else c
        else if ch 0 ∨ ch 1 then
          let fwd := ((if ch 0 then a != b else a == b) != c.rb R.TICK.TCFG 4)
          let counts := match c.rf R.TICK.TCFG 3 2 with
            | 0 => ch 0 && !b
            | 1 => ch 0
            | _ => true
          if !counts then c
          else if standby then c.setSpos (if fwd then c.sposNow + 1 else c.sposNow - 1)
          else c.countPos fwd (at_ + cyc (6 + filt))
        else c
      if ch 2 && bit acc 2 && !standby then c.indexPulse else c

/-! ### Frame-tick edges -/

/-- The frame is one of the three frames of the last flush (R73). -/
def flushFrame (c : Chip) (f : Nat) : Bool := match c.tick.flushFrom with | some a => a ≤ f && f < a + 3 | none => false

/-- Set KST of a kennel's frame (R831). -/
def setKst (c : Chip) (f : Int) (k v : Nat) : Chip := if f < 0 then c else c.modFrame f.toNat fun r => { r with kst := r.kst.set k v }

/-- Every tile of a kennel has set its bit of TDONE (R63). -/
def kenComplete (c : Chip) (k : Nat) : Bool := (c.tilesOf k).all (fun t => c.rb R.TICK.TDONE t)

/-- The outcome of a kennel at the edge that ends tick T, in which it computed frame T − 1 (R62, R67 to R70, R831). -/
def overrunCheck (c : Chip) (k : Nat) : Chip :=
  let f : Int := (c.fnum : Int) - 1
  let t := c.tick
  let drop (c : Chip) : Chip := c.modTick fun t => { t with cont := t.cont.filter (· != k) }
  if t.cont.contains k then
    if c.kmode k ≠ 1 then ((drop c).setKst f k 4).setKst (nth (-1) t.cmp k) k 4
    else if c.kenComplete k then (drop c).setKst f k 2
    else (((drop c).setKst f k 2).setKst (nth (-1) t.cmp k) k 4).kfault tickSlot 0x0102 ⟨0, k⟩ 0 k
  else if t.released.contains k then
    if c.kmode k ≠ 1 then c.setKst f k 4
    else if c.kenComplete k then c.setKst f k 0
    else if bit (nth 0 t.kslot k) 2 then (c.setKst f k 4).kfault tickSlot 0x0102 ⟨0, k⟩ 0 k
    else (((c.setKst f k 1).cnt (R.TICK.KCNT k) 15 0 1).modTick fun t => { t with cont := t.cont ++ [k] }).report tickSlot 0x0101 .event ⟨0, k⟩ 0
  else if 0 ≤ f ∧ c.flushFrame f.toNat then c.setKst f k 5
  else if c.kmode k = 1 then
    if t.noRel.contains k then c.setKst f k 3
    else if c.rb (R.KMAP.KSTAT k) 3 then c.setKst f k 4
    else (c.setKst f k 2).cnt (R.TICK.KCNT k) 15 0 1
  else c.setKst f k (if c.rb (R.KMAP.KSTAT k) 3 then 4 else 6)

/-- What begins anew with every frame tick: the codes raised once per tick and the counts of a tick. -/
def newTick (c : Chip) : Chip :=
  { c with bus := { c.bus with once := [] }, sp := c.sp.map (fun s => { s with wgtCnt := 0 }) }

/-- Frame-tick edge E(f): head cycles 0 and 1 (R53, R59, R65 to R68, R81, R167, R177, R221, R560, R572, R596, R678, R721, R845). -/
def tickEdge (c : Chip) (f : Nat) (flush : Bool) : Chip :=
  let prev := c.tick.edgeAt
  let old := c.fnum
  let c := c.newTick
  let c := match prev with
    | some _ => forN 8 (fun k (c : Chip) => c.overrunCheck k) c
    | none => c
  let c := (c.w64 R.TICK.FNUM_LO f).w64 R.TICK.EDGE_LO c.gtime
  let per := match prev with | some e => !flush && !c.tick.lastFlush && decide (c.tick.leftAt ≤ e) | none => false
  let c := match prev with
    | some e =>
      let c := if per then c.w R.TICK.PERIOD (BitVec.ofNat 32 (min 0xFFFFFFFF ((c.now - e) / 5))) else c
      if c.now < e + us 40 then c.eventOnce tickSlot 0x0103 0 else c
    | none => c
  let c := c.meterLatch
  let c := match prev with
    | some _ => if old = 0 then c else c.modFrame (old - 1) fun r => { r with enrg := c.elg.klast }
    | none => c
  let c := c.modFrame f fun r => { r with edge := c.gtime }
  let c := c.commitHead.kslotIn
  let c := c.modTick fun t => { t with
    released := [], noRel := t.cont, flushTick := flush, edgeAt := some c.now, lastFlush := flush, perOk := t.perOk || per
    swept := false, reserved := false, scanned := false
    cmp := (List.range 8).map (fun k => if fld (nth 0 t.kslot k) 1 0 = 1 ∧ ¬t.cont.contains k then (f : Int) - 1 else nth (-1) t.cmp k) }
  let c := ((c.ringsMove).lrnEdge flush).ingEdge f
  let c := forN 16 (fun t c => (c.drnLatch t).pcmtHead t) c
  (c.wb R.TBL.TSTAT 0 true).toutPulse 1

/-- FRAME_TICK_EDGE: the oldest pending edge occurs (R50). -/
def edgeDue (c : Chip) : Chip :=
  match c.tick.pend with
  | [] => c
  | (t, f) :: rest => ((c.waitTo t).modTick fun t => { t with pend := rest }).tickEdge f false

/-- TICK_HEAD_SWEEP: by head cycle 256 every descriptor and owner cache is empty (R59, R596). -/
def headSweep (c : Chip) : Chip :=
  match c.tick.edgeAt with
  | some e =>
    if c.tick.swept then c
    else (((c.waitTo (e + cyc 256)).sweepCaches).wb R.TBL.TSTAT 0 false).modTick fun t => { t with swept := true }
  | none => c

/-! ### Releases -/

/-- A release meets a tile in NAP: it starts the tile's exit (R907). -/
def napRelease (c : Chip) (t : Nat) : Chip :=
  let c := c.modCore t fun x => { x with relPend := true, relAt := c.now, fnum := BitVec.ofNat 24 c.fnum }
  if c.rb R.PWM.TPWR (16 + t) then c
  else
    let c := { c with pwr := { c.pwr with napExit := c.pwr.napExit ++ [(t, c.now + us 20)] } }
    (((c.wb R.PWM.TNAP t false).wb R.PWM.TPWR (16 + t) true).cnt R.PWM.NWAKE 15 0 1).event 0x009 0x0C08

/-- KENNEL_RELEASE (R60 to R62, R68, R70, R73, R852). -/
def releaseKennel (c : Chip) (k : Nat) : Chip :=
  match c.tick.edgeAt with
  | none => c
  | some e =>
    let t := c.tick
    let due := e + cyc (fld (nth 0 t.kslot k) 31 8)
    let next := t.pend.any (fun p => decide (p.1 ≤ due)) || (t.flushLeft != 0 && decide (t.flushAt ≤ due))
    if c.kmode k ≠ 1 || t.released.contains k || t.noRel.contains k || !t.reserved || !nth false c.elg.rsv k || next
        || (decide (1 ≤ c.fnum) && c.flushFrame (c.fnum - 1)) then c
    else
      let c := (c.waitTo due).modTick fun t => { t with released := t.released ++ [k] }
      (c.tilesOf k).foldl (fun c t =>
        let c := c.wb R.TICK.TDONE t false
        if c.napped t then c.napRelease t else c.release t (R.TILE.RELOVR t) (slotTile t)) c

/-! ### Flush and HOLD -/

/-- The tick unit enters FLUSH, closing frame `k` (R73). -/
def flushAct (c : Chip) (k per : Nat) : Chip :=
  let at_ := match c.tick.pend.getLast? with | some p => p.1 + ns per | none => c.now
  (c.setTstate 2).modTick fun t => { t with flushLeft := 3, flushAt := at_, flushPer := per, flushFrom := some (k + 1), opened := false, nextF := k + 4 }

/-- The tick unit enters HOLD with event 0x0104, or OFF (R72, R74). -/
def enterHold (c : Chip) : Chip :=
  let off := c.tick.toOff || c.src == 0
  let c := c.modTick fun t => { t with toOff := false, holdAt := none, flushLeft := 0, opened := false, pend := if off then [] else t.pend,
                                       lineDue := if off then [] else t.lineDue }
  if off then c.setTstate 0 else (c.setTstate 3).event tickSlot 0x0104

/-- A flush of the unit's own is decoded (R72, R73, R78, R773): the acting manager's goes out as a token. -/
def flushAsk (c : Chip) : Chip :=
  if !c.tick.opened then c.enterHold
  else
    let per := c.flushNs
    if c.arole = 1 then c.heelDue (c.heelToken 2 false false c.tick.frame 0 2 per)
    else c.flushAct c.tick.frame per

/-- HOLD_TIMEOUT (R72, R78). -/
def holdTimeout (c : Chip) : Chip :=
  let t := c.tick
  let due := max (t.edgeAt.getD 0) t.leftAt + us t.holdto
  if c.tstate ≠ 1 || c.decState = 2 || t.pend.any (fun p => decide (p.1 ≤ due)) then c else (c.waitTo due).flushAsk

/-- FLUSH_EDGE (R73): after the last of three, HOLD follows 40 µs later (R74). -/
def flushEdge (c : Chip) : Chip :=
  let t := c.tick
  if c.tstate ≠ 2 || t.flushLeft = 0 || !t.pend.isEmpty then c
  else
    let c := (c.waitTo t.flushAt).tickEdge ((t.flushFrom.getD 0) + (3 - t.flushLeft)) true
    c.modTick fun t => { t with flushLeft := t.flushLeft - 1, flushAt := c.now + ns t.flushPer
                                holdAt := if t.flushLeft = 1 then some (c.now + us 40) else none }

/-- HOLD_ENTRY (R74). -/
def holdEntry (c : Chip) : Chip :=
  match c.tick.holdAt with
  | some h => if c.tstate = 2 then (c.waitTo h).enterHold else c
  | none => c

/-! ### Sources -/

/-- The unit leaves OFF by a source of its own (R42, R49, R72). -/
def leaveOff (c : Chip) : Chip :=
  let p := c.posNow * 65536
  (c.setTstate 1).modTick fun t => { t with origin := p, hwm := p, nextIx := 1, leftAt := c.now, opened := false, perOk := false
                                            lastFlush := true, lineDue := [] }

/-- SRC has become OFF (R72): in RUN with a flush, in HOLD at once. -/
def srcOff (c : Chip) : Chip :=
  let c := c.modTick fun t => { t with lineDue := [] }
  match c.tstate with
  | 1 => if c.decState = 2 then c.modTick fun t => { t with toOff := true } else (c.modTick fun t => { t with toOff := true }).flushAsk
  | 2 => c.modTick fun t => { t with toOff := true }
  | 3 => c.enterHold
  | _ => c

/-- SRC has changed (R37, R42, R72, R76). -/
def srcChanged (c : Chip) (was : Nat) : Chip :=
  let new := c.src
  if new = was then c
  else
    let c := c.modTick fun t => { t with testAt := c.now, test := c.r R.TICK.TEST }
    if new = 0 then c.srcOff
    else if c.tstate = 0 ∧ new ≠ 2 then c.leaveOff
    else if c.tstate = 3 ∧ new = 1 then
      let p := c.posNow * 65536
      c.modTick fun t => { t with hwm := max t.hwm p, nextIx := max t.nextIx ((p - t.origin) / max 1 c.pitch + 1).toNat }
    else c

/-- Test mode has ended (R76, R955). -/
def testEnds (c : Chip) : Chip :=
  let c := (c.wb R.DBG.DSTAT 2 false).wb R.TICK.TSTAT 3 false
  if c.src = 3 then (c.wf R.TICK.TCFG 1 0 0).srcOff else c

/-! ### Register writes -/

/-- A write of a TICK register that has a legal range or moment (R42, R76, R81, R82). -/
def tickWrite (c : Chip) (who : Who) (key : Nat) (val : BitVec 32) : Chip :=
  let bad (c : Chip) : Chip := c.wb R.TICK.TSTAT 4 true
  let still := c.tstate = 0 || c.tstate = 3
  if key = R.TICK.TCFG then
    let was := c.src
    let same := (val &&& 0x7FC) == (c.r key &&& 0x7FC)
    let ok := (still || (fld val 1 0 == 0 && same)) && fld val 3 2 != 3 && (fld val 1 0 != 3 || c.rb R.DBG.DSTAT 2)
    if !ok then c.putIf who key val false bad
    else
      let c := c.putReg who key val
      let c := if c.rb key 5 then c else c.modTick fun t => { t with zPos := none }
      c.srcChanged was
  else if key = R.TICK.LDIV then
    if !(still && fld val 31 16 != 0) then c.putIf who key val false bad
    else
      let c := c.putReg who key val
      if c.tstate = 3 then c.modTick fun t => { t with origin := t.hwm, nextIx := 1 } else c
  else if key = R.TICK.NDIV then c.putIf who key val (still && 8 ≤ fld val 10 0 && fld val 10 0 ≤ 1024) bad
  else if key = R.TICK.FDLY then c.putIf who key val (still && fld val 14 0 ≤ 30000) bad
  else if key = R.TICK.ZCPR then c.putIf who key val still bad
  else if key = R.TICK.HOLDTO then c.putIf who key val (100 ≤ fld val 15 0 && fld val 15 0 ≤ 50000) bad
  else if key = R.TICK.TOUT then c.putIf who key val (fld val 15 8 != 0) bad
  else if key = R.TICK.TEST then c.putIf who key val (1000 ≤ fld val 19 0 && fld val 19 0 ≤ 1000000) bad
  else if (List.range 8).any (fun k => key == R.TICK.KSLOT k) then
    c.putIf who key val (fld val 1 0 != 3 && 1200 ≤ fld val 31 8) bad
  else c.putReg who key val

/-- A write of TDONE (R63, R129): a tile core sets its own bit only. -/
def tdoneWrite (c : Chip) (who : Who) (val : BitVec 32) : Chip :=
  let c := c.noteRsv R.TICK.TDONE val
  match who with
  | .tile t => if bit val t then c.wb R.TICK.TDONE t true else c
  | _ => c

end Chip

/-- ENCODER_LEVEL_CHANGE (R38): pin 0 ENC_A, 1 ENC_B, 2 ENC_Z. -/
def execEncoderLevelChange (pin : Fin 3) (level : Bool) (s : State) : Host.Outcome State Fault Refusal :=
  s.on fun c =>
    if bit c.tick.raw pin.val = level then c
    else c.modTick fun t => { t with raw := t.raw ^^^ BitVec.ofNat 3 (2 ^ pin.val), since := t.since.set pin.val c.now }

/-- ENCODER_FILTER_ACCEPT (R38), of the pins in a mask. -/
def execEncoderFilterAccept (pins : BitVec 3) (s : State) : Host.Outcome State Fault Refusal := s.up fun c => c.encAccept pins

/-- LINE_TICK (R42, R44). -/
def execLineTick (s : State) : Host.Outcome State Fault Refusal :=
  s.up fun c => match c.tick.lineDue with
    | [] => c
    | t :: rest =>
      let c := (c.waitTo t).modTick fun t => { t with lineDue := rest }
      if c.src = 1 ∧ c.tstate ≠ 0 then c.lineDecode else c

/-- TEST_LINE_TICK (R76). -/
def execTestLineTick (s : State) : Host.Outcome State Fault Refusal :=
  s.up fun c =>
    if c.src ≠ 3 ∨ c.tstate = 0 then c
    else
      let c := c.waitTo (c.tick.testAt + ns (fld c.tick.test 19 0))
      (c.modTick fun t => { t with testAt := c.now }).lineDecode

/-- FRAME_TICK_EDGE (R59). -/
def execFrameTickEdge (s : State) : Host.Outcome State Fault Refusal := s.up fun c => c.edgeDue.settle

/-- TICK_HEAD_SWEEP (R596). -/
def execTickHeadSweep (s : State) : Host.Outcome State Fault Refusal := s.up fun c => c.headSweep

/-- KENNEL_RELEASE (R61). -/
def execKennelRelease (k : Fin 8) (s : State) : Host.Outcome State Fault Refusal := s.up fun c => c.releaseKennel k.val

/-- HOLD_TIMEOUT (R72). -/
def execHoldTimeout (s : State) : Host.Outcome State Fault Refusal := s.up fun c => c.holdTimeout

/-- FLUSH_EDGE (R73). -/
def execFlushEdge (s : State) : Host.Outcome State Fault Refusal := s.up fun c => c.flushEdge.settle

/-- HOLD_ENTRY (R74). -/
def execHoldEntry (s : State) : Host.Outcome State Fault Refusal := s.up fun c => c.holdEntry

/-- TICK_OUT_PULSE_END (R80). -/
def execTickOutPulseEnd (s : State) : Host.Outcome State Fault Refusal :=
  s.up fun c => match c.tick.pulseEnd with
    | some t => (c.waitTo t).modTick fun t => { t with pulseEnd := none }
    | none => c

end Sys2Proof.Machine
end

