-- ==== Sys2Proof/Machine/VxlLink.lean ====
section
/-!
DEFINITION. Vaxlin ports and the cascade: port states, frames, replay, messages that arrive or are ended, delay measurement,
roles, heel tokens, heel loss and takeover.
-/
namespace Sys2Proof.Machine
namespace Chip

abbrev vxlSlot : Nat := 0x018

/-! ### Answers to what this device has asked -/

/-- A bus error reaches a core, of the bundle that issued the access (R322). -/
def coreBusErr (c : Chip) (k code a bundle : Nat) : Chip :=
  c.modCore k fun x => if x.run = .stopped then x else { x with busErrs := x.busErrs ++ [⟨code, a, bundle⟩] }

/-- The value of load `i` of a core has come: it is delivered if it is due, and the core goes on when nothing else is waited
for (R306, R308). -/
def loadFill (c : Chip) (k i v : Nat) : Chip :=
  let c := c.modCore k fun x =>
    let x := { x with loads := modNth (fun l => { l with val := some v }) x.loads i }
    match x.loads[i]? with
    | some l => if l.age = 0 then Core.deliver { x with loads := x.loads.eraseIdx i } l else x
    | none => x
  let c := c.modCore k fun x =>
    if x.run = .stalled && !x.held && !x.loads.any (fun l => l.age == 0) then { x with run := .run } else x
  c.syncCore k

/-- A fence refusal (R150, R152). -/
def fenceCode (code : Nat) : Bool := 0x0501 ≤ code && code ≤ 0x0506

/-- A core's remote access is answered: code 0 with its data, or a refusal (R136, R151, R322). -/
def coreAnswer (c : Chip) (k tag code : Nat) (data : List (BitVec 8)) : Chip :=
  let x := c.core k
  let err (c : Chip) (a bundle : Nat) : Chip :=
    if code = 0 then c
    else if fenceCode code && k < 16 then c.kfault (slotTile k) 0x0507 ⟨1, c.owner k⟩ a (c.owner k)
    else c.coreBusErr k code a bundle
  match x.loads.findIdx? (fun l => l.tag == some tag) with
  | some i =>
    match x.loads[i]? with
    | some l => (err c l.addr l.bundle).loadFill k i (if code = 0 then loadVal data l.size l.sext else 0)
    | none => c
  | none =>
    match x.posted.find? (fun l => l.tag == some tag) with
    | some l => err (c.modCore k fun x => { x with posted := x.posted.filter (fun l => l.tag != some tag) }) l.addr l.bundle
    | none => c

/-- A job's remote burst is answered: a fence refusal is kennel fault 0x0507, a hole under an owner entry 0x0413 (R152, R593,
R608). -/
def jobAnswer (c : Chip) (e id code a : Nat) (data : List (BitVec 8)) : Chip :=
  let c := match c.xferOf e id with
    | some (_, m, k) =>
      let q : Req := ⟨c.agPath m.ag, k⟩
      if fenceCode code then c.kfault (slotDma e) 0x0507 q a k
      else if code = 0x0520 then c.kfault (slotDma e) 0x0413 q a k
      else c
    | none => c
  c.modXfer e id fun x => x.fin data

/-- A message of this device is answered (R136, R766, R793). -/
def answered (c : Chip) (s : Sent) (code : Nat) (data : List (BitVec 8)) : Chip :=
  let c := c.dropSent s.tag
  let data := if code = 0 then data else zeros s.msg.len
  match s.wait with
  | .core k => c.coreAnswer k s.tag code data
  | .job e id => c.jobAnswer e id code s.msg.addr data
  | .ext .dap =>
    let c := if code = 0 then c else c.wb R.DBG.DSTAT 3 true
    { c with dbg := { c.dbg with dapBusy := false, dapData := if s.msg.mt = 1 then BitVec.ofNat 32 (natLE (data.take 4)) else c.dbg.dapData } }
  | .ext _ => c.emit (.pcie (code != 0) (if code = 0 then data else []))

/-- A message ends without a response (R793, R794). -/
def ended (c : Chip) (s : Sent) : Chip :=
  match s.wait with
  | .core k =>
    let q : Req := ⟨if k = 16 then 0 else 1, if k = 16 then 0 else c.owner k⟩
    (c.report vxlSlot 0x0603 .refusal q s.msg.addr).answered s 0x0603 []
  | .ext w => (c.report vxlSlot 0x0603 .refusal (c.req w) s.msg.addr).answered s 0x0603 []
  | .job e id =>
    let c := c.dropSent s.tag
    match c.xferOf e id with
    | some (_, m, k) =>
      let c := c.modXfer e id fun x => { x with abort := true, busy := false, ops := [] }
      (c.cnt (R.VXL.XABT 0) 15 0 1).report vxlSlot 0x0603 .event ⟨c.agPath m.ag, k⟩ s.msg.addr
    | none => c

/-- The oldest message without a response has waited RTO milliseconds (R793). -/
def remoteTimeout (c : Chip) : Chip :=
  match c.casc.sent with
  | [] => c
  | s :: _ => (c.waitTo (s.at_ + ms (c.rf (R.VXL.RTO 0) 15 0))).ended s

/-- Send the answer to a message (R766): nothing for a device that has no route. A route-addressed message is answered by the
port it came by (R771). -/
def respond (c : Chip) (p : Nat) (m : Msg) (code : Nat) (data : List (BitVec 8)) : Chip :=
  let read := m.mt == 1 || m.mt == 4
  let r : Msg := { mt := if read then 0x81 else 0x82, dst := m.src, src := c.devNum, ken := m.ken, tag := m.tag
                   len := if read then m.len else 1, code := code, data := if read then (if code = 0 then data else zeros m.len) else [] }
  if m.rlen ≠ 0 then c.vxlQueue p { r with rlen := m.rlen, route := (m.route * 4 + m.route / 2 ^ 14) % 2 ^ 16 }
  else match c.routeTo m.src with
    | some q => c.vxlQueue q r
    | none => c

/-! ### Port states -/

def setVst (c : Chip) (p n : Nat) : Chip := c.wf (R.VXL.LSTAT p) 2 0 n
def vxlEn (c : Chip) (p : Nat) : Bool := decide (p < c.vxls) && c.rb (R.VXL.LCTL p) 0

/-- A port leaves traffic for OFF or LOST (R792, R793, R909): what it held is discarded and counted, and the messages that went out by
it end. -/
def portDown (c : Chip) (p st : Nat) : Chip :=
  let u := c.vport p
  let n := u.txq.length + (u.replay.filter (fun f => f.2.2.1)).length
  let c := (c.cnt (R.VXL.LOSTM p) 31 0 n).modVxl p fun _ => { since := c.now }
  let c := ((c.w (R.VXL.LCRD p) 0).setVst p st).wb (R.VXL.LSTAT p) 3 false
  (c.casc.sent.filter (fun s => s.port == p)).foldl ended c

/-- A port becomes UP (R760, R761, R783, R784). -/
def portUp (c : Chip) (p : Nat) : Chip :=
  let c := c.modVxl p fun _ => { pingAt := c.now + us 125, ackAt := c.now }
  let c := ((c.setVst p 5).w (R.VXL.LCRD p) (BitVec.ofNat 32 (32 + 64 * 2 ^ 8 + 64 * 2 ^ 16 + 16 * 2 ^ 24))).event (slotVxl p) 0x0602
  if c.arole = 5 ∧ c.casc.listen = none then
    c.setCasc fun k => { k with listen := some (c.now + us (3 * c.rf (R.VXL.CHINT 0) 9 0)) }
  else c

/-- A port begins to retrain (R757). -/
def retrain (c : Chip) (p : Nat) : Chip :=
  if c.vst p ≠ 5 then c
  else
    let c := ((c.setVst p 6).modVxl p fun u => { u with since := c.now, badRun := 0 }).cnt (R.VXL.LRPL p) 31 16 1
    c.eventOnce (slotVxl p) 0x0605 p

/-- A training state completes (R760). -/
def portAdvance (c : Chip) (p : Nat) : Chip :=
  let st := c.vst p
  if c.vxlEn p && 1 ≤ st && st ≤ 3 then c.setVst p (st + 1) else c

/-- The peer's handshake arrives (R761). -/
def handshake (c : Chip) (p : Nat) (h : PeerInfo) : Chip :=
  if !c.vxlEn p || c.vst p ≠ 4 then c
  else
    let c := c.w (R.VXL.PEER p) (BitVec.ofNat 32 (h.num.toNat + b2n h.valid * 2 ^ 5 + h.port.toNat * 2 ^ 6 + h.ident.toNat / 2 ^ 16 * 2 ^ 16))
    let c := c.w64 (R.VXL.PUID_LO p) h.uid.toNat
    if h.blsup &&& c.fuse.blsup = 0 || (h.valid && c.numbered && h.num.toNat == c.devNum) then
      (c.wb (R.VXL.LSTAT p) 3 true).event (slotVxl p) 0x0609
    else (c.wb (R.VXL.LSTAT p) 3 false).portUp p

/-! ### Frames -/

/-- A control frame leaves a port (R759). -/
def sendCtl (c : Chip) (p kind : Nat) (rest : List (BitVec 8)) : Chip := c.sendFrame p 1 0 0 true true (BitVec.ofNat 8 kind :: rest)

/-- Credits that are owed go back in a null frame (R758, R763). -/
def giveBack (c : Chip) (p : Nat) : Chip :=
  if c.vst p = 5 && (c.vport p).owed.any (· != 0) then c.sendFrame p 2 0 0 false false [] else c

/-- A block of a port was corrected, or could not be (R752, R757). -/
def blockMet (c : Chip) (p cor unc : Nat) : Chip :=
  let c := (c.cnt (R.VXL.LERR p) 15 0 cor).cnt (R.VXL.LERR p) 31 16 unc
  let c := c.modVxl p fun u => { u with badRun := if unc = 0 then 0 else u.badRun + unc }
  if 16 ≤ (c.vport p).badRun then c.retrain p else c

/-- Frame `s` lies before `t` in the order of SEQ, modulo 4,096. -/
def seqBefore (s t : Nat) : Bool := let d := (t + 4096 - s) % 4096; 1 ≤ d && d < 2048

/-- An ACK and returned credits take effect (R755, R763). -/
def ackCredits (c : Chip) (p ack : Nat) (cr : List (BitVec 4)) : Chip :=
  let u := c.vport p
  let keep := u.replay.filter (fun f => !seqBefore f.1 ack)
  let c := if keep.length = u.replay.length then c else c.modVxl p fun u => { u with replay := keep, ackAt := c.now, resends := 0 }
  forN 4 (fun v (c : Chip) =>
    let n := (nth 0 cr v).toNat
    let c := c.wf (R.VXL.LCRD p) (8 * v + 7) (8 * v) (min (vcPool v) (c.crv p v + n))
    forN n (fun _ (c : Chip) => c.modVxl p fun u => match u.held.findIdx? (fun h => h.1 == v) with
      | some i => { u with held := u.held.eraseIdx i }
      | none => u) c) c

/-- A NAK goes out, once for a gap (R756). -/
def sendNak (c : Chip) (p : Nat) : Chip :=
  if (c.vport p).nakSent then c
  else (c.sendCtl p 1 (bytesLE 2 (c.vport p).rxSeq)).modVxl p fun u => { u with nakSent := true }

/-- The buffers of `n` flits of a channel are free (R763). -/
def freed (c : Chip) (p v n : Nat) : Chip := (c.modVxl p fun u => { u with owed := modNth (· + n) u.owed v }).giveBack p

/-- A message is forwarded on a port (R769); the buffers it fills are free once its flits have moved onward. -/
def forward (c : Chip) (p q v : Nat) (m : Msg) : Chip :=
  (c.modVxl q fun u => { u with txq := u.txq ++ [⟨v, m.ken, m.flits, m.mt == 0x11, false, some p⟩] }).pump q

/-- A message that cannot be forwarded is refused with 0x0604 where the refusal arises (R769). -/
def noWay (c : Chip) (p v : Nat) (m : Msg) : Chip :=
  let c := (c.report vxlSlot 0x0604 .refusal ⟨7, m.ken⟩ m.addr).freed p v (1 + m.ndat)
  if v = 0 ∨ v = 2 then c.respond p { m with rlen := 0 } 0x0604 [] else c

/-- A whole message has arrived on a port (R765, R766, R769, R771). -/
def msgIn (c : Chip) (p v : Nat) (m : Msg) : Chip :=
  let own := c.numbered && m.dst == c.devNum
  let keep (c : Chip) (m : Msg) : Chip := c.modVxl p fun u => { u with inbox := u.inbox ++ [(v, m)] }
  let on (c : Chip) (q : Nat) (m : Msg) : Chip :=
    if q < c.vxls ∧ (c.vst q = 5 ∨ c.vst q = 6) then c.forward p q v { m with hops := m.hops + 1 } else c.noWay p v m
  if mtVc m.mt = none then (c.cnt (R.VXL.LOSTM p) 31 0 1).freed p v (1 + m.ndat)
  else if m.rlen = 0 then
    if own then keep c m
    else match (if c.numbered then c.routeTo m.dst else none) with
      | some q => on c q m
      | none => c.noWay p v m
  else if own then
    if m.mt = 0x81 ∨ m.mt = 0x82 then keep c m else on c (m.route % 4) m
  else if c.numbered then on c (c.rtab m.dst) m
  else if m.mt = 0x81 ∨ m.mt = 0x82 then
    on c (m.route / 2 ^ 14) { m with route := (m.route * 4 + m.route / 2 ^ 14) % 2 ^ 16, rlen := m.rlen - 1 }
  else
    let m' : Msg := { m with route := m.route / 4 + p * 2 ^ 14, rlen := m.rlen - 1 }
    if m'.rlen = 0 then keep c { m' with rlen := min 15 (max 1 m.hops) } else on c (m'.route % 4) m'

/-- A flit is accepted (R754, R766). -/
def flitIn (c : Chip) (p v : Nat) (flit : List (BitVec 8)) : Chip :=
  let got := nth [] (c.vport p).rx v ++ [padTo 64 flit]
  let need := 1 + min 4 (headNdat (nth [] got 0))
  if got.length < need then c.modVxl p fun u => { u with rx := u.rx.set v got }
  else (c.modVxl p fun u => { u with rx := u.rx.set v [] }).msgIn p v (Msg.parse got)

/-- A frame with no control content arrives (R752, R754, R756). -/
def frameIn (c : Chip) (p : Nat) (f : RxFrame) : Chip :=
  if c.vst p ≠ 5 then c
  else
    let c := c.blockMet p (b2n f.fecc) (b2n f.fecu)
    if f.fecu ∨ c.vst p ≠ 5 then c
    else if !f.crcOk then c.sendNak p
    else
      let c := c.ackCredits p f.ack.toNat f.cr
      let c := if !f.valid then c
        else if f.seq.toNat = (c.vport p).rxSeq then
          let c := c.modVxl p fun u => { u with rxSeq := (u.rxSeq + 1) % 4096, nakSent := false }
          let ken := if (nth [] (c.vport p).rx f.vc.val).isEmpty then fle f.flit 3 1 % 8 else fle (nth [] (nth [] (c.vport p).rx f.vc.val) 0) 3 1 % 8
          (c.meter (slotVxl p) 1 ken 1).flitIn p f.vc.val f.flit
        else if seqBefore (c.vport p).rxSeq f.seq.toNat then c.sendNak p
        else c
      (c.pump p).giveBack p

/-- A control frame arrives: its ACK and credits, and whether it stands (R759). -/
def ctlIn (c : Chip) (p : Nat) (f : RxFrame) : Bool × Chip :=
  if c.vst p ≠ 5 then (false, c)
  else
    let c := c.blockMet p (b2n f.fecc) (b2n f.fecu)
    if f.fecu ∨ c.vst p ≠ 5 then (false, c)
    else if !f.crcOk then (false, c.sendNak p)
    else (true, (c.ackCredits p f.ack.toNat f.cr).pump p)

/-- Send again from a SEQ on (R756); the eighth time without progress the port retrains (R757). -/
def resend (c : Chip) (p seq : Nat) : Chip :=
  let l := (c.vport p).replay.dropWhile (fun f => f.1 != seq)
  if l = [] then c
  else
    let c := l.foldl (fun c f => c.sendFrame p 0 f.2.1 f.1 true false f.2.2.2) c
    let c := (c.cnt (R.VXL.LRPL p) 15 0 1).modVxl p fun u => { u with resends := u.resends + 1, ackAt := c.now }
    if 8 ≤ (c.vport p).resends then c.retrain p else c

/-! ### Delay measurement -/

/-- The time in picoseconds. -/
def nowPs (c : Chip) : Nat := c.now * 1000 / 6

/-- PING_SEND (R759, R783). -/
def pingSend (c : Chip) (p : Nat) : Chip :=
  if c.vst p ≠ 5 then c
  else
    let c := c.waitTo (c.vport p).pingAt
    let c := c.sendCtl p 2 (zeros 7 ++ bytesLE 8 c.nowPs)
    c.modVxl p fun u => { u with pings := u.pings + 1, pingAt := c.now + (if u.pings + 1 < 8 then us 125 else ms 1) }

/-- A PING is answered at once (R759, R783). -/
def pingIn (c : Chip) (p : Nat) (f : RxFrame) : Chip :=
  match c.ctlIn p f with
  | (true, c) => c.sendCtl p 3 (zeros 7 ++ bytesLE 8 (fle f.flit 8 8) ++ zeros 4)
  | (false, c) => c

/-- An ECHO: half of the round trip less the turnaround, averaged over the last eight (R783). -/
def echoIn (c : Chip) (p : Nat) (f : RxFrame) (rtt : Nat) : Chip :=
  match c.ctlIn p f with
  | (false, c) => c
  | (true, c) =>
    let l := (rtt / 2 :: (c.vport p).echoes).take 8
    (c.modVxl p fun u => { u with echoes := l, echoCnt := u.echoCnt + 1 }).wf (R.VXL.LDLY p) 23 0 (l.foldl (· + ·) 0 / l.length)

/-! ### Roles and heel tokens -/

def setArole (c : Chip) (n : Nat) : Chip := c.wf (R.VXL.CSTAT 0) 2 0 n

/-- The role that ROLE asks for begins (R784 to R786). -/
def roleBegin (c : Chip) : Chip :=
  let up := (List.range c.vxls).any (fun p => c.vst p == 5)
  let c := c.wb (R.VXL.CSTAT 0) 3 false
  let c := c.setCasc fun k => { k with rxAt := c.now, listen := none, gap := false, lastB := none }
  match c.croleOf with
  | 0 => c.setArole 0
  | 1 => (c.setArole 5).setCasc fun k => { k with listen := if up then some (c.now + us (3 * c.rf (R.VXL.CHINT 0) 9 0)) else none }
  | n => c.setArole n

/-- LISTEN ends without a token (R784). -/
def listenEnd (c : Chip) : Chip :=
  match c.casc.listen with
  | some t =>
    if c.arole ≠ 5 then c
    else
      let c := (c.waitTo t).setArole 1
      let c := (c.wf (R.VXL.CSTAT 0) 8 4 c.devNum).wf (R.VXL.CSTAT 0) 23 16 0
      c.setCasc fun k => { k with epoch := some 0, tokAt := c.now, listen := none }
  | none => c

/-- A token of the manager and epoch wins over what is in force (R774, R785): `none` when it does not, else the tokens lost before it. -/
def tokenWins (c : Chip) (t : Token) : Option Nat :=
  let ahead (e : Nat) : Nat := (t.mepo + 256 - e) % 256
  let newer : Bool := match c.casc.epoch with
    | none => true
    | some e => 1 ≤ ahead e && ahead e < 128
  let same : Bool := match c.casc.epoch with | some e => ahead e == 0 | none => false
  if c.arole = 1 then
    if t.mgrid ≠ c.devNum ∧ (newer ∨ (same ∧ t.mgrid < c.devNum)) then some 0 else none
  else if newer then some 0
  else if !same then none
  else match c.casc.last with
    | none => some 0
    | some (g, e, n) =>
      if e ≠ t.mepo ∨ t.mgrid < g then some 0
      else if g < t.mgrid then none
      else
        let d := (t.tseq + 0x10000 - n) % 0x10000
        if d = 0 ∨ 0x8000 ≤ d then none else some (d - 1)

/-- A good copy of a token arrives on a port (R774 to R776, R781, R782, R785, R786). -/
def tokenIn (c : Chip) (p : Nat) (t : Token) : Chip :=
  match c.tokenWins t with
  | none => c
  | some lost =>
    let c := if lost = 0 then c
      else ((c.cnt (R.VXL.HCNT 0) 15 0 lost).setCasc fun k => { k with gap := true }).eventOnce vxlSlot 0x060A 0
    let age := t.age + c.rf (R.VXL.LDLY p) 23 0
    let c := c.setCasc fun k => { k with last := some (t.mgrid, t.mepo, t.tseq), rxAt := c.now, epoch := some t.mepo, lastFnum := t.fnum, listen := none }
    let c := ((c.wb (R.VXL.CSTAT 0) 3 false).wf (R.VXL.CSTAT 0) 8 4 t.mgrid).wf (R.VXL.CSTAT 0) 23 16 t.mepo
    let c := if t.hops < 31 then c.sendToken { t with hops := t.hops + 1, age := age } (some p) else c
    let c := match c.arole with
      | 1 => (((c.setArole 4).wf R.TICK.TCFG 1 0 0).srcOff).event vxlSlot 0x0608
      | 5 => c.setArole 4
      | _ => c
    if c.arole ≠ 2 ∧ c.arole ≠ 3 then c
    else
      let lat := c.clat * 1000
      let left := (lat - age) / 1000
      let c := c.wf (R.VXL.HMARG 0) 15 0 (min left (c.rf (R.VXL.HMARG 0) 15 0))
      let (at_, c) := if lat < age + 100000 then (c.now + cyc 1, (c.cnt (R.VXL.HCNT 0) 31 16 1).eventOnce vxlSlot 0x0606 0)
        else (((c.now * 1000 + (lat - age) * 6) + 2500) / 5000 * 5, c)
      c.setCasc fun k => { k with due := k.due ++ [(at_, t)] }

/-- GTIME is compared with the token's and slewed or stepped (R791). How fast it is slewed within 100 ppm is a free value. -/
def gtDiscipline (c : Chip) (t : Token) : Chip :=
  if !c.rb (R.VXL.GTC 0) 0 then c
  else
    let d : Int := (c.gtime : Int) - ((t.gtime + c.clat : Nat) : Int)
    let c := c.w (R.VXL.GERR 0) (BitVec.ofNat 32 (wrapN 32 d))
    if 1000 < d.natAbs then { c.gtStep (-d) with gtSlew := 0 }
    else
      let (v, c) := c.gtMark.free
      { c with gtSlew := if d = 0 then 0 else if d < 0 then (v % 100001 : Nat) else -((v % 100001 : Nat) : Int) }

/-- A follower's or standby's state takes the token's (R777, R789, R1022). -/
def tokenState (c : Chip) (st : Nat) : Chip :=
  match c.tstate, st with
  | 1, 2 => c.flushAsk
  | 1, 3 | 0, 3 => (c.modTick fun t => { t with toOff := false }).enterHold
  | 1, 0 | 3, 0 => (c.modTick fun t => { t with toOff := true }).enterHold
  | _, _ => c

/-- A token acts at its cascade time on a follower or standby with SRC = VXL (R777, R778, R782, R787, R789, R791, R1022). -/
def followAct (c : Chip) (t : Token) : Chip :=
  match t.kind with
  | 1 =>
    let c := (c.w64 R.TICK.POS_LO t.pos).wb R.TICK.TSTAT 2 t.dir
    let c := match c.casc.lineAt with
      | some l => c.wf R.TICK.LPER 23 0 (min 0xFFFFFF ((c.now - l) / 6))
      | none => c
    let c := c.setCasc fun k => { k with lineAt := some c.now, lastPos := sInt 48 t.pos, sposAt := c.sposNow }
    let c := c.gtDiscipline t
    let bnd := t.boundary || (c.casc.gap && c.casc.lastB.isSome && c.casc.lastB != some t.fnum)
    let c := if bnd then c.setCasc fun k => { k with lastB := some t.fnum, gap := false } else c
    if c.tstate = 1 ∨ c.tstate = 2 ∨ bnd then
      (c.lineAct t.fnum t.row bnd t.test t.fdly t.pos).modTick fun u => { u with nextF := t.fnum + 1 }
    else c
  | 2 => if c.tstate = 1 then (if c.tick.opened then c.flushAct t.fnum t.fper else c.enterHold) else c
  | _ => c.tokenState t.state

/-- CASCADE_TIME_ACTION (R776): the oldest token acts. -/
def cascadeAct (c : Chip) : Chip :=
  match c.casc.due with
  | [] => c
  | (at_, t) :: rest =>
    let c := (c.waitTo at_).setCasc fun k => { k with due := rest }
    if c.arole = 1 ∨ (c.croleOf ≠ 0 ∧ c.src ≠ 2) then
      match t.kind with
      | 1 => c.lineAct t.fnum t.row t.boundary t.test t.fdly t.pos
      | _ => if c.tstate = 1 then c.flushAct t.fnum t.fper else c
    else if c.src = 2 then c.followAct t
    else c

/-- HEEL_LOSS (R786); a standby takes over (R788). -/
def heelLoss (c : Chip) : Chip :=
  if (c.arole ≠ 2 ∧ c.arole ≠ 3) ∨ c.rb (R.VXL.CSTAT 0) 3 then c
  else
    let c := c.waitTo (c.casc.rxAt + us (3 * c.rf (R.VXL.CHINT 0) 9 0))
    let c := (c.wb (R.VXL.CSTAT 0) 3 true).event vxlSlot 0x0607
    if c.arole = 2 then c
    else
      let ep := (c.rf (R.VXL.CSTAT 0) 23 16 + 1) % 256
      let c := ((c.setArole 1).wf (R.VXL.CSTAT 0) 8 4 c.devNum).wf (R.VXL.CSTAT 0) 23 16 ep
      let c := (c.setCasc fun k => { k with epoch := some ep }).event vxlSlot 0x0608
      let k := c.casc
      let c := (c.wf R.TICK.TCFG 1 0 1).setPos (k.lastPos + c.sposNow - k.sposAt)
      let per := c.flushNs
      let c := if c.tstate = 0 then c.leaveOff
        else if c.tstate = 1 then c.heelDue (c.heelToken 2 false false k.lastFnum 0 2 per)
        else c
      c.modTick fun t => { t with origin := k.lastPos * 65536, hwm := k.lastPos * 65536, nextIx := 1 }

/-! ### Register writes -/

/-- A write of a VXL register with a legal range or moment (R757, R760, R784, R785, R798). -/
def vxlWrite (c : Chip) (who : Who) (p key : Nat) (val : BitVec 32) : Chip :=
  let bad (c : Chip) : Chip := c.badValue who key
  let runs := c.tstate = 1 || c.tstate = 2
  match key % 0x1000 with
  | 0x040 =>
    let was := c.rb key 0
    if fld val 15 8 = 0 ∨ (was ∧ fld val 15 8 ≠ c.rf key 15 8) then c.putIf who key val false bad
    else
      let c := c.putReg who key val
      let c := if !was && bit val 0 then (if c.survx (16 + p) then c.setVst p 1 else c)
        else if was && !bit val 0 then c.portDown p 0
        else c
      if bit val 1 then c.retrain p else c
  | 0x080 => if runs then c.putIf who key val false bad else (c.putReg who key val).roleBegin
  | 0x08C => c.putIf who key val (!runs && 1000 ≤ fld val 14 0 && fld val 14 0 ≤ 20000) bad
  | 0x090 => c.putIf who key val (10 ≤ fld val 9 0 && fld val 9 0 ≤ 1000) bad
  | 0x094 => c.putIf who key val (fld val 15 0 != 0) bad
  | 0x098 | 0x09C | 0x0A0 | 0x0A4 =>
    c.putIf who key val ((List.range 8).all (fun i => let n := fld val (4 * i + 3) (4 * i); n < 4 || n == 15)) bad
  | 0x0C0 => { c.gtMark.putReg who key val with gtSlew := 0 }
  | _ => c.putReg who key val

end Chip

/-- PORT_STATE_ADVANCE (R760). -/
def execPortStateAdvance (p : Fin 4) (s : State) : Host.Outcome State Fault Refusal := s.up fun c => c.portAdvance p.val

/-- HANDSHAKE_RECEIVED (R761). -/
def execHandshakeReceived (p : Fin 4) (h : PeerInfo) (s : State) : Host.Outcome State Fault Refusal :=
  s.up fun c => c.handshake p.val h

/-- FRAME_RECEIVED (R754). -/
def execFrameReceived (p : Fin 4) (f : RxFrame) (s : State) : Host.Outcome State Fault Refusal := s.up fun c => c.frameIn p.val f

/-- NAK_RECEIVED (R756). -/
def execNakReceived (p : Fin 4) (f : RxFrame) (s : State) : Host.Outcome State Fault Refusal :=
  s.up fun c => match c.ctlIn p.val f with
    | (true, c) => c.resend p.val (fle f.flit 1 2 % 4096)
    | (false, c) => c

/-- REPLAY_TIMEOUT (R756). -/
def execReplayTimeout (p : Fin 4) (s : State) : Host.Outcome State Fault Refusal :=
  s.up fun c => match (c.vport p.val).replay with
    | [] => c
    | f :: _ => if c.vst p.val = 5 then (c.waitTo ((c.vport p.val).ackAt + us 2)).resend p.val f.1 else c

/-- RETRAIN_BEGIN (R757): lock on the alignment blocks is lost. -/
def execRetrainBegin (p : Fin 4) (s : State) : Host.Outcome State Fault Refusal := s.up fun c => c.retrain p.val

/-- RETRAIN_COMPLETE (R757). -/
def execRetrainComplete (p : Fin 4) (s : State) : Host.Outcome State Fault Refusal :=
  s.up fun c => if c.vst p.val = 6 then
      ((c.setVst p.val 5).modVxl p.val fun u => { u with resends := 0, ackAt := c.now }).pump p.val
    else c

/-- PORT_LOST (R757, R792). -/
def execPortLost (p : Fin 4) (s : State) : Host.Outcome State Fault Refusal :=
  s.up fun c => if c.vst p.val = 6 then
      (((c.waitTo ((c.vport p.val).since + ms (c.rf (R.VXL.LCTL p.val) 15 8))).portDown p.val 7).event (slotVxl p.val) 0x0601).settle
    else c

/-- LOST_HOLD_EXPIRY (R760). -/
def execLostHoldExpiry (p : Fin 4) (s : State) : Host.Outcome State Fault Refusal :=
  s.up fun c => if c.vst p.val = 7 then (c.waitTo ((c.vport p.val).since + ms 1)).setVst p.val 1 else c

/-- REMOTE_TIMEOUT (R793). -/
def execRemoteTimeout (s : State) : Host.Outcome State Fault Refusal := s.up fun c => c.remoteTimeout.settle

/-- PING_SEND (R783). -/
def execPingSend (p : Fin 4) (s : State) : Host.Outcome State Fault Refusal := s.up fun c => c.pingSend p.val

/-- PING_RECEIVED (R759). -/
def execPingReceived (p : Fin 4) (f : RxFrame) (s : State) : Host.Outcome State Fault Refusal := s.up fun c => c.pingIn p.val f

/-- ECHO_RECEIVED (R783), with the round trip less the turnaround in picoseconds. -/
def execEchoReceived (p : Fin 4) (f : RxFrame) (rtt : BitVec 32) (s : State) : Host.Outcome State Fault Refusal :=
  s.up fun c => c.echoIn p.val f rtt.toNat

/-- BEAT_TOKEN (R773). -/
def execBeatToken (s : State) : Host.Outcome State Fault Refusal :=
  s.up fun c =>
    if c.arole ≠ 1 then c
    else
      let c := c.waitTo (c.casc.tokAt + us (c.rf (R.VXL.CHINT 0) 9 0) / 2)
      c.sendHeel (c.heelToken 3 false (c.src == 3) c.tick.frame c.tick.row c.decState 0)

/-- HEEL_TOKEN_RECEIVED (R774), with the FEC counts of its two blocks. -/
def execHeelTokenReceived (p : Fin 4) (bytes : List (BitVec 8)) (fecc fecu : BitVec 2) (s : State) : Host.Outcome State Fault Refusal :=
  s.up fun c =>
    if c.vst p.val ≠ 5 then c
    else
      let c := c.blockMet p.val fecc.toNat fecu.toNat
      if fecu ≠ 0 ∨ (c.vport p.val).echoCnt < 8 then c
      else match Token.parse bytes with
        | some t => c.tokenIn p.val t
        | none => c

/-- CASCADE_TIME_ACTION (R776). -/
def execCascadeTimeAction (s : State) : Host.Outcome State Fault Refusal := s.up fun c => c.cascadeAct

/-- LISTEN_TIMEOUT (R784). -/
def execListenTimeout (s : State) : Host.Outcome State Fault Refusal := s.up fun c => c.listenEnd

/-- HEEL_LOSS (R786). -/
def execHeelLoss (s : State) : Host.Outcome State Fault Refusal := s.up fun c => c.heelLoss

end Sys2Proof.Machine
end

