-- ==== Sys2Proof/Machine/Egress.lean ====
section
/-!
DEFINITION. Host and plant network: egress rings and their release, result and command rings, Ethernet queues and datagrams,
tick reports, event records and what arrives from the host and the network.
-/
namespace Sys2Proof.Machine

/-! ### Records -/

/-- Replace bytes of a record. -/
def recPut (r : List (BitVec 8)) (i : Nat) (bs : List (BitVec 8)) : List (BitVec 8) := r.take i ++ bs ++ r.drop (i + bs.length)

/-- The number of a valid record in a slot (R809): bytes 4 to 7, whose complement stands in bytes 60 to 63. -/
def recSeq (r : List (BitVec 8)) : Option Nat := let s := le r 4 4; if le r 60 4 = 0xFFFFFFFF - s then some s else none

/-- Stamp a record number (R809, R811). -/
def recNum (r : List (BitVec 8)) (s : Nat) : List (BitVec 8) := recPut (recPut r 4 (bytesLE 4 s)) 60 (bytesLE 4 (0xFFFFFFFF - s))

/-- The envelope of a record the device makes itself (R829). -/
def recMake (typ flags ken dev seq fnum : Nat) (body : List (BitVec 8)) : List (BitVec 8) :=
  let b (x : Nat) : BitVec 8 := BitVec.ofNat 8 x
  [b typ, b flags, b ken, b dev] ++ bytesLE 4 seq ++ bytesLE 8 fnum ++ padTo 44 (body.take 44) ++ bytesLE 4 (0xFFFFFFFF - seq)

/-- Bytes of a number, the highest first. -/
def bytesBE (n x : Nat) : List (BitVec 8) := (bytesLE n x).reverse

/-- Ones' complement sum of 16-bit words, for IP and UDP checksums. -/
def onesSum : List (BitVec 8) → Nat
  | a :: b :: r => a.toNat * 256 + b.toNat + onesSum r
  | [a] => a.toNat * 256
  | [] => 0

/-- The Internet checksum. -/
def inetSum (bs : List (BitVec 8)) : Nat :=
  let s := onesSum bs
  let s := s % 0x10000 + s / 0x10000
  let s := s % 0x10000 + s / 0x10000
  0xFFFF - s

namespace Chip

abbrev pciSlot : Nat := 0x011

def setEgr (c : Chip) (f : Egress → Egress) : Chip := { c with egr := f c.egr }
def pfn (c : Chip) (f : Nat) : PcieFn := nth {} c.egr.fns f
def modFn (c : Chip) (f : Nat) (g : PcieFn → PcieFn) : Chip := c.setEgr fun e => { e with fns := modNth g e.fns f }
def ethP (c : Chip) (p : Nat) : EthPort := nth {} c.egr.eth p
def modEth (c : Chip) (p : Nat) (g : EthPort → EthPort) : Chip := c.setEgr fun e => { e with eth := modNth g e.eth p }
def ethQ (c : Chip) (p k : Nat) : EthQ := nth {} (c.ethP p).qs k
def modEthQ (c : Chip) (p k : Nat) (g : EthQ → EthQ) : Chip := c.modEth p fun e => { e with qs := modNth g e.qs k }

/-! ### Destinations -/

/-- The PCIe function that kennel k's records go to (R819). -/
def pcieDest (c : Chip) (k : Nat) : Option Nat :=
  match c.vfOf k with
  | some v => some v
  | none => if k = 0 then some 0 else none

/-- The result ring of a function takes a record (R819, R833). -/
def resultRoom (c : Chip) (f : Nat) : Bool :=
  c.rb R.PCI.PLSTAT 8 && c.surv 30 && c.rb (R.PCI.RRCFG f) 8 &&
    decide (((c.r (R.PCI.RRPROD f)).toNat + 2 ^ 32 - (c.pfn f).rcons) % 2 ^ 32 < 2 ^ c.rf (R.PCI.RRCFG f) 4 0)

/-- The port that leads to the acting manager, with escape credits for a record, when this device is not it (R763, R790, R821). -/
def cascPort (c : Chip) : Option Nat :=
  if c.arole = 1 ∨ !c.numbered then none
  else match c.routeTo c.mgrId with
    | some p => if c.vst p = 5 && decide (2 ≤ c.crv p 3) && !(c.vport p).txq.any (fun m => m.vc == 3) then some p else none
    | none => none

/-- Destination d of kennel k takes a record now (R819 to R821). -/
def destOk (c : Chip) (k d : Nat) : Bool :=
  match d with
  | 0 => match c.pcieDest k with | some f => c.resultRoom f | none => false
  | 1 | 2 => c.survx (20 + (d - 1)) && c.rb (R.ETH.QCTL (d - 1) k) 0
  | _ => c.cascPort.isSome

/-- The unsignalled entries of a function are signalled (R819). -/
def signal (c : Chip) (f : Nat) : Chip := (c.msi f 0).modFn f fun x => { x with unsig := 0, sigAt := none }

/-- A record enters a function's result ring (R819). -/
def toResult (c : Chip) (f k : Nat) (r : List (BitVec 8)) : Chip :=
  let n := (c.r (R.PCI.RRPROD f)).toNat
  let c := c.meter pciSlot 0 k 64
  let c := c.emit (.hostWrite f (c.r64 (R.PCI.RRB_LO f) + 64 * (n % 2 ^ c.rf (R.PCI.RRCFG f) 4 0)) r)
  let c := c.w (R.PCI.RRPROD f) (BitVec.ofNat 32 (n + 1))
  let c := c.emit (.hostWrite f (c.r64 (R.PCI.RRWB_LO f)) (bytesLE 4 (n + 1)))
  let c := c.modFn f fun x => { x with unsig := x.unsig + 1, sigAt := if x.unsig = 0 then some c.now else x.sigAt }
  if c.rf (R.PCI.RRCFG f) 23 16 ≤ (c.pfn f).unsig then c.signal f else c

/-! ### Datagrams -/

/-- Records of a full datagram (R823 to R825). -/
def dgMax (c : Chip) (p k : Nat) : Nat :=
  min 255 ((c.rf (R.ETH.MTU p) 13 0 - (if c.rb (R.ETH.QCTL p k) 1 then 40 else 20) - 8 - 16) / 64)

/-- A 48-bit MAC register, first octet first. -/
def mac (c : Chip) (lo : Nat) : List (BitVec 8) := bytesBE 6 (c.r64 lo % 2 ^ 48)

/-- The headers around a datagram's payload (R825). -/
def dgFrame (c : Chip) (p k : Nat) (pay : List (BitVec 8)) : List (BitVec 8) :=
  let q := c.r (R.ETH.QCTL p k)
  let v6 := bit q 1
  let tag := if bit q 2 then [0x81, 0x00] ++ bytesBE 2 (fld q 17 15 * 2 ^ 13 + fld q 14 3) else []
  let ulen := 8 + pay.length
  let words (f : Nat → Nat) : List (BitVec 8) := (List.range 4).flatMap (fun i => bytesBE 4 (c.r (f i)).toNat)
  let qdip (i : Nat) : Nat := R.ETH.QDIP0 p k + 4 * i
  let src := if v6 then words (R.ETH.IP6 p) else bytesBE 4 (c.r (R.ETH.IP4 p)).toNat
  let dst := if v6 then words qdip else bytesBE 4 (c.r (R.ETH.QDIP0 p k)).toNat
  let ports := bytesBE 2 (c.rf (R.ETH.QPORT p k) 15 0) ++ bytesBE 2 (c.rf (R.ETH.QPORT p k) 31 16)
  let sum := inetSum (src ++ dst ++ bytesBE 2 17 ++ bytesBE 2 ulen ++ ports ++ bytesBE 2 ulen ++ [0, 0] ++ pay)
  let udp := ports ++ bytesBE 2 ulen ++ bytesBE 2 (if sum = 0 then 0xFFFF else sum) ++ pay
  let dscp := fld q 23 18
  let ip := if v6 then bytesBE 4 (6 * 2 ^ 28 + dscp * 2 ^ 22) ++ bytesBE 2 ulen ++ [17, 64] ++ src ++ dst
    else
      let a := [0x45, BitVec.ofNat 8 (dscp * 4)] ++ bytesBE 2 (20 + ulen) ++ [0, 0, 0x40, 0, 64, 17]
      a ++ bytesBE 2 (inetSum (a ++ src ++ dst)) ++ src ++ dst
  c.mac (R.ETH.QDMAC_LO p k) ++ c.mac (R.ETH.MAC_LO p) ++ tag ++ (if v6 then [0x86, 0xDD] else [0x08, 0x00]) ++ ip ++ udp

/-- The oldest records of a queue leave as one datagram, when the link is up (R823 to R825). -/
def dgSend (c : Chip) (p k : Nat) : Chip :=
  let q := c.ethQ p k
  if q.recs = [] then c
  else if !(c.rb (R.ETH.ESTAT p) 0 && c.rb (R.ETH.ECTL p) 0 && c.rb (R.ETH.QCTL p k) 0) then c
  else
    let rs := q.recs.take (max 1 (c.dgMax p k))
    let b (x : Nat) : BitVec 8 := BitVec.ofNat 8 x
    let pay := [0x59, 0x5A, 0x01, b rs.length] ++ bytesLE 4 q.dseq ++ [b c.devNum, b k] ++ bytesLE 2 q.qdrop ++ zeros 4 ++ rs.flatten
    let f := c.dgFrame p k pay
    let c := (c.meter (slotEth p) 0 k f.length).emit (.datagram p k f)
    c.modEthQ p k fun q => { q with recs := q.recs.drop rs.length, dseq := (q.dseq + 1) % 2 ^ 32, qdrop := 0, openAt := none }

/-- Full datagrams leave (R824), by fuel; what stands open after them has its linger time from now. -/
def dgFull : Nat → Chip → Nat → Nat → Chip
  | 0, c, _, _ => c
  | n + 1, c, p, k =>
    let c' := if c.dgMax p k ≤ (c.ethQ p k).recs.length then c.dgSend p k else c
    if (c'.ethQ p k).recs.length = (c.ethQ p k).recs.length then c' else dgFull n c' p k

/-- Every open datagram is closed (R824): those full are sent first. -/
def dgClose : Nat → Chip → Nat → Nat → Chip
  | 0, c, _, _ => c
  | n + 1, c, p, k =>
    let c' := c.dgSend p k
    if (c'.ethQ p k).recs.length = (c.ethQ p k).recs.length then c' else dgClose n c' p k

/-- A record enters queue k of port p (R820): a full queue displaces its oldest. `scan` says that a release scan is under way. -/
def toEth (c : Chip) (p k : Nat) (scan : Bool) (r : List (BitVec 8)) : Chip :=
  let q := c.ethQ p k
  let c := if q.recs.length < 1024 then c
    else
      let c := (c.cnt (R.ETH.QDISC p k) 31 0 1).modEthQ p k fun q => { q with recs := q.recs.drop 1, qdrop := min 65535 (q.qdrop + 1) }
      let c := c.setEgr fun e => { e with disc := modNth (fun n => (n + 1) % 2 ^ 32) e.disc (4 * k + 1 + p) }
      c.eventOnce (slotEth p) 0x0D07 (8 * p + k)
  let c := c.modEthQ p k fun q => { q with recs := q.recs ++ [r], openAt := if q.openAt.isNone && !scan then some c.now else q.openAt }
  dgFull ((c.ethQ p k).recs.length) c p k

/-- A record leaves for the acting manager (R790, R821). -/
def toManager (c : Chip) (k : Nat) (r : List (BitVec 8)) : Chip :=
  match c.cascPort with
  | some p => c.vxlQueue p { mt := 0x11, dst := c.mgrId, src := c.devNum, ken := k, tag := 0, len := 64, data := r }
  | none => c

/-- Destination d takes a record of kennel k. -/
def deliverRec (c : Chip) (k d : Nat) (scan : Bool) (r : List (BitVec 8)) : Chip :=
  match d with
  | 0 => match c.pcieDest k with | some f => c.toResult f k r | none => c
  | 1 | 2 => c.toEth (d - 1) k scan r
  | _ => c.toManager k r

/-! ### Rings -/

/-- A ring as a destination reads it (R809, R811): the egress ring of a kennel, or its forward ring. -/
def ringEn (c : Chip) (fwd : Bool) (k : Nat) : Bool := c.rb (if fwd then R.PCI.FRCFG k else R.PCI.ERCFG k) 8
def ringLog (c : Chip) (fwd : Bool) (k : Nat) : Nat := c.rf (if fwd then R.PCI.FRCFG k else R.PCI.ERCFG k) 4 0
def ringBase (c : Chip) (fwd : Bool) (k : Nat) : Nat := c.r64 (if fwd then R.PCI.FRB_LO k else R.PCI.ERB_LO k) % 2 ^ 48
def ringPos (c : Chip) (fwd : Bool) (k d : Nat) : Nat := nth 0 (if fwd then c.egr.fpos else c.egr.pos) (4 * k + d)
def setRingPos (c : Chip) (fwd : Bool) (k d n : Nat) : Chip :=
  c.setEgr fun e => if fwd then { e with fpos := e.fpos.set (4 * k + d) (n % 2 ^ 32) } else { e with pos := e.pos.set (4 * k + d) (n % 2 ^ 32) }

/-- Records of kennel k are discarded on the way to a destination (R816, R818, R831). -/
def ringDiscard (c : Chip) (k d n : Nat) : Chip :=
  (c.cnt (R.PCI.EDISC k) 31 0 n).setEgr fun e => { e with disc := modNth (fun x => (x + n) % 2 ^ 32) e.disc (4 * k + d) }

/-- What a destination finds in its next slot (R809, R816, R818). -/
inductive SlotSay where
  /-- A queued record. -/
  | got (r : List (BitVec 8))
  /-- It has moved on: to a later record, or past a poisoned slot. -/
  | moved
  /-- Nothing is queued, or the slot cannot be read. -/
  | empty

/-- Read the next slot of a destination. -/
def ringRead (c : Chip) (fwd : Bool) (k d : Nat) : SlotSay × Chip :=
  let e := c.ringPos fwd k d
  let n := 2 ^ c.ringLog fwd k
  let a := c.ringBase fwd k + 64 * (e % n)
  let ken := if fwd then 0 else k
  if c.regionOf a 64 ≠ .hbm then (.empty, c)
  else match c.fence ken .hbm a 64 false with
    | some code =>
      let cfg := if fwd then R.PCI.FRCFG k else R.PCI.ERCFG k
      (.empty, (c.wb cfg 8 false).report pciSlot code .event ⟨0, ken⟩ a)
    | none =>
      if (c.unavailable .hbm a 64).isSome then (.empty, c)
      else
        let (c, bs, bad) := (c.meter (slotHbm (c.stackOf a)) 0 ken 2).eccRead .hbm a 64 ken
        if bad.isSome then (.moved, (c.ringDiscard k d 1).setRingPos fwd k d (e + 1))
        else match recSeq bs with
          | none => (.empty, c)
          | some s =>
            let ahead := (s + 2 ^ 32 - e) % 2 ^ 32
            if ahead = 0 then (.got bs, c)
            else if 2 ^ 31 ≤ ahead ∨ ahead % n ≠ 0 then (.empty, c)
            else (.moved, ((c.ringDiscard k d (ahead - n + 1)).setRingPos fwd k d (e + (ahead - n + 1))).eventOnce pciSlot 0x0D04 k)

/-- A frame was opened under TEST, or is too old to tell while test mode is active (R817). -/
def recTest (c : Chip) (f : Nat) : Bool := c.tick.testF.contains f || (decide (f + 65536 ≤ c.fnum) && c.rb R.DBG.DSTAT 2)

/-- The fields that the egress writes into a record it takes (R817). -/
def recStamp (c : Chip) (fwd late : Bool) (k : Nat) (r : List (BitVec 8)) : List (BitVec 8) :=
  if fwd then r
  else
    let f := le r 8 8
    recPut r 1 [BitVec.ofNat 8 (b2n late + 2 * b2n (c.recTest f)), BitVec.ofNat 8 k, BitVec.ofNat 8 c.devNum]

/-- A destination takes what it may from a ring, by fuel (R813, R814): the records of frames up to `f`; each is marked LATE when its
frame lies before `from_`. Answers how many records of frame `f` it took. -/
def takeN : Nat → Chip → Bool → Nat → Nat → Nat → Nat → Bool → Nat → Nat × Chip
  | 0, c, _, _, _, _, _, _, n => (n, c)
  | fuel + 1, c, fwd, k, d, f, from_, scan, n =>
    if !c.ringEn fwd k || !c.destOk k d then (n, c)
    else match c.ringRead fwd k d with
      | (.empty, c) => (n, c)
      | (.moved, c) => takeN fuel c fwd k d f from_ scan n
      | (.got r, c) =>
        let g := le r 8 8
        if !fwd && decide (f < g) then (n, c)
        else
          let c := (c.deliverRec k d scan (c.recStamp fwd (decide (g < from_)) k r)).setRingPos fwd k d (c.ringPos fwd k d + 1)
          takeN fuel c fwd k d f from_ scan (if g = f then n + 1 else n)

/-- The destinations that ROUTE names (R812). -/
def routes (c : Chip) (k : Nat) : List Nat := (List.range 4).filter (fun d => c.rb (R.PCI.ERCFG k) (10 + d))

/-- The tick report of kennel k for frame f on a destination (R831). -/
def tickReport (c : Chip) (k d f nrec : Nat) : List (BitVec 8) :=
  let r := c.frameRec f
  let seq := c.ringPos false k d
  recMake 0x02 (2 * b2n (c.recTest f)) k c.devNum seq f
    (bytesLE 8 r.edge ++ bytesLE 4 nrec ++ bytesLE 2 (min r.lost 65535) ++ [BitVec.ofNat 8 (nth 6 r.kst k), 0]
      ++ bytesLE 4 (nth 0 r.enrg k) ++ bytesLE 4 (nth 0 c.egr.disc (4 * k + d)))

/-- Forward rings are emptied as records are queued (R812, R814). -/
def fwdPump (c : Chip) : Chip :=
  forN 8 (fun k (c : Chip) => ((c.routes k).filter (· != 3)).foldl (fun c d => (takeN (2 ^ c.ringLog true k) c true k d 0 0 false 0).2) c) c

/-! ### Event records -/

/-- The event record of a buffered entry (R832). -/
def eventRec (c : Chip) (n : Nat) (e : ErrEntry) : List (BitVec 8) :=
  recMake 0x03 0 0 c.devNum n e.fnum
    (bytesLE 8 e.gtime ++ bytesLE 2 e.code ++ bytesLE 2 e.slot ++ [BitVec.ofNat 8 e.ken, BitVec.ofNat 8 e.path, 0, 0] ++ bytesLE 6 e.addr
      ++ [0, 0] ++ bytesLE 4 e.count)

/-- Events that were routed to the network enter the buffer of 64 (R832). -/
def evEnter (c : Chip) : Chip :=
  let es := c.netEv
  es.foldl (fun c e =>
    let c := if c.egr.evs.length < 64 then c
      else ((c.cnt R.PCI.EVDISC 31 0 1).setEgr fun g => { g with evs := g.evs.drop 1 }).eventOnce pciSlot 0x0D08 0
    c.setEgr fun g => { g with evs := g.evs ++ [(g.evseq, e)], evseq := (g.evseq + 1) % 2 ^ 32 }) { c with netEv := [] }

/-- A destination takes the event records it has not had, while it can. -/
def evTake (c : Chip) (d : Nat) : Chip :=
  (c.egr.evs).foldl (fun (c : Chip) (x : Nat × ErrEntry) =>
    if nth 0 c.egr.evpos d ≤ x.1 && c.destOk 0 d && (c.egr.evs.all (fun y => y.1 < nth 0 c.egr.evpos d || x.1 ≤ y.1)) then
      (c.deliverRec 0 d false (c.eventRec x.1 x.2)).setEgr fun g => { g with evpos := g.evpos.set d (x.1 + 1) }
    else c) c

/-- Event records leave at once for K0's destinations (R832). -/
def evPump (c : Chip) : Chip :=
  let c := c.evEnter
  let ds := c.routes 0
  if ds = [] then c
  else
    let c := ds.foldl evTake c
    c.setEgr fun g => { g with evs := g.evs.filter (fun x => ds.any (fun d => nth 0 g.evpos d ≤ x.1)) }

/-! ### Release -/

/-- The release scan of frame f (R813, R824, R831). -/
def scanFrame (c : Chip) (f : Nat) : Chip :=
  let (c, reps) : Chip × List (Nat × Nat × Nat) := (List.range 8).foldl (fun x k =>
    if !x.1.ringEn false k then x
    else (x.1.routes k).foldl (fun y d =>
      let r := takeN (2 ^ y.1.ringLog false k) y.1 false k d f f true 0
      (r.2, y.2 ++ [(k, d, r.1)])) x) (c, [])
  let c := (c.w64 R.PCI.EREL_LO f).setEgr fun e => { e with rel := true }
  let c := reps.foldl (fun c (x : Nat × Nat × Nat) =>
    if c.rb (R.PCI.ERCFG x.1) 9 && c.ringEn false x.1 && c.destOk x.1 x.2.1 then c.deliverRec x.1 x.2.1 true (c.tickReport x.1 x.2.1 f x.2.2) else c) c
  forN 2 (fun p (c : Chip) => forN 8 (fun k (c : Chip) => dgClose (c.ethQ p k).recs.length c p k) c) c

/-- RELEASE_SCAN (R57, R813): 48,000 cycles after E(k), of frame k − 3. -/
def releaseScan (c : Chip) : Chip :=
  match c.tick.edgeAt with
  | none => c
  | some e =>
    if c.tick.scanned || c.pwr.deep != 0 then c
    else
      let c := (c.waitTo (e + cyc 48000)).modTick fun t => { t with scanned := true }
      if c.fnum < 3 then c else c.scanFrame (c.fnum - 3)

/-- EGRESS_POLL (R814, R832). -/
def egressPoll (c : Chip) : Chip :=
  if c.pwr.deep ≠ 0 ∨ ¬c.coreUp then c
  else
    let f := c.r64 R.PCI.EREL_LO
    let c := if !c.egr.rel then c
      else forN 8 (fun k (c : Chip) => (c.routes k).foldl (fun c d => (takeN (2 ^ c.ringLog false k) c false k d f (f + 1) false 0).2) c) c
    c.fwdPump.evPump

/-- A record for the manager arrives (R811, R817): it enters the kennel's forward ring, written as K0. -/
def forwardRec (c : Chip) (k : Nat) (r : List (BitVec 8)) : Chip :=
  if c.arole ≠ 1 || !c.ringEn true k then c
  else
    let s := nth 0 c.egr.fseq k
    let r := recNum (recPut r 1 [(nth 0 r 1) ||| 4]) s
    let a := c.ringBase true k + 64 * (s % 2 ^ c.ringLog true k)
    let c := c.setEgr fun e => { e with fseq := e.fseq.set k ((s + 1) % 2 ^ 32) }
    let c := if c.regionOf a 64 = .hbm ∧ (c.unavailable .hbm a 64).isNone then c.eccWrite .hbm a r else c
    c.fwdPump

/-! ### Command rings -/

/-- COMMAND_FETCH (R822): the host's ring answers with the entry's 64 bytes. -/
def commandFetch (c : Chip) (f : Nat) (entry : List (BitVec 8)) : Chip :=
  let i := (c.r (R.PCI.CFETCH f)).toNat
  let ken := if f = 0 then 0 else c.vfKen f
  let base := c.r64 (R.PCI.CBBASE_LO f) % 2 ^ 48
  let n := 2 ^ c.rf (R.PCI.CBCFG f) 4 0
  let ok (a m : Nat) (wr : Bool) : Bool := c.regionOf a m == .hbm && (c.fence ken .hbm a m wr).isNone && (c.unavailable .hbm a m).isNone
  let a := base + 64 + 64 * (i % n)
  if !(c.rb R.PCI.PLSTAT 8 && c.rb (R.PCI.CRCFG f) 8 && i != (c.pfn f).cprod && c.pwr.deep == 0) then c
  else if !(ok base 4 false && ok a 64 true) then c
  else
    let (c, bs, _) := c.eccRead .hbm base 4 ken
    if n ≤ (i + 2 ^ 32 - natLE bs) % 2 ^ 32 then c
    else
      let e := padTo 64 (entry.take 64)
      let c := (c.meter pciSlot 0 ken 64).eccWrite .hbm a (bytesLE 4 i ++ (e.drop 4).take 56 ++ bytesLE 4 (0xFFFFFFFF - i))
      let c := c.w (R.PCI.CFETCH f) (BitVec.ofNat 32 (i + 1))
      (c.emit (.hostWrite f (c.r64 (R.PCI.CRWB_LO f)) (bytesLE 4 (i + 1)))).msi f 1

/-- A function's rings are cleared (R839). -/
def fnClear (c : Chip) (f : Nat) : Chip :=
  let c := ((c.wb (R.PCI.RRCFG f) 8 false).wb (R.PCI.CRCFG f) 8 false).w (R.PCI.RRPROD f) 0
  (c.w (R.PCI.CFETCH f) 0).modFn f fun _ => {}

/-! ### Ethernet -/

/-- Entries of the receive ring that a frame takes: 2 KiB each, of which 16 bytes are the header. -/
def rxChunks : Nat → List (BitVec 8) → List (List (BitVec 8))
  | 0, _ => []
  | _ + 1, [] => []
  | n + 1, bs => bs.take 2032 :: rxChunks n (bs.drop 2032)

/-- The port takes a frame with this destination (R826): its own MAC, broadcast, and the PTP multicast addresses. -/
def macOk (c : Chip) (p : Nat) (dst : List (BitVec 8)) : Bool :=
  dst == c.mac (R.ETH.MAC_LO p) || dst == List.replicate 6 0xFF || dst == [0x01, 0x1B, 0x19, 0, 0, 0] || dst == [0x01, 0x80, 0xC2, 0, 0, 0x0E]

/-- A PTP event message is stamped (R827). -/
def ptpStamp (c : Chip) (p id : Nat) : Chip :=
  if !c.rb (R.ETH.ECTL p) 3 then c
  else if (c.ethP p).tsrx.length < 16 then c.modEth p fun e => { e with tsrx := e.tsrx ++ [(c.gtime, id)] }
  else (c.wb (R.ETH.TSST p) 16 true).event (slotEth p) 0x0D0A

/-- ETH_FRAME_RECEIVED (R826, R827). -/
def ethFrame (c : Chip) (p : Nat) (f : EthFrame) : Chip :=
  if !c.rb (R.ETH.ECTL p) 0 || !c.rb (R.ETH.ESTAT p) 0 then c
  else if !f.fcsOk then c.cnt (R.ETH.RXERR p) 15 0 1
  else if !c.macOk p (f.bytes.take 6) then c
  else
    let c := match f.ptp with | some id => c.ptpStamp p id.toNat | none => c
    let c := c.meter (slotEth p) 0 8 f.bytes.length
    let n := 2 ^ c.rf (R.ETH.RXCFG p) 4 0
    let parts := rxChunks 8 f.bytes
    let at_ (i : Nat) : Nat := c.r64 (R.ETH.RXB_LO p) % 2 ^ 48 + 2048 * (((c.ethP p).rxNext + i) % n)
    let free (i : Nat) : Bool := c.regionOf (at_ i) 2048 == .hbm && (c.unavailable .hbm (at_ i) 2048).isNone
      && natLE (c.getBytes .hbm (at_ i + 8) 2) == 0
    if !c.rb (R.ETH.RXCFG p) 8 then c
    else if !(List.range parts.length).all free ∨ n < parts.length then c.cnt (R.ETH.RXERR p) 31 16 1
    else
      let c := (List.range parts.length).foldl (fun (c : Chip) i =>
        let b := nth [] parts i
        c.eccWrite .hbm (at_ i) (bytesLE 8 c.gtime ++ bytesLE 2 b.length ++ bytesLE 2 (b2n (decide (i + 1 < parts.length))) ++ zeros 4 ++ b)) c
      c.modEth p fun e => { e with rxNext := (e.rxNext + parts.length) % n }

/-- An Ethernet link goes down or up (R837). -/
def ethLink (c : Chip) (p : Nat) (up : Bool) : Chip :=
  let up := up && c.rb (R.ETH.ECTL p) 0 && c.survx (20 + p)
  if c.rb (R.ETH.ESTAT p) 0 = up then c
  else
    let c := (c.wb (R.ETH.ESTAT p) 0 up).event (slotEth p) (if up then 0x0D06 else 0x0D05)
    if up then forN 8 (fun k (c : Chip) => dgFull (c.ethQ p k).recs.length c p k) c else c

/-- The PCIe link goes down or up (R837). -/
def pcieLink (c : Chip) (up : Bool) (speed width : Nat) : Chip :=
  let up := up && c.coreUp && c.surv 30
  if c.rb R.PCI.PLSTAT 8 = up then c
  else
    let c := c.w R.PCI.PLSTAT (if up then BitVec.ofNat 32 (speed % 8 + width % 16 * 16 + 256) else 0)
    c.event pciSlot (if up then 0x0D02 else 0x0D01)

/-! ### Register writes -/

/-- The range of an egress ring lies in one HRNG of its kennel (R834). -/
def inOneRange (c : Chip) (k a n : Nat) : Bool :=
  (List.range 4).any (fun j => (granules a n 0x1000000).all (fun x => c.hrng k j x))

/-- A write of a PCI register with checks (R834). -/
def pciWrite (c : Chip) (who : Who) (key : Nat) (val : BitVec 32) : Chip :=
  let ofs := key % 0x1000
  let was := c.rb key 8
  let en := bit val 8
  let put (ok : Bool) : Chip := c.putIf who key val (ok || !en || c.lockedOut who key) (fun c => c.badValue who key)
  if 0x064 ≤ ofs ∧ ofs < 0x084 then
    let n := (ofs - 0x064) / 4 + 1
    put (c.r64 (R.PCI.VFAP_LO (n - 1)) % 0x10000000 = 0 &&
      (List.range' 1 8).all (fun m => m == n || !c.rb (R.PCI.VFMAP1 + 4 * (m - 1)) 8 || c.vfKen m != fld val 2 0))
  else if 0x100 ≤ ofs ∧ ofs < 0x340 ∧ (ofs - 0x100) % 0x40 = 0x10 then
    let f := (ofs - 0x100) / 0x40
    let g := fld val 4 0
    let ok := 6 ≤ g && g ≤ 16 && fld val 23 16 != 0 && c.r64 (R.PCI.RRB_LO f) % 4096 == 0 && c.r64 (R.PCI.RRWB_LO f) % 8 == 0
    c.putIf who key val (ok || !en) (fun c => c.badValue who key)
  else if 0x100 ≤ ofs ∧ ofs < 0x340 ∧ (ofs - 0x100) % 0x40 = 0x28 then
    let f := (ofs - 0x100) / 0x40
    let g := fld val 4 0
    let b := c.rf (R.PCI.CBCFG f) 4 0
    let ok := 4 ≤ g && g ≤ 12 && 4 ≤ b && b ≤ 16 && c.r64 (R.PCI.CRB_LO f) % 4096 == 0 && c.r64 (R.PCI.CRWB_LO f) % 8 == 0
      && c.r64 (R.PCI.CBBASE_LO f) % 64 == 0
    c.putIf who key val (ok || !en) (fun c => c.badValue who key)
  else if 0x400 ≤ ofs ∧ ofs < 0x500 ∧ ofs % 0x20 = 0x08 then
    let k := (ofs - 0x400) / 0x20
    let g := fld val 4 0
    let a := c.r64 (R.PCI.ERB_LO k) % 2 ^ 48
    let c' := put (c.tstate != 1 && c.tstate != 2 && 10 ≤ g && g ≤ 20 && a % 64 == 0 && c.inOneRange k a (64 * 2 ^ g))
    if !was && c'.rb key 8 then (List.range 4).foldl (fun c d => c.setRingPos false k d 0) c' else c'
  else if 0x400 ≤ ofs ∧ ofs < 0x500 ∧ ofs % 0x20 = 0x14 then
    let k := (ofs - 0x400) / 0x20
    let g := fld val 4 0
    let c' := put (10 ≤ g && g ≤ 20 && c.r64 (R.PCI.FRB_LO k) % 64 == 0)
    if !was && c'.rb key 8 then
      ((List.range 4).foldl (fun c d => c.setRingPos true k d 0) c').setEgr fun e => { e with fseq := e.fseq.set k 0 }
    else c'
  else c.putReg who key val

/-- A write of an ETH register with checks (R828, R834). -/
def ethWrite (c : Chip) (who : Who) (p key : Nat) (val : BitVec 32) : Chip :=
  let ofs := key % 0x1000
  let bad (c : Chip) : Chip := c.badValue who key
  let mtuOk := 1280 ≤ c.rf (R.ETH.MTU p) 13 0 && c.rf (R.ETH.MTU p) 13 0 ≤ 9194 && c.rf (R.ETH.DLING p) 7 0 != 0
  let gdis := c.rb (R.VXL.GTC 0) 0
  if ofs = 0x040 then
    let c := c.putIf who key val (!bit val 0 || mtuOk) bad
    if c.rb key 0 then c else c.ethLink p false
  else if ofs = 0x078 then
    let g := fld val 4 0
    c.putIf who key val (!bit val 8 || (6 ≤ g && g ≤ 14 && c.r64 (R.ETH.RXB_LO p) % 2048 == 0)) bad
  else if ofs = 0x0A0 ∧ p = 0 then
    let v := val.toInt
    if gdis || v < -500000 || 500000 < v then bad c else c.gtMark.putReg who key val
  else if 0x100 ≤ ofs ∧ ofs < 0x200 ∧ ofs % 0x20 = 0 then
    let k := (ofs - 0x100) / 0x20
    let was := c.rb key 0
    let c := c.putIf who key val (!bit val 0 || mtuOk) bad
    if !was && c.rb key 0 then c.modEthQ p k fun q => { q with dseq := 0, qdrop := 0 } else c
  else c.putReg who key val

/-- GSTEP_HI completes a write of GSTEP (R828). -/
def gstepWrite (c : Chip) (who : Who) (key : Nat) (lo hi : BitVec 32) : Chip :=
  if c.rb (R.VXL.GTC 0) 0 then c.badValue who key
  else (c.gtStep (sInt 64 (lo.toNat + hi.toNat * 2 ^ 32))).event (slotEth 0) 0x0D0B

/-- A read of TSRX_HI or TSTX_HI removes the oldest stamp (R836). -/
def stampTaken (c : Chip) (p ofs : Nat) : Chip :=
  c.modEth p fun e => if ofs = 0x084 then { e with tsrx := e.tsrx.drop 1 } else { e with tstx := e.tstx.drop 1 }

end Chip

/-- RELEASE_SCAN (R813). -/
def execReleaseScan (s : State) : Host.Outcome State Fault Refusal := s.up fun c => c.releaseScan

/-- EGRESS_POLL (R814). -/
def execEgressPoll (s : State) : Host.Outcome State Fault Refusal := s.up fun c => c.egressPoll

/-- RCONS_WRITE (R819). -/
def execRconsWrite (fn : Fin 9) (v : BitVec 32) (s : State) : Host.Outcome State Fault Refusal :=
  s.up fun c => if c.rb R.PCI.PLSTAT 8 then c.modFn fn.val fun x => { x with rcons := v.toNat } else c

/-- CPROD_WRITE (R822). -/
def execCprodWrite (fn : Fin 9) (v : BitVec 32) (s : State) : Host.Outcome State Fault Refusal :=
  s.up fun c => if c.rb R.PCI.PLSTAT 8 then c.modFn fn.val fun x => { x with cprod := v.toNat } else c

/-- COMMAND_FETCH (R822). -/
def execCommandFetch (fn : Fin 9) (entry : List (BitVec 8)) (s : State) : Host.Outcome State Fault Refusal :=
  s.up fun c => c.commandFetch fn.val entry

/-- RESULT_INTERRUPT_TIMER (R819). -/
def execResultInterruptTimer (fn : Fin 9) (s : State) : Host.Outcome State Fault Refusal :=
  s.up fun c => match (c.pfn fn.val).sigAt with
    | some t => if c.rf (R.PCI.RRCFG fn.val) 31 24 = 0 then c
      else (c.waitTo (t + us (c.rf (R.PCI.RRCFG fn.val) 31 24))).signal fn.val
    | none => c

/-- DATAGRAM_LINGER_EXPIRY (R824). -/
def execDatagramLingerExpiry (p : Fin 2) (k : Fin 8) (s : State) : Host.Outcome State Fault Refusal :=
  s.up fun c => match (c.ethQ p.val k.val).openAt with
    | some t => (c.waitTo (t + us (c.rf (R.ETH.DLING p.val) 7 0))).dgSend p.val k.val
    | none => c

/-- ETH_FRAME_RECEIVED (R826). -/
def execEthFrameReceived (p : Fin 2) (f : EthFrame) (s : State) : Host.Outcome State Fault Refusal := s.up fun c => c.ethFrame p.val f

/-- FUNCTION_LEVEL_RESET (R839). -/
def execFunctionLevelReset (fn : Fin 9) (s : State) : Host.Outcome State Fault Refusal :=
  s.up fun c => if c.rb R.PCI.PLSTAT 8 then
      ({ c.fnClear fn.val with msixTab := c.msixTab.filter (fun x => x.1 / 0x1000 != fn.val) }).event Chip.pciSlot 0x0D03
    else c

/-- HOST_ACCESS_ERROR (R839). -/
def execHostAccessError (fn : Fin 9) (s : State) : Host.Outcome State Fault Refusal :=
  s.up fun c => if c.rb R.PCI.PLSTAT 8 then (c.fnClear fn.val).event Chip.pciSlot 0x0D09 else c

/-- PCIE_LINK_CHANGE (R837). -/
def execPcieLinkChange (up : Bool) (speed : BitVec 3) (width : BitVec 4) (s : State) : Host.Outcome State Fault Refusal :=
  s.up fun c => c.pcieLink up speed.toNat width.toNat

/-- ETH_LINK_CHANGE (R837). -/
def execEthLinkChange (p : Fin 2) (up : Bool) (s : State) : Host.Outcome State Fault Refusal := s.up fun c => c.ethLink p.val up

end Sys2Proof.Machine
end

