-- ==== Sys2Proof/Machine/Trace.lean ====
section
/-!
DEFINITION. The trace units, their writer and their configuration, and the AON event ring.
-/
namespace Sys2Proof.Machine

/-- The 16 bytes of a trace packet (R962). -/
def Packet.bytes (p : Packet) : List (BitVec 8) :=
  [BitVec.ofNat 8 p.typ, BitVec.ofNat 8 (p.unit % 32 + p.ken % 8 * 32)] ++ bytesLE 6 p.a ++ bytesLE 4 p.b ++ bytesLE 4 p.ts

/-- The 16 bytes of an entry of the AON event ring (R966). -/
def EvEntry.bytes (e : EvEntry) : List (BitVec 8) :=
  bytesLE 8 e.gtime ++ bytesLE 2 e.code ++ bytesLE 2 e.slot ++ [BitVec.ofNat 8 (e.ken % 8 + e.path % 16 * 8), 0] ++ bytesLE 2 e.ptick

namespace Chip

abbrev trcSlot : Nat := 0x007

def unitOf (c : Chip) (u : Nat) : TraceUnit := nth {} c.trace u
def modUnit (c : Chip) (u : Nat) (f : TraceUnit → TraceUnit) : Chip := { c with trace := modNth f c.trace u }

/-- Packets that a unit's buffer holds (R964). -/
def traceRoom (c : Chip) (u : Nat) : Nat := c.rf (R.TRC.TCFG u) 24 16 * 256

/-- A packet enters the trace area; a unit with STOP set stops when its buffer is full (R964). -/
def tracePut (c : Chip) (u : Nat) (p : Packet) : Chip :=
  let n := (c.r (R.TRC.TWP u)).toNat
  if c.rb (R.TRC.TST u) 0 then c.cnt (R.TRC.TLOST u) 31 0 1
  else
    let a := 0x40000000 + c.rf (R.TRC.TCFG u) 12 4 * 0x1000 + 16 * (n % max 1 (c.traceRoom u))
    let c := ({ c with mem := c.mem.putBytes a p.bytes }).w (R.TRC.TWP u) (BitVec.ofNat 32 (n + 1))
    if c.rb (R.TRC.TCFG u) 2 ∧ n + 1 = c.traceRoom u then c.wb (R.TRC.TST u) 0 true else c

/-- A packet of a unit as it would be queued now. -/
def tracePkt (c : Chip) (u typ a b : Nat) : Packet :=
  ⟨typ, u, if u < 16 then c.owner u else 0, a % 2 ^ 48, b % 2 ^ 32, c.gtime % 2 ^ 32⟩

/-- A SYNC packet: the address of the unit's next bundle, 0 for unit 17, and GTIME [63:32] (R961, R962). -/
def syncPkt (c : Chip) (u : Nat) : Packet := c.tracePkt u 0x01 (if u < 17 then (c.core u).pc.toNat else 0) (c.gtime / 2 ^ 32)

/-- A unit queues a SYNC (R961). -/
def traceSync (c : Chip) (u : Nat) : Chip := (c.tracePush u (c.syncPkt u) 30).modUnit u fun t => { t with syncAt := c.now }

/-- The writer moves the oldest packet of a unit into the trace area; lost packets are told by an OVF packet before it, and
that by a SYNC after it (R961, R963, R967). -/
def traceWrite (c : Chip) (u : Nat) : Chip :=
  let t := c.unitOf u
  match t.fifo with
  | [] => c
  | p :: rest =>
    let c := c.modUnit u fun t => { t with fifo := rest, lost := 0 }
    let c := if t.lost = 0 then c
      else ((c.tracePut u (c.tracePkt u 0x0B t.lost 0)).tracePut u (c.syncPkt u)).modUnit u fun t => { t with syncAt := c.now }
    let c := c.tracePut u p
    if t.closing && rest.isEmpty then (c.modUnit u fun _ => {}).wb (R.TRC.TST u) 1 false else c

def traceWriteN : Nat → Chip → Nat → Chip
  | 0, c, _ => c
  | n + 1, c, u => traceWriteN n (c.traceWrite u) u

/-- A unit whose tile or device loses power queues SLEEP, and its FIFO is written (R965): 1 NAP, 2 DEEP. -/
def traceSleep (c : Chip) (u why : Nat) : Chip :=
  if !c.rb (R.TRC.TST u) 1 || (c.unitOf u).sleepG.isSome || (c.unitOf u).closing then c
  else
    let c := c.tracePush u (c.tracePkt u 0x09 why (c.gtime / 2 ^ 32)) 32
    (traceWriteN (c.unitOf u).fifo.length c u).modUnit u fun t => { t with sleepG := some c.gtime }

/-- Power has returned: WAKE with the gap in nanoseconds, then SYNC (R965). -/
def traceWake (c : Chip) (u : Nat) : Chip :=
  match (c.unitOf u).sleepG with
  | none => c
  | some g =>
    let c := c.modUnit u fun t => { t with sleepG := none }
    (c.tracePush u (c.tracePkt u 0x0A (c.gtime - g) (c.gtime / 2 ^ 32)) 32).traceSync u

/-- A buffer meets the buffer of another enabled unit (R967). -/
def traceMeets (c : Chip) (u base size : Nat) : Bool :=
  (List.range 18).any fun v => v != u && c.rb (R.TRC.TST v) 1 &&
    (let b := c.rf (R.TRC.TCFG v) 12 4
     decide (b < base + size) && decide (base < b + c.rf (R.TRC.TCFG v) 24 16))

/-- A write of TCFG (R961, R964, R967). -/
def tcfgWrite (c : Chip) (who : Who) (u : Nat) (val : BitVec 32) : Chip :=
  let key := R.TRC.TCFG u
  let mode := fld val 1 0
  let base := fld val 12 4
  let size := fld val 24 16
  let bad := mode != 0 && (mode == 3 || size == 0 || decide (448 < base + size) || c.traceMeets u base size)
  if bad then (c.noteRsv key val).badValue who key
  else if mode = 0 then
    let c := c.putReg who key val
    if !c.rb (R.TRC.TST u) 1 then c
    else if (c.unitOf u).fifo.isEmpty then (c.modUnit u fun _ => {}).wb (R.TRC.TST u) 1 false
    else c.modUnit u fun t => { t with closing := true }
  else
    let was := c.rb (R.TRC.TST u) 1
    let c := c.putReg who key val
    if was then c.modUnit u fun t => { t with closing := false }
    else (((c.modUnit u fun _ => {}).w (R.TRC.TWP u) 0).w (R.TRC.TST u) 2).traceSync u

/-- A write of another TRC register (R962, R970). -/
def trcWrite (c : Chip) (who : Who) (key : Nat) (val : BitVec 32) : Chip :=
  let ofs := key % 0x1000
  if ofs = 0x044 then c.putIf who key val (decide (fld val 15 0 ≠ 0)) (fun c => c.badValue who key)
  else if 0x100 ≤ ofs ∧ ofs < 0x220 ∧ ofs % 16 = 0 then c.tcfgWrite who ((ofs - 0x100) / 16) val
  else if 0x300 ≤ ofs ∧ ofs < 0x348 then
    if (c.req who).ken = 0 then c.traceAdd ((ofs - 0x300) / 4) 0x0C val.toNat 0 else c
  else c.putReg who key val

/-! ### The AON event ring -/

/-- The ring writes the oldest entry of its holding queue (R966). -/
def evWrite (c : Chip) : Chip :=
  match c.ev.queue with
  | [] => c
  | e :: rest =>
    let n := (c.r R.AON.EVWP).toNat
    ({ c with ev := { ring := insKey (n % 256) e c.ev.ring, queue := rest } }).w R.AON.EVWP (BitVec.ofNat 32 (n + 1))

/-- A read of EVD0 captures the entry at EVRIX in EVD0 to EVD3 (R970); an entry that was never written reads 0. -/
def evRead (c : Chip) : BitVec 32 × Chip :=
  let i := c.rf R.AON.EVRIX 7 0
  let bs := match c.ev.ring.find? (fun x => x.1 == i) with
    | some x => x.2.bytes
    | none => []
  let d (n : Nat) : BitVec 32 := BitVec.ofNat 32 (natLE ((bs.drop (4 * n)).take 4))
  (d 0, (((c.w R.AON.EVD0 (d 0)).w R.AON.EVD1 (d 1)).w R.AON.EVD2 (d 2)).w R.AON.EVD3 (d 3))

end Chip

/-- TRACE_PACKET_WRITE (R963). -/
def execTracePacketWrite (u : Fin 18) (s : State) : Host.Outcome State Fault Refusal := s.up fun c => c.traceWrite u.val

/-- TRACE_SYNC_TIMER (R961): SYNCP microseconds after its last SYNC. -/
def execTraceSyncTimer (u : Fin 18) (s : State) : Host.Outcome State Fault Refusal :=
  s.up fun c =>
    if c.rb (R.TRC.TST u.val) 1 && (c.unitOf u.val).sleepG.isNone && !(c.unitOf u.val).closing then
      (c.waitTo ((c.unitOf u.val).syncAt + us (c.rf R.TRC.SYNCP 15 0))).traceSync u.val
    else c

/-- EVENT_RING_WRITE (R966): the AON domain runs through every reset but power-on reset. -/
def execEventRingWrite (s : State) : Host.Outcome State Fault Refusal := s.on fun c => if c.pwr.porDone then c.evWrite else c

end Sys2Proof.Machine
end

