-- ==== Sys2Proof/Machine/Power.lean ====
section
/-!
DEFINITION. Power-on reset and warm reset, the release of the core domain and start-up, self-test and boot, NAP and DEEP,
temperature, and the output pins that follow from them.
-/
namespace Sys2Proof.Machine
namespace Chip

abbrev aonSlot : Nat := 0x001
abbrev pwmSlot : Nat := 0x009

/-! ### Output pins -/

/-- Level of FAULT_N: low while any bit of AON.FSRC is set; released while power-on reset holds the AON domain (R888, R1047). -/
def faultN (c : Chip) : Bool := !c.pwr.porDone || c.r R.AON.FSRC == 0

/-- Level of WDO_N: low only in a pulse of the system watchdog (R934, R1047). -/
def wdoN (c : Chip) : Bool := c.pwr.wdoEnd.isNone

/-! ### Resets -/

/-- The mode of the HBM interleave in force changes: HBM contents are not preserved (R254, R255). -/
def setMode (c : Chip) (stack : Bool) : Chip :=
  let was := c.stackMode
  let c := forN 4 (fun s c => c.wb (R.HBM.STAT s) 3 stack) c
  if was = stack then c
  else
    let (n, c) := ((c.fresh + 1 : Nat), { c with fresh := c.fresh + 1 })
    { c with mem := c.mem.filter (fun x => x.1 / 2 ^ 40 != 0x10), ecc := c.ecc.filter (fun x => x.1 / 2 ^ 40 != 0x10)
             lost := (List.range 4).foldl (fun l s => putKey 0 (4 + s) n l) c.lost }

/-- A built stack is disabled (R254). -/
def stackGone (c : Chip) : Bool := (List.range c.stackCnt).any (fun s => !c.surv (16 + s))

/-- The registers after a warm reset: the always-on pages and the "keep" fields of the others stay (R15, R893). -/
def warmRegs (c : Chip) : List (Nat × BitVec 32) :=
  c.regs.filterMap fun x =>
    match pageOf (x.1 / 0x1000) with
    | some (k, _) =>
      if k.aonDom then some x
      else
        let keep := BitVec.ofNat 32 (match rowOf x.1 with | some r => r.keep | none => 0)
        let v := (resetOf x.1 &&& ~~~ keep) ||| (x.2 &&& keep)
        if v = resetOf x.1 then none else some (x.1, v)
    | none => none

/-- A reset loads a new NONCE, and gives the debug and test rights in OPEN mode only (R951, R953). -/
def debugReset (c : Chip) : Chip :=
  let (n, c) := c.free
  let c := c.wf R.DBG.DSTAT 1 0 (if c.fuse.dmode = 0 then 3 else 0)
  { c with dbg := { ir := c.dbg.ir, dapData := c.dbg.dapData, nonce := BitVec.ofNat 64 n } }

/-- The core domain enters reset (R246, R293, R361, R547, R581, R631, R708, R744, R801, R840, R875, R893, R943, R973, R1003). -/
def coreReset (c : Chip) : Chip :=
  let c := c.gtMark
  let was := c.stackMode
  let c := { c with
    regs := c.warmRegs, coreUp := false, gtSlew := 0
    bus := { unlk := c.bus.unlk.filter (fun x => x.1 < 4), cap := c.bus.cap.filter (fun x => x.1 < 4), held := c.bus.held.filter (fun x => x.1 < 4) }
    pstore := [], err := {}, netEv := [], trace := List.replicate 18 {}, msixTab := [], landing := [], plmap := []
    tick := { raw := c.tick.raw, since := c.tick.since }, kens := List.replicate 8 {}, sp := List.replicate 16 {}, hbm := List.replicate 4 {}
    cores := List.replicate 16 ({} : Core) ++ [Core.cc], engines := List.replicate 8 {}, ports := List.replicate 17 {}
    dport := List.replicate 16 7, lrn := {}, cust := List.replicate 16 {}, cport := {}, vxl := List.replicate 4 {}, casc := {}, ing := {}, egr := {}
    ary := c.ary.map (fun (u : ArySt) => { aam := u.aam, aamEcc := u.aamEcc }), drn := c.drn.map (fun (u : DrnSt) => { dpm := u.dpm, dpmEcc := u.dpmEcc })
    elg := { tot := c.elg.tot, all := c.elg.all, static := c.elg.static, staticAt := c.elg.staticAt, temp := c.elg.temp }
    wdt := List.replicate 17 ({} : Watchdog) ++ c.wdt.drop 17
    pwr := { c.pwr with testing := [], tried := [], authed := none, ccBad := false, deep := 0, wakeHeld := false, napExit := [], updating := false } }
  let c := c.debugReset
  ({ c with regs := putKey 0 (R.HBM.STAT 0) (if was then 8 else 0) c.regs }).setMode (c.rb (R.HBM.CTL 0) 4 || c.stackGone)

/-- A warm-reset source is taken, by its bit of RCAUSE (R887, R890, R918); test mode ends (R955). -/
def warmReset (c : Chip) (cause : Nat) : Chip :=
  if !c.pwr.porDone then c
  else
    let c := if c.rb R.DBG.DSTAT 2 then c.event 0x008 0x0B46 else c
    let c := c.wb R.AON.RCAUSE cause true
    let c := if c.pwr.rstAt = some c.now then c else c.cnt R.AON.RCNT 15 0 1
    ({ c with pwr := { c.pwr with rstAt := some c.now, relAt := c.now } }).coreReset

/-- A condition that held the core domain in reset ends (R892). -/
def relNow (c : Chip) : Chip := { c with pwr := { c.pwr with relAt := c.now } }

/-- Nothing holds the core domain in reset (R891, R892, R901, R932). -/
def relReady (c : Chip) : Bool :=
  let p := c.pwr
  !c.coreUp && p.porDone && p.fused && p.resetN && p.pwrgood && p.refclk && !p.tripHold && !p.swdHold && !p.ccBad

/-- Power-on reset of the whole device: what survives is the fuses, the plastic store and the training record, and the levels on the
pins (R878, R880, R893). `hold` says that it still holds the device. -/
def powerOn (c : Chip) (hold : Bool) (smba : BitVec 2) : Chip :=
  let mram (k : Nat) : Bool := 0x3000000000 ≤ k && k < 0x3000400000
  let d := Chip.reset
  { d with now := c.now, fresh := c.fresh, fuse := c.fuse, out := c.out, gtAt := c.now
           mem := c.mem.filter (fun x => mram x.1), ecc := c.ecc.filter (fun x => mram x.1)
           tick := { raw := c.tick.raw, since := c.tick.since }
           elg := { staticAt := c.now }
           pwr := { resetN := c.pwr.resetN, pwrgood := c.pwr.pwrgood, refclk := c.pwr.refclk, smba := smba, porDone := !hold, trec := c.pwr.trec
                    ringDev := c.pwr.ringDev } }

/-- The fuses have loaded: the surviving units, the debug rights and the system watchdog's EN follow from them (R880, R937, R944,
R951, R1000). -/
def fuseLoad (c : Chip) : Chip :=
  if !c.pwr.porDone || c.pwr.fused then c
  else
    let c := { c with pwr := { c.pwr with fused := true } }
    let n := c.tiles
    let s := 2 ^ n - 1 + (2 ^ c.stackCnt - 1) * 2 ^ 16 + 0x7FF * 2 ^ 20
    let x := 2 ^ c.cxps - 1 + (2 ^ c.vxls - 1) * 2 ^ 16 + 3 * 2 ^ 20
    let c := c.w R.DEV.SURV (BitVec.ofNat 32 s &&& ~~~ (c.fuse.udis0.setWidth 32))
    let c := c.w R.DEV.SURVX (BitVec.ofNat 32 x &&& ~~~ (c.fuse.udis1.setWidth 32))
    let c := (c.debugReset).wb R.SWD.SCFG 0 c.fuse.scfgEn
    c.modWdt 17 fun _ => { at_ := c.now, running := c.fuse.scfgEn, period := c.rf R.SWD.SCFG 31 16 }

/-! ### Release of the core domain -/

/-- The units that self-test tests, by bit of SURV, or 32 and bit of SURVX, and 63 for the CC memory (R902). -/
def testUnits (c : Chip) : List Nat :=
  63 :: ((List.range 20 ++ [28, 29, 30]).filter c.surv ++ ((List.range 16 ++ List.range' 16 4 ++ [20, 21]).filter c.survx).map (· + 32))

/-- The core domain leaves reset 1 ms after the last release condition, and the CC starts at vector 0 (R290, R361, R684, R786, R892, R914,
R944, R994, R1058). -/
def coreRelease (c : Chip) (mgr : Bool) : Chip :=
  if !c.relReady then c
  else
    let c := c.waitTo (c.pwr.relAt + ms 1)
    let first := c.pwr.firstRel
    let c := { c with coreUp := true, pwr := { c.pwr with mgr := mgr, firstRel := false, testing := c.testUnits, tried := [], authed := none } }
    let c := if first && mgr then (c.wf (R.VXL.CROLE 0) 1 0 1).w (R.VXL.CNUM 0) 0x100 else c
    let c := ((c.w R.AON.BOOTST 1).wb R.AON.FSRC 3 false).w R.DEV.FLOOR 0
    let c := c.setMode (c.rb (R.HBM.CTL 0) 4 || c.stackGone)
    let c := forN c.stackCnt (fun s c => if c.surv (16 + s) then c.wf (R.HBM.STAT s) 2 0 1 else c) c
    let c := c.modTick fun t => { t with acc := t.raw, since := [c.now, c.now, c.now] }
    let c := c.modCore 16 fun x => { x with run := .run, ready := c.cycle, relAt := c.now }
    let c := { c with cores := c.cores.map (fun (x : Core) => { x with relAt := c.now, idleAt := c.cycle })
                      elg := { c.elg with roundAt := c.now, winAt := c.now, winAll := c.elg.all, calAt := c.now, calAll := c.elg.all, pollAt := c.now } }
    let c := if c.rb R.SWD.SCFG 0 then c.wdtZero 17 else c
    c.roleBegin

/-! ### Boot -/

/-- Start-up stops at floor 0 (R901). -/
def bootStop (c : Chip) (why : Nat) : Chip :=
  let c := (c.wf R.AON.BOOTST 2 0 4).wf R.AON.BOOTST 7 4 why
  (c.wb R.AON.FSRC 3 true).event aonSlot 0x0C09

/-- Why a slot fails, 0 when it is authenticated (R899, R914). -/
def slotWhy (b : BootSlot) : Nat :=
  if !b.keyOk then 3 else if !b.sigOk then 4
  else if b.len.toNat = 0 ∨ 1835008 < b.len.toNat ∨ b.entry.toNat % 8 ≠ 0 ∨ b.len.toNat ≤ b.entry.toNat then 7
  else if !b.hashOk then 5 else 0

/-- A slot is a candidate (R899). -/
def candidate (c : Chip) (b : BootSlot) : Bool := b.magic && decide (c.fuse.minSvn ≤ b.svn.toNat)

/-- The slot to be tried next: 1 A, 2 B (R899). -/
def nextSlot (c : Chip) (f : BootFlash) : Option Nat :=
  let ok (n : Nat) (b : BootSlot) : Bool := c.candidate b && !c.pwr.tried.contains n
  if ok 1 f.a && (!ok 2 f.b || decide (f.b.svn.toNat ≤ f.a.svn.toNat)) then some 1
  else if ok 2 f.b then some 2 else none

/-- One attempt of the boot ROM: a slot is authenticated, and its image stands in CC memory, or it is abandoned; with no slot left the
device stops at floor 0 (R899 to R901). -/
def bootTry (c : Chip) (f : BootFlash) : Chip :=
  let st := c.rf R.AON.BOOTST 2 0
  if !c.coreUp || !(st == 1 || st == 2) || c.pwr.authed.isSome then c
  else if !f.sfdp then c.bootStop 1
  else
    let c := c.wf R.AON.BOOTST 2 0 2
    match c.nextSlot f with
    | none => c.bootStop (if f.a.magic || f.b.magic then 6 else 2)
    | some n =>
      let b := if n = 1 then f.a else f.b
      let why := slotWhy b
      if why = 0 then
        let c := c.eccWrite .ccMem 0 ((padZ b.len.toNat b.image).take b.len.toNat)
        ({ c with pwr := { c.pwr with authed := some b.entry.toNat } }).wf R.AON.BOOTST 9 8 n
      else
        let c := ({ c with pwr := { c.pwr with tried := n :: c.pwr.tried } }).wb R.AON.BOOTST 10 true
        if (c.nextSlot f).isSome then c else c.bootStop why

/-- The CC enters the image (R900). -/
def imageEntry (c : Chip) : Chip :=
  match c.pwr.authed with
  | none => c
  | some e =>
    if c.rf R.AON.BOOTST 2 0 ≠ 2 ∨ c.pwr.testing.any (fun u => !(16 ≤ u && u < 20)) then c
    else
      let c := c.modCore 16 fun x => { x with
        pc := BitVec.ofNat 48 e, priv := true, target := none, takenBr := false, bundle := [], held := false, inString := false, loopDue := false
        run := if x.run = .halted then .halted else .run }
      ({ c with pwr := { c.pwr with authed := none } }).wf R.AON.BOOTST 2 0 3

/-- Page slot of a unit (R133, R917). -/
def unitSlot (u : Nat) : Nat :=
  if u < 16 then slotTile u else if u < 20 then slotHbm (u - 16) else if u < 28 then slotDma (u - 20)
  else if u = 28 then 0x00F else if u = 29 then 0x00D else if u = 30 then 0x011
  else if u < 48 then 0x010 else if u < 52 then slotVxl (u - 48) else slotEth (u - 52)

/-- Self-test of a unit completes; one that fails is disabled until the next power-on reset (R902, R903, R917). -/
def selfTest (c : Chip) (u : Nat) (ok : Bool) : Chip :=
  if !c.coreUp || !c.pwr.testing.contains u then c
  else
    let c := { c with pwr := { c.pwr with testing := c.pwr.testing.filter (· != u) } }
    if ok then c
    else if u = 63 then
      let c := c.bootStop 8
      let c := (c.w R.DEV.FLOOR 0).wf R.DEV.FLOOR 15 12 1
      { c.coreReset with pwr := { c.coreReset.pwr with ccBad := true } }
    else
      let c := if u < 32 then c.wb R.DEV.SURV u false else c.wb R.DEV.SURVX (u - 32) false
      let c := c.capture aonSlot 0x0C0A .event ⟨0, 0⟩ 0
      let c := ((c.errArrive (unitSlot u) 0x0C0A 0 0 0).evPush (unitSlot u) 0x0C0A 0 0)
      let c := if c.rb R.TRC.EVMASK 0xC then c.traceAdd 17 0x06 0 (0x0C0A + unitSlot u * 2 ^ 16) else c
      if 16 ≤ u ∧ u < 20 then ((c.wf (R.HBM.STAT (u - 16)) 2 0 0).setMode true) else c

/-! ### Temperature -/

/-- The AON domain reads the junction sensors: a warning once per crossing, a thermal trip and its end (R912). -/
def tempRead (c : Chip) (tj thbm : Nat) : Chip :=
  if !c.pwr.porDone then c
  else
    let c := c.staticAdd
    let c := { c with elg := { c.elg with temp := tj } }
    let c := (c.wf R.AON.TSEN 7 0 tj).wf R.AON.TSEN 15 8 thbm
    let lim := c.rf R.AON.TSEN 23 16
    let hot := decide (lim ≤ tj)
    let c := if hot && !c.pwr.tjWarn then c.event aonSlot 0x0C01 else c
    let c := { c with pwr := { c.pwr with tjWarn := hot } }
    if c.pwr.tripHold then
      if tj + 10 < lim ∧ thbm + 10 < lim then ({ c with pwr := { c.pwr with tripHold := false } }).relNow.wb R.AON.FSRC 1 false else c
    else if 125 ≤ tj ∨ 115 ≤ thbm then
      let c := ((c.wb R.AON.FSRC 1 true).cnt R.AON.TRIPS 15 0 1).report aonSlot 0x0C02 .reset ⟨0, 0⟩ 0
      ({ c with pwr := { c.pwr with tripHold := true } }).warmReset 6
    else c

/-! ### NAP -/

/-- A NAP request for a tile is refused (R906). -/
def napBad (c : Chip) (t : Nat) : Bool :=
  !(decide (t < c.tiles) && c.surv t) || !((c.core t).run == .stopped || (c.core t).run == .waitt) || c.rb (R.ARY.ASTAT t) 0 || c.rb (R.DRN.DSTAT t) 0
    || c.tileBusy t || !(c.custSt t).queue.isEmpty || !(c.custSt t).ntf.isEmpty

/-- A tile enters NAP (R362, R473, R548, R906, R965). -/
def napEnter (c : Chip) (t : Nat) : Chip :=
  let c := (c.traceSleep t 1).wb R.PWM.TPWR t true
  let c := c.modAry t fun u => { u with shadow := none, active := none }
  (c.wf (R.TILE.VSTAT t) 1 0 3).modCore t fun x => { x with wakeEnd := none }

/-- A NAP request (R906). -/
def napAsk (c : Chip) (t : Nat) : Chip :=
  if c.napped t then c.wb R.PWM.TNAP t true
  else if c.napBad t then (c.wb R.PWM.TNREF t true).event pwmSlot 0x0C07
  else (c.wb R.PWM.TNAP t true).napEnter t

/-- A NAP exit begins: 20 µs (R904). -/
def napLeave (c : Chip) (t : Nat) : Chip :=
  let c := c.wb R.PWM.TNAP t false
  if !c.napped t || c.rb R.PWM.TPWR (16 + t) then c
  else ({ c with pwr := { c.pwr with napExit := c.pwr.napExit ++ [(t, c.now + us 20)] } }).wb R.PWM.TPWR (16 + t) true

/-- A write of TNAP (R906, R915). -/
def tnapWrite (c : Chip) (who : Who) (val : BitVec 32) : Chip :=
  let c := c.noteRsv R.PWM.TNAP val
  if !c.rwlOk who pwmSlot then c.lockedWrite who R.PWM.TNAP
  else
    let old := c.r R.PWM.TNAP
    forN 16 (fun t c => if bit val t && !bit old t then c.napAsk t else if !bit val t && bit old t then c.napLeave t else c) c

/-- A NAP exit completes (R344, R473, R907, R965); a request written during the exit is taken up then. -/
def napDone (c : Chip) (t : Nat) : Chip :=
  match c.pwr.napExit.find? (fun x => x.1 == t) with
  | none => c
  | some (_, due) =>
    let c := c.waitTo due
    let c := { c with pwr := { c.pwr with napExit := c.pwr.napExit.filter (fun x => x.1 != t) } }
    let c := (((c.wb R.PWM.TPWR t false).wb R.PWM.TPWR (16 + t) false).wf (R.TILE.VSTAT t) 1 0 2).traceWake t
    let c := if c.rb (R.TILE.CCTL t) 1 then c.vWake t c.cycle false else c
    let c := c.modCore t fun x =>
      if x.run = .waitt ∧ x.relPend then { x with run := .run, relPend := false, ready := max x.ready (c.cycle + 2) } else x
    if c.rb R.PWM.TNAP t then (c.wb R.PWM.TNAP t false).napAsk t else c

/-! ### DEEP -/

/-- Why a DEEPC.GO is refused; 0 when it is accepted (R908, R911). -/
def deepWhy (c : Chip) : Nat :=
  if c.tickRuns then 1
  else if (List.range 8).any (fun k => c.kstate k == 1 || c.kstate k == 3) then 2
  else if c.rb R.KMAP.CSTAT 0 then 3
  else if c.pwr.deep ≠ 0 then 4 else 0

/-- An accepted GO runs the entry steps that need not wait (R909 steps 1 and 2, R945, R974, R1004). -/
def deepGo (c : Chip) : Chip :=
  let c := (c.err.open_.foldl errClose c)
  let c := { c with err := { c.err with open_ := [] }, pwr := { c.pwr with deep := 1, wakeHeld := false } }
  let c := forN 17 (fun k c => c.haltEnd k) { c with dbg := { c.dbg with haltReq := [], stepping := [], resumeDue := [] } }
  let c := forN 8 (fun g c => (if c.gEn g then c.groupOff g else c).wb (R.ING.GCFG g) 0 false) c
  let c := forN 16 (fun l c => if c.lnkEn l then (c.wb (R.ING.LNKCTL l) 8 false).setLink l false false else c) c
  let c := forN 8 (fun k (c : Chip) => if c.kstate k = 0 ∧ c.tilesOf k ≠ [] then
      ((c.modKen k fun s => { s with tiles := c.tilesOf k }).setKstate k 1).syncKennel k else c) c
  let c := c.discardJobs (fun j => !j.running)
  let c := forN 8 (fun e c => (c.modEng e fun g => { g with
    moves := g.moves.filter (fun m => m.x.busy || m.x.unit != 0 || !m.x.ops.isEmpty) }).showEng e) c
  let c := { c with ports := c.ports.map (fun (p : JobPort) => { p with queue := [] }) }
  (forN 17 (fun k (c : Chip) => c.showPort k) c).syncCore 16

/-- A write of DEEPC (R908, R911). -/
def deepcWrite (c : Chip) (val : BitVec 32) : Chip :=
  let c := c.noteRsv R.PWM.DEEPC val
  if !bit val 0 then c
  else if c.deepWhy = 0 then c.deepGo
  else (c.wf R.PWM.DEEPC 7 4 c.deepWhy).event pwmSlot 0x0C0B

/-- What is running on the way into DEEP has completed (R909 steps 2, 3 and 6, R709). -/
def deepReady (c : Chip) : Bool :=
  c.pwr.deep == 1 && (List.range 8).all (fun k => c.kstate k == 0 && (c.tilesOf k).isEmpty || c.kstate k == 2)
    && c.engines.all (fun g => g.jobs.isEmpty && g.moves.isEmpty) && (c.lstate == 0 || c.lstate == 2) && !c.rb R.LRN.LSTAT 3
    && c.hbm.all (fun h => h.wbuf.isEmpty && h.rq.isEmpty)

/-- Every Ethernet queue and the event buffer are emptied, and their records counted as displaced (R841). -/
def egrEmpty (c : Chip) : Chip :=
  let c := forN 2 (fun p c => forN 8 (fun k (c : Chip) =>
    let n := (c.ethQ p k).recs.length
    (c.cnt (R.ETH.QDISC p k) 31 0 n).modEthQ p k fun q => { q with recs := [], openAt := none, qdrop := min 65535 (q.qdrop + n) }) c) c
  let c := c.cnt R.PCI.EVDISC 31 0 c.egr.evs.length
  { c.setEgr (fun g => { g with evs := [] }) with netEv := [] }

/-- A wake from DEEP: one during the entry is held (R910, R911). -/
def deepWake (c : Chip) : Chip :=
  if c.pwr.deep = 1 then { c with pwr := { c.pwr with wakeHeld := true } }
  else if c.pwr.deep = 2 then { c with pwr := { c.pwr with deep := 3 } }
  else c

/-- DEEP entry completes (R342, R841, R909, R965). -/
def deepEnter (c : Chip) : Chip :=
  if !c.deepReady then c
  else
    let c := if c.hasCust && c.rf R.CC.CPST 1 0 != 0 then c.custDown 0 else c
    let c := forN c.vxls (fun p c => if c.vst p = 0 then c else c.portDown p 0) c
    let c := (c.egrEmpty).pcieLink false 0 0
    let c := forN 2 (fun p c => c.ethLink p false) c
    let c := forN c.stackCnt (fun s c => if c.rf (R.HBM.STAT s) 2 0 = 2 then c.wf (R.HBM.STAT s) 2 0 3 else c) c
    let c := forN 18 (fun u c => c.traceSleep u 2) c
    let held := c.pwr.wakeHeld
    let c := ({ c with pwr := { c.pwr with deep := 2, deepAt := c.now, wakeHeld := false } }).event pwmSlot 0x0C05
    if held then c.deepWake else c

/-- A tile after DEEP (R245, R247, R362, R474, R547, R548, R581). -/
def tileWake (c : Chip) (t : Nat) : Chip :=
  let c := (((c.aryDiscard t).drnDiscard t).unitFill t).modAry t fun u => { u with shadow := none, active := none }
  let c := c.spZero t 0 0x800000
  let c := { c.resetCore t with pstore := c.pstore.zero (t * 0x20000) 0x18000 }
  let c := { c with regs := c.regs.filter (fun x => x.1 / 0x1000 != slotTile t || x.1 % 0x1000 < 0x200) }
  let c := ((c.w (R.TILE.PFSTAT t) 0).wb (R.TILE.CCTL t) 0 false).wf (R.TILE.VSTAT t) 1 0 2
  { c.modSp t (fun _ => {}) with lost := putKey 0 0 (16 + t) c.lost }

/-- DEEP exit completes: the CC resumes (R186, R293, R631, R709, R746, R841, R876, R910, R945, R965). -/
def deepExit (c : Chip) : Chip :=
  if c.pwr.deep ≠ 3 then c
  else
    let c := { c with pwr := { c.pwr with deep := 0 } }
    let c := forN c.tiles (fun t c => c.tileWake t) c
    let c := { c with mem := c.mem.zero 0x2000000000 0x1800000, ecc := c.ecc.filter (fun x => !(0x2000000000 ≤ x.1 && x.1 < 0x2001800000)), landing := [] }
    let c := c.dmaReset
    let c := forN 8 (fun e c => forN 4 (fun m c => c.wb (R.DMA.LMCFG e m) 0 false) c) c
    let c := forN 17 (fun k c => c.showPort k) c
    let c := { (c.resetRegs 0x010) with ing := {} }
    let c := forN c.stackCnt (fun s c => if c.rf (R.HBM.STAT s) 2 0 = 3 ∧ ¬c.rb (R.HBM.CTL s) 0 then c.wf (R.HBM.STAT s) 2 0 2 else c) c
    let c := forN 8 (fun k c => if c.kstate k = 2 ∧ ¬c.rb (R.KMAP.KCTL k) 0 then c.setKstate k 0 else c) c
    let c := forN c.vxls (fun p c => if c.vxlEn p then c.setVst p 1 else c) c
    let c := if c.hasCust && c.rb R.CC.CPCTL 0 then c.wf R.CC.CPST 1 0 1 else c
    let c := (c.setCasc fun k => { k with rxAt := c.now, tokAt := c.now }).modTick fun t => { t with acc := t.raw, since := [c.now, c.now, c.now] }
    let c := forN 18 (fun i c => if (nth ({} : Watchdog) c.wdt i).running then c.wdtZero i else c) c
    let c := { c with elg := { c.elg with roundAt := c.now, winAt := c.now, winAll := c.elg.all, calAt := c.now, calAll := c.elg.all } }
    let c := forN 18 (fun u c => c.traceWake u) c
    (c.syncCore 16).event pwmSlot 0x0C06

/-! ### Register writes -/

/-- A write of an AON register with checks or effects (R910, R914, R916, R970, R1001). -/
def aonWrite (c : Chip) (who : Who) (key : Nat) (val : BitVec 32) : Chip :=
  let bad (c : Chip) : Chip := c.badValue who key
  match key % 0x1000 with
  | 0x050 => if val = 0x57525354 then c.warmReset 5 else c
  | 0x054 =>
    let c := (c.putReg who key val).wb key 0 false
    if bit val 0 then c.deepWake else c
  | 0x058 => c.putIf who key val (fld val 23 0 != 0) bad
  | 0x05C => c.putIf who key val (decide (85 ≤ fld val 23 16) && decide (fld val 23 16 ≤ 115)) bad
  | 0x0A0 =>
    let c := c.noteRsv key val
    if bit val 0 then c.wb R.AON.FSRC 7 false else c
  | _ => c.putReg who key val

end Chip

/-! ### Commands -/

/-- POWER_ON_RESET (R880, R913, R1058): power-on reset ends 1 ms after VDD_AON has entered its range, with the SMB_A straps as sampled. -/
def execPowerOnReset (smba : BitVec 2) (s : State) : Host.Outcome State Fault Refusal :=
  s.on fun c => if c.pwr.porDone then c else c.powerOn false smba

/-- VDD_AON_LOSS (R880): power-on reset holds the whole device. -/
def execVddAonLoss (s : State) : Host.Outcome State Fault Refusal := s.on fun c => c.powerOn true 0

/-- FUSE_LOAD_DONE (R880). -/
def execFuseLoadDone (s : State) : Host.Outcome State Fault Refusal := s.on fun c => c.fuseLoad

/-- PWRGOOD_RISE (R879, R892). -/
def execPwrgoodRise (s : State) : Host.Outcome State Fault Refusal :=
  s.on fun c => if c.pwr.pwrgood then c else ({ c with pwr := { c.pwr with pwrgood := true } }).relNow

/-- PWRGOOD_FALL (R881, R890). -/
def execPwrgoodFall (s : State) : Host.Outcome State Fault Refusal :=
  s.on fun c => if !c.pwr.pwrgood then c else ({ c with pwr := { c.pwr with pwrgood := false } }).warmReset 2

/-- RESET_N_ASSERT (R886, R890). -/
def execResetNAssert (s : State) : Host.Outcome State Fault Refusal :=
  s.on fun c => if !c.pwr.resetN then c else ({ c with pwr := { c.pwr with resetN := false, lowAt := some c.now } }).warmReset 1

/-- RESET_N_RELEASE (R886, R891, R892). -/
def execResetNRelease (s : State) : Host.Outcome State Fault Refusal :=
  s.on fun c => if c.pwr.resetN then c
    else ({ c with pwr := { c.pwr with resetN := true, lowAt := none } }).relNow.wb R.AON.FSRC 0 false

/-- RESET_HELD_LIMIT (R891): RESET_N has been low for 2 s. -/
def execResetHeldLimit (s : State) : Host.Outcome State Fault Refusal :=
  s.on fun c => match c.pwr.lowAt with
    | some t =>
      if !c.pwr.porDone || c.rb R.AON.FSRC 0 then c
      else (((c.waitTo (t + ms 2000)).wb R.AON.FSRC 0 true).cnt R.AON.RCNT 31 16 1).event Chip.aonSlot 0x0C04
    | none => c

/-- REFCLK_LOSS (R884, R885): the AON clock moves to the ring. -/
def execRefclkLoss (s : State) : Host.Outcome State Fault Refusal :=
  s.on fun c => if !c.pwr.refclk then c
    else
      let (n, c) := c.gtMark.free
      let c := { c with pwr := { c.pwr with refclk := false, ringDev := ((n % 200000001 : Nat) : Int) - 100000000 } }
      if !c.pwr.porDone then c
      else ((c.wb R.AON.FSRC 2 true).report Chip.aonSlot 0x0C03 .reset ⟨0, 0⟩ 0).warmReset 7

/-- REFCLK_RETURN (R885, R892). -/
def execRefclkReturn (s : State) : Host.Outcome State Fault Refusal :=
  s.on fun c => if c.pwr.refclk then c
    else ({ c.gtMark with pwr := { c.pwr with refclk := true } }).relNow.wb R.AON.FSRC 2 false

/-- CORE_DOMAIN_RELEASE (R892), with the MGR strap as sampled. -/
def execCoreDomainRelease (mgr : Bool) (s : State) : Host.Outcome State Fault Refusal := s.on fun c => c.coreRelease mgr

/-- SELF_TEST_DONE (R902, R903), by unit. -/
def execSelfTestDone (unit : BitVec 6) (ok : Bool) (s : State) : Host.Outcome State Fault Refusal := s.on fun c => c.selfTest unit.toNat ok

/-- IMAGE_AUTHENTICATED (R899). -/
def execImageAuthenticated (flash : BootFlash) (s : State) : Host.Outcome State Fault Refusal := s.on fun c => c.bootTry flash

/-- IMAGE_ENTRY (R900). -/
def execImageEntry (s : State) : Host.Outcome State Fault Refusal := s.up fun c => c.imageEntry

/-- JUNCTION_TEMP_READ (R912). -/
def execJunctionTempRead (tj thbm : BitVec 8) (s : State) : Host.Outcome State Fault Refusal := s.on fun c => c.tempRead tj.toNat thbm.toNat

/-- NAP_EXIT_DONE (R904, R907). -/
def execNapExitDone (t : TileId) (s : State) : Host.Outcome State Fault Refusal := s.up fun c => c.napDone t.val

/-- DEEP_ENTRY_DONE (R909). -/
def execDeepEntryDone (s : State) : Host.Outcome State Fault Refusal := s.up fun c => c.deepEnter

/-- DEEP_WAKE (R910): an SMBus wake, the wake timer with TMRW set, or an encoder edge with ENCW set. -/
def execDeepWake (by_ : WakeBy) (s : State) : Host.Outcome State Fault Refusal :=
  s.on fun c => match by_ with
    | .smb => c.deepWake
    | .timer => if c.pwr.deep = 2 ∧ c.rb R.AON.WAKE 2 ∧ c.rf R.AON.WKTMR 23 0 ≠ 0 then
        (c.waitTo (c.pwr.deepAt + ms (c.rf R.AON.WKTMR 23 0))).deepWake else c
    | .enc => if c.rb R.AON.WAKE 1 then c.deepWake else c

/-- DEEP_EXIT_DONE (R910). -/
def execDeepExitDone (s : State) : Host.Outcome State Fault Refusal := s.on fun c => c.deepExit.settle

end Sys2Proof.Machine
end

