-- ==== Sys2Proof/Machine/Watchdog.lean ====
section
/-!
DEFINITION. The watchdogs: the WDT channels of the cores, their hard timers, and the system watchdog.
-/
namespace Sys2Proof.Machine
namespace Chip

abbrev wdtSlot : Nat := 0x005
abbrev swdSlot : Nat := 0x002

def wdtOf (c : Chip) (i : Nat) : Watchdog := nth {} c.wdt i

/-- Page of the evidence entry of a watchdog's code: a channel reports to WDT, the system watchdog to SWD (R940). -/
def wdtPage (i : Nat) : Nat := if i = 17 then swdSlot else wdtSlot

/-- The requester whose watchdog it is. -/
def wdtReq (c : Chip) (i : Nat) : Req := if i < 16 then ⟨1, c.owner i⟩ else ⟨0, 0⟩

/-- The period in force of a watchdog, in time units (R920, R922). -/
def wdtPeriod (c : Chip) (i : Nat) : Nat := if i = 17 then ms (c.wdtOf i).period else cyc (1024 * (c.wdtOf i).period)

/-- The period as its register holds it. -/
def wdtPer (c : Chip) (i : Nat) : Nat := if i = 17 then c.rf R.SWD.SCFG 31 16 else c.rf (R.WDT.WPER i) 23 0

/-- The count begins again, under the period as it is written (R936). -/
def wdtRestart (c : Chip) (i : Nat) : Chip := (c.wdtZero i).modWdt i fun w => { w with period := c.wdtPer i }

/-- Evidence of an expiry (R938): EPC, EEXP, and ECODE with ECNT. -/
def evidence (c : Chip) (i code : Nat) : Chip :=
  let k := min i 16
  let epc := if c.coreUp && c.pwr.deep != 2 then (c.core k).pc.toNat else 2 ^ 48 - 1
  let c := (c.w64 (R.SWD.EPC_LO i) epc).w64 (R.SWD.EEXP_LO i) c.gtime
  (c.wf (R.SWD.ECODE i) 15 0 code).cnt (R.SWD.ECODE i) 31 16 1

/-- A WDT channel expires, or a violation is handled as its expiry (R923, R926): evidence, the event, the NMI, and the hard timer. -/
def wdtExpire (c : Chip) (i code : Nat) : Chip :=
  let c := (c.evidence i code).report wdtSlot code .event (c.wdtReq i) 0
  let c := (c.cnt (R.WDT.WEXP i) 15 0 1).modCore i fun x => { x with nmi := x.nmi || !x.nxl }
  if (c.wdtOf i).bark then c else (c.wdtRestart i).modWdt i fun w => { w with bark := true, paused := false }

/-- The hard timer of a channel expires (R929, R938, R941). -/
def hardExpire (c : Chip) (i : Nat) : Chip :=
  if i = 16 then
    ((c.wf (R.SWD.ECODE i) 15 0 0x0903).report wdtSlot 0x0903 .reset ⟨0, 0⟩ 0).warmReset 4
  else
    let k := c.owner i
    ((c.wf (R.SWD.ECODE i) 15 0 0x0902).kfault wdtSlot 0x0902 ⟨1, k⟩ 0 k).wdtZero i

/-- The system watchdog expires, or a violation is handled as its expiry and counted as a violation (R931 to R933, R938). -/
def swdExpire (c : Chip) (code : Nat) : Chip :=
  let c := (c.evidence 17 code).report swdSlot code .reset ⟨0, 0⟩ 0
  let c := (if code = 0x0904 then c.cnt R.SWD.SEXP 31 16 1 else c.cnt R.SWD.SEXP 15 0 1).wdtRestart 17
  let c := { c with pwr := { c.pwr with wdoEnd := some (c.now + ms (match c.fuse.spw.toNat with | 0 => 1 | 1 => 10 | _ => 100)) } }
  if c.coreUp then ({ c with pwr := { c.pwr with swdHold := true } }).warmReset 3 else c.wb R.AON.RCAUSE 3 true

/-- The service window is open (R923, R927). -/
def wdtOpen (c : Chip) (i : Nat) : Bool := (i != 17 && (c.wdtOf i).bark) || decide (c.wdtWindow i ≤ c.wdtUnits i)

/-- An accepted service (R920, R927, R936, R938). -/
def wdtServed (c : Chip) (i : Nat) : Chip :=
  let was := (c.wdtOf i).bark
  let c := (c.wdtRestart i).w64 (R.SWD.ESVC_LO i) c.gtime
  if was then (c.cnt (R.WDT.WEXP i) 31 16 1).report wdtSlot 0x0907 .event (c.wdtReq i) 0 else c

/-- A write of WSVC or SSVC by the core that may service it (R923, R924). -/
def wdtService (c : Chip) (i key : Nat) : Chip :=
  if !(c.wdtOf i).running then c
  else if key = (if i = 17 then 0x5357 else 0x5744) ∧ c.wdtOpen i then c.wdtServed i
  else if i = 17 then c.swdExpire 0x0904
  else c.wdtExpire i 0x0904

/-- A write of WSVC of core `i` (R924). -/
def wsvcWrite (c : Chip) (who : Who) (i key : Nat) (val : BitVec 32) : Chip :=
  let own := match who with | .tile t => t.val == i | .cc => i == 16 | _ => false
  if own then (c.noteRsv key val).wdtService i (fld val 31 16) else c.refuse who (key / 0x1000) 0x0521 (regAddr key)

/-- A write of SSVC (R924). -/
def ssvcWrite (c : Chip) (who : Who) (val : BitVec 32) : Chip :=
  if who = .cc then (c.noteRsv R.SWD.SSVC val).wdtService 17 (fld val 31 16)
  else c.refuse who swdSlot 0x0521 (regAddr R.SWD.SSVC)

/-- A channel or the system watchdog starts or stops with its EN (R922, R938). -/
def wdtEnable (c : Chip) (i : Nat) (en : Bool) : Chip :=
  if (c.wdtOf i).running = en then c
  else if en then c.modWdt i fun _ => { at_ := c.now, running := true, paused := c.wdtPaused i, period := c.wdtPer i }
  else c.modWdt i fun _ => {}

/-- A write of the WDT page (R936, R939). -/
def wdtWrite (c : Chip) (who : Who) (key : Nat) (val : BitVec 32) : Chip :=
  let ofs := key % 0x1000
  let i := (ofs - 0x100) / 16
  if 0x100 ≤ ofs ∧ ofs < 0x210 then
    if i < 16 ∧ c.tiles ≤ i then c.noteRsv key val
    else if ofs % 16 = 0 then (let c := c.putReg who key val; c.wdtEnable i (c.rb key 0))
    else if ofs % 16 = 4 then
      let c := c.putIf who key val (fld val 23 0 != 0) (fun c => c.badValue who key)
      if (c.wdtOf i).running then c else c.modWdt i fun w => { w with period := c.wdtPer i }
    else c.putReg who key val
  else c.putReg who key val

/-- A write of the SWD page (R936, R937, R939). -/
def swdWrite (c : Chip) (who : Who) (key : Nat) (val : BitVec 32) : Chip :=
  if key = R.SWD.SCFG then
    let p := fld val 31 16
    let c := c.putIf who key val (decide (10 ≤ p) && decide (p ≤ 60000)) (fun c => c.badValue who key)
    c.wdtEnable 17 (c.rb key 0)
  else if key = R.SWD.SSVC then c.ssvcWrite who val
  else c.putReg who key val

end Chip

/-- WDT_EXPIRY (R920, R926). -/
def execWdtExpiry (ch : CoreId) (s : State) : Host.Outcome State Fault Refusal :=
  s.up fun c =>
    let w := c.wdtOf ch.val
    if !w.running || w.bark || w.paused then c
    else (c.waitTo (c.now + (c.wdtPeriod ch.val - c.wdtTime ch.val))).wdtExpire ch.val 0x0901

/-- WDT_HARD_TIMER_EXPIRY (R927 to R929). -/
def execWdtHardTimerExpiry (ch : CoreId) (s : State) : Host.Outcome State Fault Refusal :=
  s.up fun c =>
    let w := c.wdtOf ch.val
    if !w.running || !w.bark || w.paused then c
    else ((c.waitTo (c.now + (ms (c.fuse.whard.toNat + 1) - c.wdtTime ch.val))).hardExpire ch.val).settle

/-- SWD_EXPIRY (R922, R931). -/
def execSwdExpiry (s : State) : Host.Outcome State Fault Refusal :=
  s.on fun c =>
    let w := c.wdtOf 17
    if !w.running || w.paused || !c.pwr.porDone then c
    else (c.waitTo (c.now + (c.wdtPeriod 17 - c.wdtTime 17))).swdExpire 0x0905

/-- WDO_PULSE_END (R931, R932). -/
def execWdoPulseEnd (s : State) : Host.Outcome State Fault Refusal :=
  s.on fun c => match c.pwr.wdoEnd with
    | none => c
    | some t =>
      let c := c.waitTo t
      let c := { c with pwr := { c.pwr with wdoEnd := none } }
      if c.pwr.swdHold then ({ c with pwr := { c.pwr with swdHold := false } }).relNow else c

end Sys2Proof.Machine
end

