-- ==== Sys2Proof/Machine/Debug.lean ====
section
/-!
DEFINITION. The test access port, the debug rights and the unlock token, test mode, and the halting, stepping and inspection of cores.
-/
namespace Sys2Proof.Machine
namespace Chip

abbrev dbgSlot : Nat := 0x008

def setDbg (c : Chip) (f : Debug → Debug) : Chip := { c with dbg := f c.dbg }

/-- The debug right and the test right (R951). -/
def unlk (c : Chip) : Bool := c.rb R.DBG.DSTAT 0
def derr (c : Chip) : Chip := c.wb R.DBG.DSTAT 3 true

/-! ### TAP -/

/-- IDCODE (R948): the version is 1 at B0. -/
def idcode (c : Chip) : Nat := 1 + 0x4D3 * 2 + c.fuse.part.toNat * 2 ^ 12 + b2n (c.fuse.rev == 0xB0) * 2 ^ 28

/-- DAPSTAT (R950). -/
def dapstat (c : Chip) : Nat :=
  b2n c.dbg.dapBusy + 2 * b2n (c.rb R.DBG.DSTAT 3) + 4 * b2n c.unlk + 8 * b2n (c.rb R.DBG.DSTAT 2) + 16 * b2n (c.r R.DBG.HSTAT != 0)

/-- The TAP selects an instruction (R947). While power-on reset holds the AON domain it stays in Test-Logic-Reset. -/
def tapIr (c : Chip) (ir : BitVec 8) : Chip := if c.pwr.porDone then c.setDbg fun d => { d with ir := ir } else c

/-! ### Test mode and the debug rights -/

/-- Test mode is active while TEST and TESTS are 1 (R76, R955). -/
def testSync (c : Chip) : Chip :=
  let on_ := c.rb R.DBG.DCTL 1 && c.rb R.DBG.DSTAT 1
  if on_ = c.rb R.DBG.DSTAT 2 then c
  else if on_ then ((c.wb R.DBG.DSTAT 2 true).wb R.TICK.TSTAT 3 true).event dbgSlot 0x0B45
  else c.testEnds.event dbgSlot 0x0B46

/-- A halted core resumes; one in a step resumes when the step is complete (R954, R972). -/
def debugGo (c : Chip) (k : Nat) : Chip :=
  if c.dbg.stepping.contains k then
    (c.wb R.DBG.HRES k false).setDbg fun d => { d with resumeDue := if d.resumeDue.contains k then d.resumeDue else k :: d.resumeDue }
  else (c.wb R.DBG.HRES k false).haltEnd k

/-- DLOCK (R954). -/
def debugLock (c : Chip) : Chip :=
  let c := ((c.wf R.DBG.DSTAT 1 0 0).wb R.DBG.DCTL 1 false).testSync
  forN 17 (fun k c => if (c.core k).run = .halted ∨ c.dbg.stepping.contains k then c.debugGo k else c) c

/-- A write of DCTL (R954, R955, R969). -/
def dctlWrite (c : Chip) (who : Who) (val : BitVec 32) : Chip :=
  let bad := bit val 1 && !c.rb R.DBG.DSTAT 1
  let was := c.rb R.DBG.DCTL 1
  let c := c.putReg who R.DBG.DCTL val
  let c := if bad then (c.wb R.DBG.DCTL 1 was).derr else c
  let c := c.testSync
  if bit val 0 then c.debugLock else c

/-- A new NONCE (R953). -/
def newNonce (c : Chip) : Chip := let (n, c) := c.free; c.setDbg fun d => { d with nonce := BitVec.ofNat 64 n }

/-- Byte `i` of the unlock token (R952). -/
def tokByte (c : Chip) (i : Nat) : Nat := (getKey 0 c.dbg.token (i / 4)).toNat / 2 ^ (8 * (i % 4)) % 256

/-- A token is refused (R953). -/
def tokRefuse (c : Chip) (why : Nat) : Chip := ((c.wf R.DBG.DSTAT 7 4 why).event dbgSlot 0x0B42).newNonce

/-- A write of TVFY (R951, R953). -/
def tvfyWrite (c : Chip) (val : BitVec 32) : Chip :=
  let c := c.noteRsv R.DBG.TVFY val
  if !bit val 0 || c.dbg.verifying then c
  else if c.fuse.dmode = 2 then c.tokRefuse 5
  else c.setDbg fun d => { d with verifying := true }

/-- Why a token is not accepted; 0 when it is (R953, R969). -/
def tokWhy (c : Chip) (keyOk sigOk : Bool) : Nat :=
  let num (a n : Nat) : Nat := natLE ((List.range n).map (fun i => BitVec.ofNat 8 (c.tokByte (a + i))))
  if num 0 8 ≠ c.dbg.nonce.toNat then 1
  else if num 8 8 ≠ c.fuse.uid.toNat then 2
  else if !keyOk then 3
  else if !sigOk then 4
  else if 4 ≤ c.tokByte 16 ∨ num 17 15 ≠ 0 then 6 else 0

/-- Verification ends (R953). -/
def tokDone (c : Chip) (keyOk sigOk : Bool) : Chip :=
  if !c.dbg.verifying then c
  else
    let c := c.setDbg fun d => { d with verifying := false }
    let why := c.tokWhy keyOk sigOk
    if why ≠ 0 then c.tokRefuse why
    else
      let c := (c.wf R.DBG.DSTAT 7 4 0).wf R.DBG.DSTAT 1 0 (c.tokByte 16)
      (c.event dbgSlot 0x0B41).newNonce.testSync

/-! ### Halt, step, breakpoints -/

/-- A halt request (R956). -/
def haltAsk (c : Chip) (k : Nat) : Chip :=
  if (c.core k).run = .halted ∨ (k < 16 ∧ ¬c.surv k) then c.wb R.DBG.HREQ k false
  else
    let old := (c.haltDue k).getD 0
    c.setDbg fun d => { d with haltReq := (k, old ||| 1) :: d.haltReq.filter (fun h => h.1 != k) }

/-- A step begins (R958). -/
def stepBegin (c : Chip) (k : Nat) : Chip :=
  if (c.core k).run ≠ .halted then c.wb R.DBG.HSTEP k false
  else
    let c := (c.wb R.DBG.HSTAT k false).setDbg fun d => { d with stepping := if d.stepping.contains k then d.stepping else k :: d.stepping }
    let c := c.modCore k fun x =>
      if x.before = .waitt ∧ x.relPend then { x with run := .run, relPend := false, bpPast := true } else { x with run := x.before, bpPast := true }
    c.syncCore k

/-- A core reaches a boundary after a halt cause: a request, a breakpoint or the end of a step (R956, R957). -/
def haltReach (c : Chip) (k : Nat) (bpOnly : Bool) : Chip :=
  let x := c.core k
  if !(x.run == .run && x.bundle.isEmpty || x.run == .waitt || x.run == .stalled) then c
  else
    let c := if x.run = .run then (c.modCore k Core.loopBack).syncCore k else c
    let cause := if x.run = .run then c.haltCause k else (c.haltDue k).getD 0
    if (c.core k).run ≠ x.run ∨ cause = 0 ∨ (bpOnly ∧ cause / 2 % 2 = 0) then c
    else if (c.core k).takenBr then c.haltLater k
    else if (c.core k).loadsIn then c.haltCore k cause else c

/-! ### Registers of a halted core -/

/-- The register that RSEL names, as a number, and its width; `none` where the access is refused (R960). -/
def dbgReg (c : Chip) : Option (Nat × Nat) :=
  let k := c.rf R.DBG.RSEL 4 0
  let n := c.rf R.DBG.RSEL 12 8
  let x := c.core k
  if 16 < k ∨ x.run ≠ .halted ∨ ¬c.unlk then none
  else match c.rf R.DBG.RSEL 7 5 with
    | 0 => some ((x.D n).toNat, 24)
    | 1 => if n < 16 then some ((x.A n).toNat, 48) else none
    | 2 => if n < 8 then some ((x.X n).toNat, 72) else none
    | 3 => (c.crRead k n).map (fun v => (v.toNat, 48))
    | 4 => if k < 16 then some ((x.V n).toNat, 3072) else none
    | 5 => if k < 16 ∧ n < 8 then some ((x.M n).toNat, 384) else none
    | 6 => if k < 16 ∧ n < 4 then some ((x.VA n).toNat, 6144) else none
    | _ => none

/-- A read of RDAT (R960). -/
def rdatRead (c : Chip) : BitVec 32 × Chip :=
  match c.dbgReg with
  | none => (0, c.derr)
  | some (v, _) => (BitVec.ofNat 32 (v / 2 ^ (32 * c.rf R.DBG.RSEL 21 16)), c)

/-- A write of RDAT: as an MTC would (R353, R354, R960). -/
def rdatWrite (c : Chip) (val : BitVec 32) : Chip :=
  let k := c.rf R.DBG.RSEL 4 0
  let n := c.rf R.DBG.RSEL 12 8
  let w := c.rf R.DBG.RSEL 21 16
  match c.dbgReg with
  | none => c.derr
  | some (old, width) =>
    if width ≤ 32 * w then c
    else
      let v := old - old / 2 ^ (32 * w) % 2 ^ 32 * 2 ^ (32 * w) + val.toNat * 2 ^ (32 * w)
      let m := 15 * 2 ^ (4 * w)
      let put (e : Eff) : Chip := c.modCore k fun x => x.apply 0 e
      match c.rf R.DBG.RSEL 7 5 with
      | 0 => put (.wd n (BitVec.ofNat 24 v))
      | 1 => put (.wa n (BitVec.ofNat 48 v))
      | 2 => put (.wx n (BitVec.ofNat 72 v))
      | 3 =>
        let u := BitVec.ofNat 48 v
        let x := c.core k
        let bad := (n == 5 && bit u 14 && !c.inProgram k x.ebt) ||
          (n == 0x16 && bit u 0 && bit u 1 && !(decide (x.LS 0 ≤ x.LS 1) && decide (x.LE 1 ≤ x.LE 0)))
        if bad then c.derr else if crRO n then c else put (.mtc n u)
      | 4 => put (.wv n (BitVec.ofNat 384 m) (BitVec.ofNat 3072 v))
      | 5 => put (.wm n (BitVec.ofNat 384 ((2 ^ 32 - 1) * 2 ^ (32 * w))) (BitVec.ofNat 384 v))
      | _ => put (.wva n (BitVec.ofNat 768 m) (BitVec.ofNat 6144 v))

/-- A write of a DBG register (R956, R969). -/
def dbgWrite (c : Chip) (who : Who) (key : Nat) (val : BitVec 32) : Chip :=
  let ofs := key % 0x1000
  let each (c : Chip) (f : Chip → Nat → Chip) : Chip := forN 17 (fun k c => if bit val k then f c k else c) c
  if ofs = 0x044 then c.dctlWrite who val
  else if ofs = 0x050 then c.tvfyWrite val
  else if 0x400 ≤ ofs ∧ ofs < 0x4E4 then
    c.setDbg fun d => { d with token := putKey 0 ((ofs - 0x400) / 4) val d.token }
  else if ofs = 0x060 ∨ ofs = 0x064 ∨ ofs = 0x068 ∨ ofs = 0x140 ∨ ofs = 0x144 then
    if !c.unlk then c.derr
    else match ofs with
      | 0x060 => each (c.putReg who key val) haltAsk
      | 0x064 => each (c.putReg who key val) debugGo
      | 0x068 => each (c.putReg who key val) stepBegin
      | 0x144 => c.rdatWrite val
      | _ => c.putReg who key val
  else c.putReg who key val

end Chip

/-- IDCODE (R947, R948). -/
def execIdcode (s : State) : Host.Outcome State Fault Refusal := s.on fun c => (c.tapIr 0x02).emit (.tdo 0x02 32 c.idcode)

/-- DAPSTAT (R950). -/
def execDapstat (s : State) : Host.Outcome State Fault Refusal := s.on fun c => (c.tapIr 0x09).emit (.tdo 0x09 8 c.dapstat)

/-- BYPASS (R947): a one-bit register, which captures 0. -/
def execBypass (s : State) : Host.Outcome State Fault Refusal := s.on fun c => (c.tapIr 0xFF).emit (.tdo 0xFF 1 0)

/-- SAMPLE_PRELOAD (R947). -/
def execSamplePreload (s : State) : Host.Outcome State Fault Refusal := s.on fun c => c.tapIr 0x01

/-- EXTEST (R948): accepted only while the core domain is in reset. -/
def execExtest (s : State) : Host.Outcome State Fault Refusal :=
  s.on fun c => if c.coreUp then (c.tapIr 0xFF).derr else c.tapIr 0x00

/-- TAP_RESET (R947). -/
def execTapReset (s : State) : Host.Outcome State Fault Refusal := s.on fun c => c.setDbg fun d => { d with ir := 0x02 }

/-- TOKEN_VERIFY_DONE (R953): whether the key's hash and the signature verify. -/
def execTokenVerifyDone (keyOk sigOk : Bool) (s : State) : Host.Outcome State Fault Refusal := s.up fun c => c.tokDone keyOk sigOk

/-- CORE_HALTED (R956). -/
def execCoreHalted (k : CoreId) (s : State) : Host.Outcome State Fault Refusal := s.up fun c => c.haltReach k.val false

/-- BREAKPOINT_HIT (R957). -/
def execBreakpointHit (k : CoreId) (s : State) : Host.Outcome State Fault Refusal := s.up fun c => c.haltReach k.val true

end Sys2Proof.Machine
end

