-- ==== Sys2Proof/Machine/Floor.lean ====
section
/-!
DEFINITION. The merge stage of the error aggregator, the service floor, the firmware update at floor 0 and the behaviour level.
-/
namespace Sys2Proof.Machine
namespace Chip

/-! ### The merge stage -/

/-- The oldest entry of the merge stage closes MWIN microseconds after it opened (R982 to R984), and its event record leaves for the
network (R832, R986). -/
def mergeClose (c : Chip) : Chip :=
  match c.err.open_ with
  | [] => c
  | e :: r =>
    let c := c.waitTo (e.at_ + us (c.rf R.ERR.ECTL 13 0))
    (({ c with err := { c.err with open_ := r } }).errClose e).evPump

/-! ### The service floor -/

/-- The first requirement of a floor that the surviving units leave unmet, by its LIM code, 0 for none (R993, R1000). -/
def floorLim (c : Chip) (floor : Nat) : Nat :=
  let any (lo n : Nat) : Bool := (List.range' lo n).any c.surv
  let anyx (lo n : Nat) : Bool := (List.range' lo n).any c.survx
  let need : List (Nat × Bool) := if floor = 1 then [(2, any 0 16), (3, c.surv 29)]
    else [(4, any 16 4), (5, c.surv 28), (6, any 20 8), (7, anyx 0 16), (8, anyx 20 2 || c.surv 30 || anyx 16 4)]
  ((need.find? (fun x => !x.2)).map (·.1)).getD 0

/-- The floor that the surviving units give, and LIM (R993, R994). -/
def floorNow (c : Chip) : Nat × Nat :=
  if c.floorLim 1 ≠ 0 then (0, c.floorLim 1) else if c.floorLim 2 ≠ 0 then (1, c.floorLim 2) else (2, 0)

/-- Every stack is ready, failed or disabled (R994). -/
def stacksSettled (c : Chip) : Bool :=
  (List.range c.stackCnt).all (fun s => !c.surv (16 + s) || (let st := c.rf (R.HBM.STAT s) 2 0; st == 2 || st == 3 || st == 4))

/-- DEV.FLOOR becomes VALID, no later than the cold bound after release (R290, R994). -/
def floorAssess (c : Chip) : Chip :=
  if !c.coreUp || c.rb R.DEV.FLOOR 8 then c
  else
    let c := if c.stacksSettled then c else c.waitTo (c.pwr.relAt + ms 391)
    let (f, l) := c.floorNow
    let c := c.w R.DEV.FLOOR (BitVec.ofNat 32 (f + 2 ^ 8 + l * 2 ^ 12))
    if f < 2 then (c.wb R.AON.FSRC 7 true).event 0 0x0C0C else c

/-! ### The firmware update at floor 0 -/

/-- A word of the mailbox in CC memory (R996, R997). -/
def mailWord (c : Chip) (a n : Nat) : Nat := natLE (c.getBytes .ccMem a n)
def mailStatus (c : Chip) (v : Nat) : Chip := c.eccWrite .ccMem 0x3FDF8 (bytesLE 4 v)

/-- The boot ROM looks into the mailbox: a command is taken, or refused while the PCIe endpoint is disabled or its link down (R996,
R997). -/
def updatePoll (c : Chip) : Chip :=
  if c.rf R.AON.BOOTST 2 0 ≠ 4 || c.pwr.updating || c.mailWord 0x3FDF0 4 ≠ 0x55504454 then c
  else
    let c := c.eccWrite .ccMem 0x3FDF0 (zeros 4)
    if !c.surv 30 || !c.rb R.PCI.PLSTAT 8 then c.mailStatus 3
    else ({ c with pwr := { c.pwr with updating := true } }).mailStatus 1

/-- The staged slot as the boot ROM reads it (R898): whether its key's hash, its signature and its image's hash verify. -/
def stagedSlot (c : Chip) (keyOk sigOk hashOk : Bool) : BootSlot :=
  let f (i n : Nat) : Nat := c.mailWord (0x3FE00 + i) n
  { magic := f 0 4 == 0x42565A55 && f 4 1 == 1, svn := BitVec.ofNat 32 (f 8 4), len := BitVec.ofNat 32 (f 12 4)
    entry := BitVec.ofNat 48 (f 16 6), keyOk := keyOk, sigOk := sigOk, hashOk := hashOk }

/-- The BOOTST.WHY reason for which a staged slot is refused, 0 for none (R899, R914). -/
def stagedWhy (c : Chip) (b : BootSlot) : Nat :=
  if !b.magic then 2 else if b.svn.toNat < c.fuse.minSvn then 6 else slotWhy b

/-- The staged slot is authenticated, written and verified, and a warm reset of cause SOFT follows; or the update ends in a status
(R997). -/
def updateEnd (c : Chip) (keyOk sigOk hashOk flashOk : Bool) : Chip :=
  if !c.pwr.updating then c
  else
    let c := { c with pwr := { c.pwr with updating := false } }
    let slot := c.mailWord 0x3FDF4 1
    let b := c.stagedSlot keyOk sigOk hashOk
    let why := c.stagedWhy b
    if slot ≠ 1 ∧ slot ≠ 2 then c.mailStatus 3
    else if why ≠ 0 then c.mailStatus (3 + why * 2 ^ 8)
    else if !flashOk then c.mailStatus 4
    else ((c.mailStatus 2).emit (.flash slot (c.getBytes .ccMem 0x3FE00 (512 + b.len.toNat)))).warmReset 5

/-! ### The behaviour level -/

/-- A write of DEV.BLSEL (R1010): refused for a level the part does not support, while a tile core is not STOPPED, and while the tick unit
runs or flushes. -/
def blselWrite (c : Chip) (who : Who) (val : BitVec 32) : Chip :=
  let ok := c.fuse.blsup.getLsbD (fld val 3 0) && (List.range c.tiles).all (fun t => (c.core t).run == .stopped) && c.tstate != 1 && c.tstate != 2
  c.putIf who R.DEV.BLSEL val (ok || c.lockedOut who R.DEV.BLSEL) (fun c => c.badValue who R.DEV.BLSEL)

/-- A write of ERR.ECTL (R999). -/
def ectlWrite (c : Chip) (who : Who) (val : BitVec 32) : Chip :=
  c.putIf who R.ERR.ECTL val (fld val 13 0 ≤ 10000) (fun c => c.badValue who R.ERR.ECTL)

end Chip

/-- ERR_ENTRY_CLOSE (R984). -/
def execErrEntryClose (s : State) : Host.Outcome State Fault Refusal := s.up fun c => c.mergeClose

/-- FLOOR_ASSESSMENT (R994). -/
def execFloorAssessment (s : State) : Host.Outcome State Fault Refusal := s.up fun c => c.floorAssess

/-- FIRMWARE_UPDATE_POLL (R996). -/
def execFirmwareUpdatePoll (s : State) : Host.Outcome State Fault Refusal := s.up fun c => c.updatePoll

/-- FIRMWARE_UPDATE (R997): whether the key's hash, the signature and the image's hash verify, and the flash is written and reads back. -/
def execFirmwareUpdate (keyOk sigOk hashOk flashOk : Bool) (s : State) : Host.Outcome State Fault Refusal :=
  s.up fun c => c.updateEnd keyOk sigOk hashOk flashOk

end Sys2Proof.Machine
end

