-- ==== Sys2Proof/Machine/Vector.lean ====
section
/-!
DEFINITION. The V-slot syllables: lane types, masks, lane arithmetic, and one meaning per syllable.
-/
namespace Sys2Proof.Machine

/-! ### Lane types -/

/-- How a lane's bits are read. -/
inductive LaneKind where
  | u | s | f (fmt : FFmt)
  deriving DecidableEq, Repr

/-- A lane type: its width in bytes and its kind (R423). -/
structure LaneTy where
  w : Nat
  kind : LaneKind
  deriving DecidableEq, Repr

/-- The lane type of a T field (R423). -/
def laneTy (t : BitVec 3) : Option LaneTy :=
  match t.toNat with
  | 0 => some ⟨1, .u⟩ | 1 => some ⟨1, .s⟩ | 2 => some ⟨2, .u⟩ | 3 => some ⟨2, .s⟩ | 4 => some ⟨3, .s⟩
  | 5 => some ⟨2, .f bf16⟩ | 6 => some ⟨2, .f fp16⟩ | _ => none

def LaneTy.lanes (t : LaneTy) : Nat := 384 / t.w
def LaneTy.bits (t : LaneTy) : Nat := 8 * t.w
def LaneTy.signed (t : LaneTy) : Bool := t.kind == .s
def LaneTy.isInt (t : LaneTy) : Bool := match t.kind with | .f _ => false | _ => true
/-- The float format of a float lane type. -/
def LaneTy.fmt (t : LaneTy) : FFmt := match t.kind with | .f f => f | _ => bf16

/-- A lane type for an illegal T field; its syllable is never executed (R450). -/
def laneOr (t : BitVec 3) : LaneTy := (laneTy t).getD ⟨1, .u⟩

/-- Range of an `n`-bit integer. -/
def intLo (s : Bool) (n : Nat) : Int := if s then -(2 ^ (n - 1) : Nat) else 0
def intHi (s : Bool) (n : Nat) : Int := if s then (2 ^ (n - 1) : Nat) - 1 else (2 ^ n : Nat) - 1

/-- The integer an `n`-bit pattern holds. -/
def intOf (s : Bool) (n x : Nat) : Int := if s then sInt n x else (x % 2 ^ n : Nat)

/-- Saturate into an `n`-bit integer, with whether it saturated. -/
def satInt (s : Bool) (n : Nat) (x : Int) : Nat × Bool :=
  let y := clampI (intLo s n) (intHi s n) x
  (wrapN n y, y != x)

/-! ### Lanes of registers -/

/-- Lane `i` of width `b` bits of a register's value (R424, R426). -/
def laneAt (v b i : Nat) : Nat := v / 2 ^ (b * i) % 2 ^ b

/-- A register's value from its lanes. -/
def joinLanes (b : Nat) : List Nat → Nat
  | [] => 0
  | x :: r => x % 2 ^ b + 2 ^ b * joinLanes b r

/-- A lane of `w` bytes is active under a mask (R427). -/
def active (m : BitVec 384) (w i : Nat) : Bool := m.getLsbD (w * i)

/-- The mask a syllable names: M0 reads as all ones (R427). -/
def maskOf (x : Core) (mk : BitVec 3) : BitVec 384 := if mk = 0 then BitVec.allOnes 384 else x.M mk.toNat

/-- The bytes of the active lanes of a register (R427). -/
def laneBytes (m : BitVec 384) (w : Nat) : BitVec 384 :=
  BitVec.ofNat 384 (joinLanes w ((List.range (384 / w)).map (fun i => if active m w i then 2 ^ w - 1 else 0)))

/-- The bytes of the active lanes of a VA register, whose lanes are twice as wide (R426). -/
def laneBytesVA (m : BitVec 384) (w : Nat) : BitVec 768 :=
  BitVec.ofNat 768 (joinLanes (2 * w) ((List.range (384 / w)).map (fun i => if active m w i then 2 ^ (2 * w) - 1 else 0)))

/-- One register of lane results: its value and whether an active lane saturated. -/
def lanesOut (b w : Nat) (m : BitVec 384) (f : Nat → Nat × Bool) (n : Nat) : Nat × Bool :=
  let rs := (List.range n).map (fun i => if active m w i then f i else (0, false))
  (joinLanes b (rs.map (·.1)), rs.any (·.2))

/-! ### Lane arithmetic -/

/-- An integer lane operation from the values of a and b and, for shifts, the count (R451, R452). -/
abbrev LaneInt := LaneTy → Int → Int → Nat × Bool

def wrapOp (f : Int → Int → Int) : LaneInt := fun t a b => (wrapN t.bits (f a b), false)
def satOp (f : Int → Int → Int) : LaneInt := fun t a b => satInt t.signed t.bits (f a b)
def bitOp (f : Nat → Nat → Nat) : LaneInt := fun t a b => (f (wrapN t.bits a) (wrapN t.bits b), false)

def laneShl : LaneInt := fun t a b =>
  let n := wrapN t.bits b
  (if n < t.bits then wrapN t.bits a * 2 ^ n % 2 ^ t.bits else 0, false)
def laneShr : LaneInt := fun t a b =>
  let n := wrapN t.bits b
  (if n < t.bits then wrapN t.bits a / 2 ^ n else 0, false)
def laneSar : LaneInt := fun t a b =>
  let n := min (wrapN t.bits b) t.bits
  (wrapN t.bits (sInt t.bits (wrapN t.bits a) / (2 ^ n : Nat)), false)
def laneMulh : LaneInt := fun t a b => (wrapN t.bits (a * b / (2 ^ t.bits : Nat)), false)
def laneAvg : LaneInt := fun t a b => (wrapN t.bits ((a + b + 1) / 2), false)

/-- Narrow an accumulator lane or an exact sum to an integer lane type (R458). -/
def narrowTo (s : Bool) (n : Nat) (v : Int) (sh : Nat) : Nat × Bool :=
  satInt s n ((if sh = 0 then v else v + (2 ^ (sh - 1) : Nat)) / (2 ^ sh : Nat))

/-- VFMIN and VFMAX (R447): one NaN gives the other operand. -/
def fminmax (mx : Bool) (f : FFmt) (a b : Nat) : Nat :=
  match f.decode a, f.decode b with
  | .nan, .nan => f.nan
  | .nan, _ => b
  | _, .nan => a
  | x, y =>
    match x.cmp y with
    | 0 => if a == b then a else if Config.zeroPick a b then b else a
    | r => if (r < 0) != mx then a else b

/-- Convert a lane between types of equal width (R461). -/
def convLane (from_ to_ : LaneTy) (x : Nat) : Nat × Bool :=
  match from_.kind, to_.kind with
  | .f f, .f g => g.encode (f.decode x)
  | .f f, _ =>
    let r := (f.decode x).toInt (intLo to_.signed to_.bits) (intHi to_.signed to_.bits)
    (wrapN to_.bits r.1, r.2)
  | _, .f g =>
    let v := intOf from_.signed from_.bits x
    g.round (decide (v < 0)) v.natAbs 0
  | _, _ => satInt to_.signed to_.bits (intOf from_.signed from_.bits x)

/-! ### Shared bodies -/

/-- Registers of a group field, and whether it is legal and starts at its base (R297, R425, R448). -/
def groupLen (g : BitVec 2) : Nat := 2 ^ g.toNat
def groupOk (g : BitVec 2) (r : BitVec 5) : Bool := g != 3 && r.toNat % groupLen g == 0

/-- The read of a mask register (R468). -/
def maskRead (mk : BitVec 3) : List Eff := if mk = 0 then [] else [.par 1 mk.toNat]

/-- The registers of a group, for the waits of R431. -/
def vTouch (r : BitVec 5) (n : Nat) : List (Nat × Nat) := (List.range n).map (fun i => (cV, r.toNat + i))

/-- A register-to-register lane syllable (R429, R431, R446): `f` gives the lane of register `i` of the group. -/
def laneBody (x : Core) (ok : Bool) (t w : Nat) (vd : BitVec 5) (n : Nat) (mk : BitVec 3) (reads : List (BitVec 5 × Nat))
    (sat : Bool) (f : Nat → Nat → Nat × Bool) : Body :=
  let m := maskOf x mk
  let outs := (List.range n).map (fun i => lanesOut (8 * w) w m (f i) (384 / w))
  let mb := laneBytes m w
  { ok := ok && decide (t ≠ 7)
    effs := maskRead mk ++ reads.flatMap (fun r => (List.range r.2).map (fun i => Eff.par 0 (r.1.toNat + i)))
      ++ (List.range n).map (fun i => Eff.wv (vd.toNat + i) mb (BitVec.ofNat 3072 (nth (0, false) outs i).1))
      ++ (if outs.any (·.2) then [.sat] else [])
    beats := 2 * n
    touch := vTouch vd n ++ reads.flatMap (fun r => vTouch r.1 r.2) ++ (if mk = 0 then [] else [(cM, mk.toNat)])
      ++ (if sat then [(cFL, 0)] else [])
    late := vTouch vd n ++ (if sat then [(cFL, 0)] else []) }

/-- An integer ALU syllable of majors 0x20 and 0x21 (R451 to R453). `one` takes a alone; `shift` limits the immediate. -/
def vAluBody (sat one signedOnly shift : Bool) (f : LaneInt) (o : VAlu) (x : Core) : Body :=
  match o with
  | .reg o =>
    let t := laneOr o.t
    let ok := t.isInt && o.x == 0 && groupOk o.g o.vd && groupOk o.g o.va && (if one then o.vb == 0 else groupOk o.g o.vb)
      && (!signedOnly || t.signed)
    laneBody x ok o.t.toNat t.w o.vd (groupLen o.g) o.mask
      ((o.va, groupLen o.g) :: (if one then [] else [(o.vb, groupLen o.g)])) sat (fun r i =>
        f t (intOf t.signed t.bits (laneAt (x.V (o.va.toNat + r)).toNat t.bits i))
            (intOf t.signed t.bits (laneAt (x.V (o.vb.toNat + r)).toNat t.bits i)))
  | .imm o =>
    let t := laneOr o.t
    let i : Int := if t = ⟨1, .u⟩ ∨ t = ⟨2, .u⟩ then o.imm.toNat else o.imm.toInt
    let fits := if shift then decide (o.imm.toNat ≤ 31) else decide (intLo t.signed t.bits ≤ i) && decide (i ≤ intHi t.signed t.bits)
    laneBody x (t.isInt && fits && !one) o.t.toNat t.w o.vd 1 o.mask [(o.va, 1)] sat (fun _ l =>
      f t (intOf t.signed t.bits (laneAt (x.V o.va.toNat).toNat t.bits l)) i)

/-- A float ALU syllable (R454). -/
def vFloatBody (sat one : Bool) (f : FFmt → Nat → Nat → Nat × Bool) (o : VrOp) (x : Core) : Body :=
  let t := laneOr o.t
  let n := groupLen o.g
  let ok := !t.isInt && o.x == 0 && groupOk o.g o.vd && groupOk o.g o.va && (if one then o.vb == 0 else groupOk o.g o.vb)
  laneBody x ok o.t.toNat t.w o.vd n o.mask ((o.va, n) :: (if one then [] else [(o.vb, n)])) sat (fun r i =>
    f t.fmt (laneAt (x.V (o.va.toNat + r)).toNat t.bits i) (laneAt (x.V (o.vb.toNat + r)).toNat t.bits i))

/-- A float arithmetic lane (R446, R447): exact, then rounded once. -/
def vFloatOp (g : Fv → Fv → Fv) (f : FFmt) (a b : Nat) : Nat × Bool := f.encode (g (f.decode a) (f.decode b))

/-- A compare syllable (R455): `si` compares integers, `fl` float orders where the float types allow it. -/
def vCmpBody (unsigned : Bool) (p : Int → Bool) (fl : Bool) (onNan : Bool) (o : VrOp) (x : Core) : Body :=
  let t := laneOr o.t
  let m := maskOf x o.mask
  let a := (x.V o.va.toNat).toNat
  let b := (x.V o.vb.toNat).toNat
  let lane (i : Nat) : Bool :=
    let u := laneAt a t.bits i
    let v := laneAt b t.bits i
    match t.kind with
    | .f f => match f.decode u, f.decode v with
      | .nan, _ | _, .nan => onNan
      | y, z => p (y.cmp z)
    | _ => p ((intOf (!unsigned) t.bits u) - (intOf (!unsigned) t.bits v))
  let res := joinLanes t.w ((List.range t.lanes).map (fun i => if lane i then 2 ^ t.w - 1 else 0))
  { ok := decide (o.t ≠ 7) && (t.isInt || fl) && fld o.vd 4 3 == 0 && o.g == 0 && o.x == 0
    effs := maskRead o.mask ++ [.par 0 o.va.toNat, .par 0 o.vb.toNat,
      .wm (fld o.vd 2 0) (laneBytes m t.w) (BitVec.ofNat 384 res)]
    beats := 2
    touch := vTouch o.va 1 ++ vTouch o.vb 1 ++ [(cM, fld o.vd 2 0), (cM, o.mask.toNat)]
    late := [(cM, fld o.vd 2 0)] }

/-- A mask syllable (R456); `one` takes MA alone. -/
def vMaskBody (one : Bool) (f : BitVec 384 → BitVec 384 → BitVec 384) (o : VkOp) (x : Core) : Body :=
  { ok := !one || o.mb == 0
    effs := maskRead o.ma ++ (if one then [] else maskRead o.mb)
      ++ [.wm o.md.toNat (BitVec.allOnes 384) (f (maskOf x o.ma) (maskOf x o.mb))]
    beats := 1
    touch := [(cM, o.md.toNat), (cM, o.ma.toNat), (cM, o.mb.toNat)]
    late := [(cM, o.md.toNat)] }

/-- A field names a VA register (R450, R457). -/
def isVA (r : BitVec 5) : Bool := fld r 4 2 == 0

/-- A syllable that writes a VA register lane by lane (R457, R459). -/
def vaBody (ok : Bool) (t : LaneTy) (vd : BitVec 5) (mk : BitVec 3) (act : BitVec 384) (reads : List (BitVec 5))
    (self sat : Bool) (f : Nat → Nat × Bool) : Body :=
  let out := lanesOut (2 * t.bits) t.w act f t.lanes
  { ok := ok && isVA vd
    effs := maskRead mk ++ reads.map (fun r => Eff.par 0 r.toNat) ++ (if self then [.par 2 vd.toNat] else [])
      ++ [.wva vd.toNat (laneBytesVA act t.w) (BitVec.ofNat 6144 out.1)] ++ (if out.2 then [.sat] else [])
    beats := 2
    touch := [(cVA, vd.toNat), (cM, mk.toNat)] ++ reads.flatMap (fun r => vTouch r 1) ++ (if sat then [(cFL, 0)] else [])
    late := [(cVA, vd.toNat)] ++ (if sat then [(cFL, 0)] else []) }

/-- The accumulator lane `i` of a VA register. -/
def accLane (x : Core) (t : LaneTy) (va : BitVec 5) (i : Nat) : Nat := laneAt (x.VA va.toNat).toNat (2 * t.bits) i

/-- Add an exact value to an accumulator lane: saturating for integers, one rounding for floats (R457, R459). -/
def accAddInt (t : LaneTy) (acc : Nat) (v : Int) : Nat × Bool :=
  satInt t.signed (2 * t.bits) (intOf t.signed (2 * t.bits) acc + v)
def accAddF (acc : Nat) (v : Fv) : Nat × Bool := fp32.encode ((fp32.decode acc).add v)

/-- Lane values. -/
def laneI (x : Core) (t : LaneTy) (r : BitVec 5) (i : Nat) : Int := intOf t.signed t.bits (laneAt (x.V r.toNat).toNat t.bits i)
def laneF (x : Core) (t : LaneTy) (r : BitVec 5) (i : Nat) : Fv := t.fmt.decode (laneAt (x.V r.toNat).toNat t.bits i)

/-- VMAC and VMSU (R457). -/
def vMacBody (sub : Bool) (o : VrOp) (x : Core) : Body :=
  let t := laneOr o.t
  vaBody (decide (o.t ≠ 7) && o.g == 0 && o.x == 0) t o.vd o.mask (maskOf x o.mask) [o.va, o.vb] true true (fun i =>
    let acc := accLane x t o.vd i
    if t.isInt then
      let p := laneI x t o.va i * laneI x t o.vb i
      accAddInt t acc (if sub then -p else p)
    else
      let p := (laneF x t o.va i).mul (laneF x t o.vb i)
      accAddF acc (if sub then p.neg else p))

/-- The mask of complex pairs: lanes 2j and 2j + 1 are active when lane 2j is (R459). -/
def pairMask (m : BitVec 384) (w : Nat) : BitVec 384 :=
  BitVec.ofNat 384 (joinLanes w ((List.range (384 / w)).map (fun i => if active m w (i / 2 * 2) then 2 ^ w - 1 else 0)))

/-- The real or imaginary part of a complex product, for lane `i` (R459). -/
def cplxI (x : Core) (t : LaneTy) (o : VrOp) (i : Nat) : Int :=
  let e := i / 2 * 2
  let bi := if bit o.x 8 then -(laneI x t o.vb (e + 1)) else laneI x t o.vb (e + 1)
  if i % 2 = 0 then laneI x t o.va e * laneI x t o.vb e - laneI x t o.va (e + 1) * bi
  else laneI x t o.va e * bi + laneI x t o.va (e + 1) * laneI x t o.vb e

def cplxF (x : Core) (t : LaneTy) (o : VrOp) (i : Nat) : Fv :=
  let e := i / 2 * 2
  let bi := if bit o.x 8 then (laneF x t o.vb (e + 1)).neg else laneF x t o.vb (e + 1)
  if i % 2 = 0 then ((laneF x t o.va e).mul (laneF x t o.vb e)).add ((laneF x t o.va (e + 1)).mul bi).neg
  else ((laneF x t o.va e).mul bi).add ((laneF x t o.va (e + 1)).mul (laneF x t o.vb e))

/-- Complex types: S16, S24, BF16, FP16 (R457). -/
def cplxOk (o : VrOp) : Bool := decide (3 ≤ o.t.toNat) && decide (o.t ≠ 7) && o.g == 0 && fld o.x 7 6 == 0

/-- A byte permutation into one register (R460): 4 or 2 beats, U8 lanes. -/
def byteBody (x : Core) (ok : Bool) (vd : BitVec 5) (mk : BitVec 3) (act : BitVec 384) (reads : List (BitVec 5 × Nat)) (beats : Nat)
    (f : Nat → Nat) : Body :=
  let b := laneBody x ok 0 1 vd 1 mk reads false (fun _ i => (f i, false))
  let out := joinLanes 8 ((List.range 384).map f)
  { b with beats := beats
           effs := b.effs.map (fun e => match e with | .wv r _ _ => .wv r act (BitVec.ofNat 3072 out) | e => e) }

/-! ### Integer ALU -/

/-- VADD (R451). -/
def execVadd (h : Syl) (o : VAlu) (s : State) : Host.Outcome State Fault Refusal :=
  s.up fun c => c.syl h [.v] false (vAluBody false false false false (wrapOp (fun a b => a + b)) o)

/-- VSUB (R451). -/
def execVsub (h : Syl) (o : VAlu) (s : State) : Host.Outcome State Fault Refusal :=
  s.up fun c => c.syl h [.v] false (vAluBody false false false false (wrapOp (fun a b => a - b)) o)

/-- VADDS (R451). -/
def execVadds (h : Syl) (o : VAlu) (s : State) : Host.Outcome State Fault Refusal :=
  s.up fun c => c.syl h [.v] false (vAluBody true false false false (satOp (fun a b => a + b)) o)

/-- VSUBS (R451). -/
def execVsubs (h : Syl) (o : VAlu) (s : State) : Host.Outcome State Fault Refusal :=
  s.up fun c => c.syl h [.v] false (vAluBody true false false false (satOp (fun a b => a - b)) o)

/-- VAND (R451). -/
def execVand (h : Syl) (o : VAlu) (s : State) : Host.Outcome State Fault Refusal :=
  s.up fun c => c.syl h [.v] false (vAluBody false false false false (bitOp (· &&& ·)) o)

/-- VOR (R451). -/
def execVor (h : Syl) (o : VAlu) (s : State) : Host.Outcome State Fault Refusal :=
  s.up fun c => c.syl h [.v] false (vAluBody false false false false (bitOp (· ||| ·)) o)

/-- VXOR (R451). -/
def execVxor (h : Syl) (o : VAlu) (s : State) : Host.Outcome State Fault Refusal :=
  s.up fun c => c.syl h [.v] false (vAluBody false false false false (bitOp (· ^^^ ·)) o)

/-- VANDN (R451). -/
def execVandn (h : Syl) (o : VAlu) (s : State) : Host.Outcome State Fault Refusal :=
  s.up fun c => c.syl h [.v] false (vAluBody false false false false (bitOp (fun a b => a ^^^ (a &&& b))) o)

/-- VSHL (R451, R452). -/
def execVshl (h : Syl) (o : VAlu) (s : State) : Host.Outcome State Fault Refusal :=
  s.up fun c => c.syl h [.v] false (vAluBody false false false true laneShl o)

/-- VSHR (R451, R452). -/
def execVshr (h : Syl) (o : VAlu) (s : State) : Host.Outcome State Fault Refusal :=
  s.up fun c => c.syl h [.v] false (vAluBody false false false true laneShr o)

/-- VSAR (R451, R452). -/
def execVsar (h : Syl) (o : VAlu) (s : State) : Host.Outcome State Fault Refusal :=
  s.up fun c => c.syl h [.v] false (vAluBody false false false true laneSar o)

/-- VMIN (R451). -/
def execVmin (h : Syl) (o : VAlu) (s : State) : Host.Outcome State Fault Refusal :=
  s.up fun c => c.syl h [.v] false (vAluBody false false false false (wrapOp min) o)

/-- VMAX (R451). -/
def execVmax (h : Syl) (o : VAlu) (s : State) : Host.Outcome State Fault Refusal :=
  s.up fun c => c.syl h [.v] false (vAluBody false false false false (wrapOp max) o)

/-- VMUL (R451). -/
def execVmul (h : Syl) (o : VAlu) (s : State) : Host.Outcome State Fault Refusal :=
  s.up fun c => c.syl h [.v] false (vAluBody false false false false (wrapOp (fun a b => a * b)) o)

/-- VMULH (R451). -/
def execVmulh (h : Syl) (o : VAlu) (s : State) : Host.Outcome State Fault Refusal :=
  s.up fun c => c.syl h [.v] false (vAluBody false false false false laneMulh o)

/-- VABSD (R451). -/
def execVabsd (h : Syl) (o : VAlu) (s : State) : Host.Outcome State Fault Refusal :=
  s.up fun c => c.syl h [.v] false (vAluBody true false false false (satOp (fun a b => (a - b).natAbs)) o)

/-- VAVG (R451). -/
def execVavg (h : Syl) (o : VAlu) (s : State) : Host.Outcome State Fault Refusal :=
  s.up fun c => c.syl h [.v] false (vAluBody false false false false laneAvg o)

/-- VABS (R451): signed types only; no immediate form. -/
def execVabs (h : Syl) (o : VAlu) (s : State) : Host.Outcome State Fault Refusal :=
  s.up fun c => c.syl h [.v] false (vAluBody true true true false (satOp (fun a _ => a.natAbs)) o)

/-- VNEG (R451): signed types only; no immediate form. -/
def execVneg (h : Syl) (o : VAlu) (s : State) : Host.Outcome State Fault Refusal :=
  s.up fun c => c.syl h [.v] false (vAluBody true true true false (satOp (fun a _ => -a)) o)

/-- VMOV (R451). -/
def execVmov (h : Syl) (o : VrOp) (s : State) : Host.Outcome State Fault Refusal :=
  s.up fun c => c.syl h [.v] false (vAluBody false true false false (wrapOp (fun a _ => a)) (.reg o))

/-- VMOVI (R451): VA must be 0. -/
def execVmovi (h : Syl) (o : ViOp) (s : State) : Host.Outcome State Fault Refusal :=
  s.up fun c => c.syl h [.v] false fun x =>
    let b := vAluBody false false false false (wrapOp (fun _ b => b)) (.imm o) x
    { b with ok := b.ok && o.va == 0, touch := vTouch o.vd 1 ++ [(cM, o.mask.toNat)]
             effs := b.effs.filter (fun e => match e with | .par 0 _ => false | _ => true) }

/-! ### Float ALU -/

/-- VFADD (R454). -/
def execVfadd (h : Syl) (o : VrOp) (s : State) : Host.Outcome State Fault Refusal :=
  s.up fun c => c.syl h [.v] false (vFloatBody true false (vFloatOp Fv.add) o)

/-- VFSUB (R454). -/
def execVfsub (h : Syl) (o : VrOp) (s : State) : Host.Outcome State Fault Refusal :=
  s.up fun c => c.syl h [.v] false (vFloatBody true false (vFloatOp (fun a b => a.add b.neg)) o)

/-- VFMUL (R454). -/
def execVfmul (h : Syl) (o : VrOp) (s : State) : Host.Outcome State Fault Refusal :=
  s.up fun c => c.syl h [.v] false (vFloatBody true false (vFloatOp Fv.mul) o)

/-- VFMIN (R447, R454). -/
def execVfmin (h : Syl) (o : VrOp) (s : State) : Host.Outcome State Fault Refusal :=
  s.up fun c => c.syl h [.v] false (vFloatBody false false (fun f a b => (fminmax false f a b, false)) o)

/-- VFMAX (R447, R454). -/
def execVfmax (h : Syl) (o : VrOp) (s : State) : Host.Outcome State Fault Refusal :=
  s.up fun c => c.syl h [.v] false (vFloatBody false false (fun f a b => (fminmax true f a b, false)) o)

/-- VFABS (R454): the sign bit cleared. -/
def execVfabs (h : Syl) (o : VrOp) (s : State) : Host.Outcome State Fault Refusal :=
  s.up fun c => c.syl h [.v] false (vFloatBody false true (fun f a _ => (a % f.signBit, false)) o)

/-- VFNEG (R454): the sign bit inverted. -/
def execVfneg (h : Syl) (o : VrOp) (s : State) : Host.Outcome State Fault Refusal :=
  s.up fun c => c.syl h [.v] false (vFloatBody false true (fun f a _ => ((a + f.signBit) % (2 * f.signBit), false)) o)

/-! ### Compare and mask logic -/

/-- VCMPEQ (R455). -/
def execVcmpeq (h : Syl) (o : VrOp) (s : State) : Host.Outcome State Fault Refusal :=
  s.up fun c => c.syl h [.v] false (vCmpBody false (fun d => d == 0) true false o)

/-- VCMPNE (R447, R455): true for a NaN. -/
def execVcmpne (h : Syl) (o : VrOp) (s : State) : Host.Outcome State Fault Refusal :=
  s.up fun c => c.syl h [.v] false (vCmpBody false (fun d => d != 0) true true o)

/-- VCMPLT (R455). -/
def execVcmplt (h : Syl) (o : VrOp) (s : State) : Host.Outcome State Fault Refusal :=
  s.up fun c => c.syl h [.v] false (vCmpBody false (fun d => decide (d < 0)) true false o)

/-- VCMPLE (R455). -/
def execVcmple (h : Syl) (o : VrOp) (s : State) : Host.Outcome State Fault Refusal :=
  s.up fun c => c.syl h [.v] false (vCmpBody false (fun d => decide (d ≤ 0)) true false o)

/-- VCMPGT (R455). -/
def execVcmpgt (h : Syl) (o : VrOp) (s : State) : Host.Outcome State Fault Refusal :=
  s.up fun c => c.syl h [.v] false (vCmpBody false (fun d => decide (0 < d)) true false o)

/-- VCMPGE (R455). -/
def execVcmpge (h : Syl) (o : VrOp) (s : State) : Host.Outcome State Fault Refusal :=
  s.up fun c => c.syl h [.v] false (vCmpBody false (fun d => decide (0 ≤ d)) true false o)

/-- VCMPLTU (R455). -/
def execVcmpltu (h : Syl) (o : VrOp) (s : State) : Host.Outcome State Fault Refusal :=
  s.up fun c => c.syl h [.v] false (vCmpBody true (fun d => decide (d < 0)) false false o)

/-- VCMPLEU (R455). -/
def execVcmpleu (h : Syl) (o : VrOp) (s : State) : Host.Outcome State Fault Refusal :=
  s.up fun c => c.syl h [.v] false (vCmpBody true (fun d => decide (d ≤ 0)) false false o)

/-- VCMPGTU (R455). -/
def execVcmpgtu (h : Syl) (o : VrOp) (s : State) : Host.Outcome State Fault Refusal :=
  s.up fun c => c.syl h [.v] false (vCmpBody true (fun d => decide (0 < d)) false false o)

/-- VCMPGEU (R455). -/
def execVcmpgeu (h : Syl) (o : VrOp) (s : State) : Host.Outcome State Fault Refusal :=
  s.up fun c => c.syl h [.v] false (vCmpBody true (fun d => decide (0 ≤ d)) false false o)

/-- MAND (R456). -/
def execMand (h : Syl) (o : VkOp) (s : State) : Host.Outcome State Fault Refusal :=
  s.up fun c => c.syl h [.v] false (vMaskBody false (· &&& ·) o)

/-- MOR (R456). -/
def execMor (h : Syl) (o : VkOp) (s : State) : Host.Outcome State Fault Refusal :=
  s.up fun c => c.syl h [.v] false (vMaskBody false (· ||| ·) o)

/-- MXOR (R456). -/
def execMxor (h : Syl) (o : VkOp) (s : State) : Host.Outcome State Fault Refusal :=
  s.up fun c => c.syl h [.v] false (vMaskBody false (· ^^^ ·) o)

/-- MANDN (R456). -/
def execMandn (h : Syl) (o : VkOp) (s : State) : Host.Outcome State Fault Refusal :=
  s.up fun c => c.syl h [.v] false (vMaskBody false (fun a b => a &&& ~~~ b) o)

/-- MNOT (R456). -/
def execMnot (h : Syl) (o : VkOp) (s : State) : Host.Outcome State Fault Refusal :=
  s.up fun c => c.syl h [.v] false (vMaskBody true (fun a _ => ~~~ a) o)

/-- MMOV (R456). -/
def execMmov (h : Syl) (o : VkOp) (s : State) : Host.Outcome State Fault Refusal :=
  s.up fun c => c.syl h [.v] false (vMaskBody true (fun a _ => a) o)

/-! ### Accumulators and complex multiply -/

/-- VMAC (R457). -/
def execVmac (h : Syl) (o : VrOp) (s : State) : Host.Outcome State Fault Refusal :=
  s.up fun c => c.syl h [.v] false (vMacBody false o)

/-- VMSU (R457). -/
def execVmsu (h : Syl) (o : VrOp) (s : State) : Host.Outcome State Fault Refusal :=
  s.up fun c => c.syl h [.v] false (vMacBody true o)

/-- VACLR (R457). -/
def execVaclr (h : Syl) (o : VrOp) (s : State) : Host.Outcome State Fault Refusal :=
  s.up fun c => c.syl h [.v] false fun x =>
    vaBody (decide (o.t ≠ 7) && o.g == 0 && o.x == 0 && o.va == 0 && o.vb == 0) (laneOr o.t) o.vd o.mask (maskOf x o.mask) [] false
      false (fun _ => (0, false))

/-- VARD (R457, R458). -/
def execVard (h : Syl) (o : VrOp) (s : State) : Host.Outcome State Fault Refusal :=
  s.up fun c => c.syl h [.v] false fun x =>
    let t := laneOr o.t
    let sh := fld o.x 5 0
    let ok := o.g == 0 && isVA o.va && o.vb == 0 && fld o.x 8 6 == 0 && (if t.isInt then decide (sh < 2 * t.bits) else sh == 0)
    let b := laneBody x ok o.t.toNat t.w o.vd 1 o.mask [] true (fun _ i =>
      let acc := accLane x t o.va i
      if t.isInt then narrowTo t.signed t.bits (intOf t.signed (2 * t.bits) acc) sh else t.fmt.encode (fp32.decode acc))
    { b with effs := .par 2 o.va.toNat :: b.effs, touch := (cVA, o.va.toNat) :: b.touch }

/-- VAMOV (R457). -/
def execVamov (h : Syl) (o : VrOp) (s : State) : Host.Outcome State Fault Refusal :=
  s.up fun c => c.syl h [.v] false fun x =>
    { ok := isVA o.vd && groupOk 1 o.va && o.vb == 0 && o.mask == 0 && o.t == 0 && o.g == 0 && o.x == 0
      effs := [.par 0 o.va.toNat, .par 0 (o.va.toNat + 1), .wva o.vd.toNat (BitVec.allOnes 768)
        (BitVec.ofNat 6144 ((x.V o.va.toNat).toNat + 2 ^ 3072 * (x.V (o.va.toNat + 1)).toNat))]
      beats := 4, touch := (cVA, o.vd.toNat) :: vTouch o.va 2, late := [(cVA, o.vd.toNat)] }

/-- VAST (R457). -/
def execVast (h : Syl) (o : VrOp) (s : State) : Host.Outcome State Fault Refusal :=
  s.up fun c => c.syl h [.v] false fun x =>
    let v := (x.VA o.va.toNat).toNat
    { ok := isVA o.va && groupOk 1 o.vd && o.vb == 0 && o.mask == 0 && o.t == 0 && o.g == 0 && o.x == 0
      effs := [.par 2 o.va.toNat, .wv o.vd.toNat (BitVec.allOnes 384) (BitVec.ofNat 3072 v),
        .wv (o.vd.toNat + 1) (BitVec.allOnes 384) (BitVec.ofNat 3072 (v / 2 ^ 3072))]
      beats := 4, touch := (cVA, o.va.toNat) :: vTouch o.vd 2, late := vTouch o.vd 2 }

/-- VCMUL (R459): the mask of a pair is that of its real lane. -/
def execVcmul (h : Syl) (o : VrOp) (s : State) : Host.Outcome State Fault Refusal :=
  s.up fun c => c.syl h [.v] false fun x =>
    let t := laneOr o.t
    let sh := fld o.x 5 0
    let ok := cplxOk o && (if t.isInt then decide (sh < 2 * t.bits) else sh == 0)
    let act := pairMask (maskOf x o.mask) t.w
    let out := lanesOut t.bits t.w act (fun i =>
      if t.isInt then narrowTo t.signed t.bits (cplxI x t o i) sh else t.fmt.encode (cplxF x t o i)) t.lanes
    { ok := ok
      effs := maskRead o.mask ++ [.par 0 o.va.toNat, .par 0 o.vb.toNat,
        .wv o.vd.toNat (laneBytes act t.w) (BitVec.ofNat 3072 out.1)] ++ (if out.2 then [.sat] else [])
      beats := 2, touch := [(cM, o.mask.toNat), (cFL, 0)] ++ vTouch o.vd 1 ++ vTouch o.va 1 ++ vTouch o.vb 1
      late := (cFL, 0) :: vTouch o.vd 1 }

/-- VCMAC (R459). -/
def execVcmac (h : Syl) (o : VrOp) (s : State) : Host.Outcome State Fault Refusal :=
  s.up fun c => c.syl h [.v] false fun x =>
    let t := laneOr o.t
    vaBody (cplxOk o && fld o.x 5 0 == 0) t o.vd o.mask (pairMask (maskOf x o.mask) t.w) [o.va, o.vb] true true (fun i =>
      let acc := accLane x t o.vd i
      if t.isInt then accAddInt t acc (cplxI x t o i) else accAddF acc (cplxF x t o i))

/-! ### Permute, select and convert -/

/-- VBPERM (R460). -/
def execVbperm (h : Syl) (o : VrOp) (s : State) : Host.Outcome State Fault Refusal :=
  s.up fun c => c.syl h [.v] false fun x =>
    let b := (x.V o.vb.toNat).toNat + 2 ^ 3072 * (x.V (o.vb.toNat + 1)).toNat
    byteBody x (o.t == 0 && o.g == 0 && o.x == 0 && groupOk 1 o.vb) o.vd o.mask (maskOf x o.mask) [(o.va, 1), (o.vb, 2)] 4 (fun i =>
      let k := laneAt b 16 i % 512
      if k < 384 then laneAt (x.V o.va.toNat).toNat 8 k else 0)

/-- VSLD (R460): n is X. -/
def execVsld (h : Syl) (o : VrOp) (s : State) : Host.Outcome State Fault Refusal :=
  s.up fun c => c.syl h [.v] false fun x =>
    let v := (x.V o.va.toNat).toNat + 2 ^ 3072 * (x.V o.vb.toNat).toNat
    byteBody x (o.t == 0 && o.g == 0 && decide (o.x.toNat ≤ 383)) o.vd o.mask (maskOf x o.mask) [(o.va, 1), (o.vb, 1)] 2 (fun i =>
      laneAt v 8 (o.x.toNat + i))

/-- VSEL (R460, R462): the mask selects, and no lane is inactive. -/
def execVsel (h : Syl) (o : VrOp) (s : State) : Host.Outcome State Fault Refusal :=
  s.up fun c => c.syl h [.v] false fun x =>
    byteBody x (o.t == 0 && o.g == 0 && o.x == 0) o.vd o.mask (BitVec.allOnes 384) [(o.va, 1), (o.vb, 1)] 2 (fun i =>
      laneAt (x.V (if (maskOf x o.mask).getLsbD i then o.va else o.vb).toNat).toNat 8 i)

/-- VWIDEN (R460): active lanes are those of the destination. -/
def execVwiden (h : Syl) (o : VrOp) (s : State) : Host.Outcome State Fault Refusal :=
  s.up fun c => c.syl h [.v] false fun x =>
    let b := laneBody x (decide (o.t.toNat ≤ 1) && o.g == 0 && o.x == 0 && o.vb == 0 && groupOk 1 o.vd) o.t.toNat 2 o.vd 2 o.mask
      [(o.va, 1)] false (fun r i => (wrapN 16 (intOf (o.t == 1) 8 (laneAt (x.V o.va.toNat).toNat 8 (192 * r + i))), false))
    { b with beats := 4 }

/-- VNARROW (R460). -/
def execVnarrow (h : Syl) (o : VrOp) (s : State) : Host.Outcome State Fault Refusal :=
  s.up fun c => c.syl h [.v] false fun x =>
    let sh := fld o.x 5 0
    let b := laneBody x (decide (o.t.toNat ≤ 1) && o.g == 0 && fld o.x 8 6 == 0 && decide (sh < 16) && o.vb == 0 && groupOk 1 o.va)
      o.t.toNat 1 o.vd 1 o.mask [(o.va, 2)] true (fun _ i =>
        narrowTo (o.t == 1) 8 (sInt 16 (laneAt (x.V (o.va.toNat + i / 192)).toNat 16 (i % 192))) sh)
    { b with beats := 4 }

/-- VCVT (R461): the destination type is X[8:6]. -/
def execVcvt (h : Syl) (o : VrOp) (s : State) : Host.Outcome State Fault Refusal :=
  s.up fun c => c.syl h [.v] false fun x =>
    let t := laneOr o.t
    let d := laneOr (BitVec.ofNat 3 (fld o.x 8 6))
    let n := groupLen o.g
    let ok := fld o.x 8 6 != 7 && fld o.x 5 0 == 0 && o.vb == 0 && t.w == d.w && t.w != 3 && groupOk o.g o.vd && groupOk o.g o.va
    laneBody x ok o.t.toNat t.w o.vd n o.mask [(o.va, n)] true (fun r i =>
      convLane t d (laneAt (x.V (o.va.toNat + r)).toNat t.bits i))

/-! ### Scalar exchange -/

/-- VBCST (R463). -/
def execVbcst (h : Syl) (o : VxOp) (s : State) : Host.Outcome State Fault Refusal :=
  s.up fun c => c.syl h [.v] false fun x =>
    let t := laneOr o.t
    let b := laneBody x (o.lane == 0) o.t.toNat t.w o.rd 1 o.mask [] false (fun _ _ => ((x.D o.rs.toNat).toNat % 2 ^ t.bits, false))
    { b with touch := (cD, o.rs.toNat) :: b.touch }

/-- VINS (R463). -/
def execVins (h : Syl) (o : VxOp) (s : State) : Host.Outcome State Fault Refusal :=
  s.up fun c => c.syl h [.v] false fun x =>
    let t := laneOr o.t
    let l := o.lane.toNat
    { ok := decide (o.t ≠ 7) && decide (l < t.lanes)
      effs := maskRead o.mask ++ (if active (maskOf x o.mask) t.w l then
        [.wv o.rd.toNat (BitVec.ofNat 384 ((2 ^ t.w - 1) * 2 ^ (t.w * l)))
          (BitVec.ofNat 3072 ((x.D o.rs.toNat).toNat % 2 ^ t.bits * 2 ^ (t.bits * l)))] else [])
      beats := 1, touch := (cD, o.rs.toNat) :: (cM, o.mask.toNat) :: vTouch o.rd 1, late := vTouch o.rd 1 }

/-- VEXT (R463). -/
def execVext (h : Syl) (o : VxOp) (s : State) : Host.Outcome State Fault Refusal :=
  s.up fun c => c.syl h [.v] false fun x =>
    let t := laneOr o.t
    { ok := decide (o.t ≠ 7) && decide (o.lane.toNat < t.lanes) && o.mask == 0
      effs := [.par 0 o.rs.toNat, .wd o.rd.toNat (BitVec.ofInt 24 (intOf t.signed t.bits (laneAt (x.V o.rs.toNat).toNat t.bits o.lane.toNat)))]
      beats := 1, touch := (cD, o.rd.toNat) :: vTouch o.rs 1, late := [(cD, o.rd.toNat)] }

/-- MPOP (R463). -/
def execMpop (h : Syl) (o : VxOp) (s : State) : Host.Outcome State Fault Refusal :=
  s.up fun c => c.syl h [.v] false fun x =>
    let m := maskOf x (BitVec.ofNat 3 (fld o.rs 2 0))
    { ok := fld o.rs 4 3 == 0 && o.mask == 0 && o.t == 0 && o.lane == 0
      effs := maskRead (BitVec.ofNat 3 (fld o.rs 2 0))
        ++ [.wd o.rd.toNat (BitVec.ofNat 24 ((List.range 384).foldl (fun n i => n + b2n (m.getLsbD i)) 0))]
      beats := 1, touch := [(cD, o.rd.toNat), (cM, fld o.rs 2 0)], late := [(cD, o.rd.toNat)] }

/-! ### Vector load and store -/

/-- Address and post-update of a vector memory syllable (R464). -/
def vAddr (x : Core) (o : VsOp) : Bool × BitVec 48 × Option (BitVec 48) :=
  let a := x.A o.ab.toNat
  let i : BitVec 48 := o.imm.signExtend 48
  match o.md.toNat with
  | 0 => (o.dm == 0, a + i, none)
  | 1 => (o.dm == 0, a, some (a + i))
  | 2 => (o.imm == 0, a, some (a + sext48 (x.D o.dm.toNat)))
  | _ => (false, 0, none)

/-- A vector load or store (R428, R429, R435, R464). -/
def vMemBody (c : Chip) (k : Nat) (store : Bool) (o : VsOp) (x : Core) : Body :=
  let (ok, a, upd) := vAddr x o
  let n := groupLen o.g
  let m := maskOf x o.mask
  { ok := ok && groupOk o.g o.vr
    bad := if within a.toNat (384 * n) (spBase k) c.spSize then none else some (0x0B03, a)
    effs := maskRead o.mask ++ (match upd with | some v => [.wa o.ab.toNat v] | none => [])
      ++ (if store then (List.range n).map (fun i => Eff.par 0 (o.vr.toNat + i)) ++ [.vstore o.vr.toNat n m a.toNat]
          else [.vload o.vr.toNat n m a.toNat])
    beats := Chip.vCost k a (384 * n), vmem := true
    touch := (cM, o.mask.toNat) :: (cD, o.dm.toNat) :: vTouch o.vr n }

/-- VLD (R464). -/
def execVld (h : Syl) (o : VsOp) (s : State) : Host.Outcome State Fault Refusal :=
  s.up fun c => c.syl h [.v] false (vMemBody c h.core.val false o)

/-- VST (R464). -/
def execVst (h : Syl) (o : VsOp) (s : State) : Host.Outcome State Fault Refusal :=
  s.up fun c => c.syl h [.v] false (vMemBody c h.core.val true o)

/-! ### Power gating -/

namespace Chip

/-- The idle timer of a powered unit reaches IDLE times 64 and the datapath is gated (R441, R444). -/
def vGate (c : Chip) (t : Nat) : Chip :=
  let n := c.rf (R.TILE.VCTL t) 9 0
  if c.vOn t && n != 0 && !c.rb (R.TILE.CCTL t) 1 && !c.napped t && c.surv t then
    (c.waitTo (cyc ((c.core t).idleAt + 64 * n))).wf (R.TILE.VSTAT t) 1 0 2
  else c

/-- A write to VCTL (R443, R465, R466). -/
def vctlWrite (c : Chip) (who : Who) (t : Nat) (val : BitVec 32) : Chip :=
  let c := c.putReg who (R.TILE.VCTL t) (val &&& 0xFFFEFFFF)
  if bit val 16 then c.vWake t c.cycle false else c

/-- A wake completes (R443). -/
def vWakeEnd (c : Chip) (t : Nat) : Chip :=
  match (c.core t).wakeEnd with
  | some e => (c.waitTo (cyc e)).vWakeDone t e
  | none => c

end Chip

/-- VECTOR_IDLE_GATE (R441). -/
def execVectorIdleGate (t : TileId) (s : State) : Host.Outcome State Fault Refusal := s.up fun c => c.vGate t.val

/-- VECTOR_WAKE_DONE (R443). -/
def execVectorWakeDone (t : TileId) (s : State) : Host.Outcome State Fault Refusal := s.up fun c => c.vWakeEnd t.val

end Sys2Proof.Machine
end

