-- ==== Sys2Proof/Machine/RegBus.lean ====
section
/-!
DEFINITION. The register window as its requesters use it: one write and one read of a register with every effect its page gives
them, and the commands that are register writes and reads.
-/
namespace Sys2Proof.Machine
namespace Chip

/-! ### Core control registers -/

/-- A write of a core's registers is refused: CSTAT.CFGERR (R356). -/
def coreCfgErr (c : Chip) (k : Nat) : Chip := c.modCore k fun x => { x with cfgErr := true }

/-- A tile core is STOPPED (R355). -/
def coreStopped (c : Chip) (t : Nat) : Bool := (c.core t).run == .stopped

/-- A stopped core starts at ENTRY (R349). -/
def coreStart (c : Chip) (t : Nat) : Chip :=
  let entry := BitVec.ofNat 48 (c.r64 (R.TILE.ENTRY_LO t))
  (c.modCore t fun x => { x with
    run := .run, pc := entry, priv := true, ie := false, exl := false, nxl := false, target := none, takenBr := false, loopDue := false
    bundle := [], held := false, inString := false, strData := [], stopReq := false, bpPast := false, ready := max x.ready c.cycle }).syncCore t

/-- A write of CCTL (R349, R356, R443, R444). -/
def cctlWrite (c : Chip) (who : Who) (t : Nat) (val : BitVec 32) : Chip :=
  let key := R.TILE.CCTL t
  let was := c.r key
  let st := (c.core t).run
  if bit val 0 && c.rf (R.TILE.PFSTAT t) 1 0 != 2 then (c.noteRsv key val).coreCfgErr t
  else
    let c := c.putReg who key val
    let c := if bit val 1 then c.vWake t c.cycle false
      else if bit was 1 then c.modCore t fun x => { x with idleAt := c.cycle } else c
    if bit val 0 then (if st = .stopped then c.coreStart t else c)
    else if st = .stopped ∨ st = .filling then c
    else (c.modCore t fun x => { x with stopReq := true }).syncCore t

/-- A write of PLOAD (R348, R356). -/
def ploadWrite (c : Chip) (t : Nat) (val : BitVec 32) : Chip :=
  let c := c.noteRsv (R.TILE.PLOAD t) val
  if !c.coreStopped t then c.coreCfgErr t
  else if bit val 0 then (c.w (R.TILE.PFSTAT t) 1).modCore t fun x => { x with run := .filling }
  else c

/-- The fill ends in failure with a code (R348). -/
def fillFail (c : Chip) (t code : Nat) : Chip := c.w (R.TILE.PFSTAT t) (BitVec.ofNat 32 (3 + code * 2 ^ 16))

/-- The program fill of a tile core completes: its region is read, or the fill has failed (R347, R348). -/
def programFilled (c : Chip) (t : Nat) : Chip :=
  if (c.core t).run ≠ .filling then c
  else
    let c := c.modCore t fun x => { x with run := .stopped }
    let k := c.owner t
    let n := c.rf (R.TILE.PLEN t) 12 0 * 24
    let a := c.ownWindow (c.r64 (R.TILE.PBASE_LO t) % 2 ^ 48) n
    let g := c.regionOf a n
    let ok := match g with | .hbm => true | .sp u => u == t | .ccMem => k == 0 | _ => false
    if !ok then c.fillFail t 0x0521
    else match c.fence k g a n false with
      | some code => c.fillFail t code
      | none =>
        match c.unavailable g a n with
        | some _ => c.fillFail t 0x0525
        | none =>
          let (c, bs, bad) := c.eccRead g a n k
          match bad with
          | some _ => c.fillFail t (match g with | .hbm => 0x0222 | .ccMem => 0x0272 | _ => 0x0212)
          | none => ({ c with pstore := (c.pstore.zero (t * 0x20000) 0x18000).putBytes (t * 0x20000) bs }).w (R.TILE.PFSTAT t) 2

/-- A write of a TILE page. -/
def tileWrite (c : Chip) (who : Who) (t key : Nat) (val : BitVec 32) : Chip :=
  let ofs := key % 0x1000
  match ofs with
  | 0x040 => c.cctlWrite who t val
  | 0x044 => let c := c.noteRsv key val; if bit val 15 then c.modCore t fun x => { x with cfgErr := false } else c
  | 0x058 => c.putIf who key val (c.coreStopped t && 1 ≤ fld val 12 0 && fld val 12 0 ≤ 4096) (fun c => c.coreCfgErr t)
  | 0x05C => c.ploadWrite t val
  | 0x080 => c.vctlWrite who t val
  | 0x0B0 => c.wsvcWrite who t key val
  | 0x200 => c.spbmapWrite who t val
  | 0x204 => c.sphashWrite who t val
  | 0x208 => c.spprotWrite who t val
  | 0x20C => c.spscrbWrite who t val
  | 0x220 => c.ractWrite who t val
  | _ => if !c.hasCust && 0x0C0 ≤ ofs && ofs < 0x0CC then (if val = 0 then c else c.rsvWrite (slotTile t)) else c.putReg who key val

/-- A write of the CC page. -/
def ccWrite (c : Chip) (who : Who) (key : Nat) (val : BitVec 32) : Chip :=
  let ofs := key % 0x1000
  match ofs with
  | 0x044 => let c := c.noteRsv key val; if bit val 15 then c.modCore 16 fun x => { x with cfgErr := false } else c
  | 0x0B0 => c.wsvcWrite who 16 key val
  | 0x0C0 => c.cpctlWrite who val
  | _ => if !c.hasCust && 0x0C0 ≤ ofs && ofs < 0x0CC then (if val = 0 then c else c.rsvWrite 4) else c.putReg who key val

/-- A write of a DRN page. -/
def drnRegWrite (c : Chip) (who : Who) (t key : Nat) (val : BitVec 32) : Chip :=
  let ofs := key % 0x1000
  match ofs with
  | 0x048 => c.pcmtWrite t val
  | 0x04C => c.dpaWrite who t val
  | 0x050 => c.dpdWrite t val
  | _ => if 0x080 ≤ ofs ∧ ofs < 0x0A0 then c.atWrite who t key (ofs % 8 == 4) val else c.putReg who key val

/-- A write of the ING page. -/
def ingWrite (c : Chip) (who : Who) (key : Nat) (val : BitVec 32) : Chip :=
  let ofs := key % 0x1000
  if ofs = 0x048 then c.itrigWrite val
  else if ofs = 0x04C then c.hbtoWrite who val
  else if 0x100 ≤ ofs ∧ ofs < 0x200 ∧ ofs % 16 = 0 then c.lnkctlWrite who ((ofs - 0x100) / 16) val
  else if 0x200 ≤ ofs ∧ ofs < 0x300 ∧ ofs % 32 = 0 then c.gcfgWrite who ((ofs - 0x200) / 32) val
  else if ofs = 0x600 then c.mbctlWrite who val
  else if 0x700 ≤ ofs ∧ ofs < 0x800 then c.mbcmdWrite who key val
  else c.putReg who key val

/-- A write of an HBM page. -/
def hbmWrite (c : Chip) (who : Who) (s key : Nat) (val : BitVec 32) : Chip :=
  match key % 0x1000 with
  | 0x040 => c.hbmCtlWrite who s val
  | 0x050 => c.hbmLimits who key val 1 168
  | 0x054 => c.hbmLimits who key val 85 100
  | _ => c.putReg who key val

/-! ### One write -/

/-- A write of a header register (R103 to R125). -/
def hdrWrite (c : Chip) (who : Who) (slot key : Nat) (val : BitVec 32) : Chip :=
  match key % 0x1000 with
  | 0x010 => c.pctlWrite who slot val
  | 0x01C =>
    let was := c.irqActive slot
    let c := c.putReg who key val
    if !was && c.irqActive slot then c.irqToHost slot else c
  | 0x020 => c.pirqfWrite slot val
  | 0x024 => c.perrcWrite slot val
  | _ => c.putReg who key val

/-- A write of a block-specific 32-bit register. -/
def blockWrite (c : Chip) (who : Who) (k : PageKind) (i key : Nat) (val : BitVec 32) : Chip :=
  let ofs := key % 0x1000
  match k with
  | .dev => if key = R.DEV.BLSEL then c.blselWrite who val else c.putReg who key val
  | .aon => c.aonWrite who key val
  | .swd => c.swdWrite who key val
  | .fuse => c.putReg who key val
  | .cc => c.ccWrite who key val
  | .wdt => c.wdtWrite who key val
  | .err => if key = R.ERR.ECTL then c.ectlWrite who val else c.putReg who key val
  | .trc => c.trcWrite who key val
  | .dbg => c.dbgWrite who key val
  | .pwm => if key = R.PWM.TNAP then c.tnapWrite who val else if key = R.PWM.DEEPC then c.deepcWrite val else c.putReg who key val
  | .elg => c.elgWrite who key val
  | .tick => if key = R.TICK.TDONE then c.tdoneWrite who val else c.tickWrite who key val
  | .kmap => if key = R.KMAP.CMT then c.cmtWrite who val
      else if 0x810 ≤ ofs ∧ ofs < 0x830 then c.kctlWrite who ((ofs - 0x810) / 4) val else c.putReg who key val
  | .tbl => if key = R.TBL.ARWR then c.arwrWrite val else c.putReg who key val
  | .lrn => if key = R.LRN.LCTL then c.lctlWrite who val else c.lrnRegWrite who key val
  | .lst => if 0x040 ≤ ofs ∧ ofs < 0x0C0 ∧ ofs % 16 = 0 then c.lrcfgWrite who ((ofs - 0x040) / 16) val
      else if 0x040 ≤ ofs ∧ ofs < 0x0C0 ∧ ofs % 16 = 4 then c.lrpitWrite who ((ofs - 0x040) / 16) val else c.putReg who key val
  | .ing => c.ingWrite who key val
  | .pci => c.pciWrite who key val
  | .eth => c.ethWrite who i key val
  | .vxl => if i ≠ 0 ∧ 0x080 ≤ ofs then c.putReg who key val else c.vxlWrite who i key val
  | .hbm => c.hbmWrite who i key val
  | .dma => if ofs = 0x050 then c.fcfgWrite who i val
      else if 0x100 ≤ ofs ∧ ofs < 0x140 then c.lmWrite who i ((ofs - 0x100) / 16) key val else c.putReg who key val
  | .tile => c.tileWrite who i key val
  | .ary => c.putReg who key val
  | .drn => c.drnRegWrite who i key val

/-- Both halves of a 64-bit register take effect in one cycle, by its _HI word (R100). -/
def put64 (c : Chip) (who : Who) (key : Nat) (lo hi : BitVec 32) : Chip :=
  match rowOf (key - 4) with
  | some r => (c.w (key - 4) (r.apply (c.rwlOk who (key / 0x1000)) (c.r (key - 4)) lo)).putReg who key hi
  | none => c.putReg who key hi

/-- A write of a 64-bit register, by its _HI word, with the checks of its page (R356, R701, R828). -/
def write64 (c : Chip) (who : Who) (k : PageKind) (i key : Nat) (lo hi : BitVec 32) : Chip :=
  let ofs := key % 0x1000
  if k = .tile ∧ (ofs = 0x04C ∨ ofs = 0x054) then
    if !c.coreStopped i || (ofs == 0x054 && lo.toNat % 64 != 0) then (c.noteRsv key hi).coreCfgErr i else c.put64 who key lo hi
  else if k = .eth ∧ i = 0 ∧ ofs = 0x0AC then c.gstepWrite who key lo hi
  else if k = .lrn then
    if c.lstate == 1 || 3 ≤ c.lstate then c.lrnRegWrite who key hi else c.put64 who key lo hi
  else c.put64 who key lo hi

/-- A word of a 64-bit register that can be written (R100). -/
def pairWord (k : PageKind) (i ofs : Nat) : Option Bool :=
  let can (o : Nat) : Bool := match rowAt k i o with | some r => (r.rw ||| r.rwl ||| r.wo) != 0 | none => false
  match loHi k i ofs with
  | some false => if can ofs then some false else none
  | some true => if can (ofs - 4) then some true else none
  | none => none

/-- A write that its page accepts takes effect (R99, R100, R114, R115). -/
def regPut (c : Chip) (who : Who) (key : Nat) (val : BitVec 32) : Chip :=
  let slot := key / 0x1000
  match pageOf slot with
  | none => c
  | some (k, i) =>
    let lo := c.heldLo who key
    let c := c.dropHalves who slot
    if key % 0x1000 = 0x03C then c.pkeyWrite who k slot val
    else
      let c := c.dropUnlock slot
      match pairWord k i (key % 0x1000) with
      | some false => { c with bus := { c.bus with held := (slot, who, key + 4, val) :: c.bus.held } }
      | some true => match lo with
        | some l => c.write64 who k i key l val
        | none => c
      | none => if key % 0x1000 < 0x040 then c.hdrWrite who slot key val else c.blockWrite who k i key val

/-- A service register that only its own core writes (R924). -/
def svcRefused (who : Who) (key : Nat) : Bool :=
  if key = R.SWD.SSVC then who != .cc
  else if key = R.CC.WSVC then who != .cc
  else if 0x100 ≤ key / 0x1000 ∧ key / 0x1000 < 0x110 ∧ key % 0x1000 = 0x0B0 then
    (match who with | .tile t => t.val != key / 0x1000 - 0x100 | _ => true)
  else false

/-- The refusal of a register write: that of every access, and that of a service register by another requester (R140, R924). -/
def writeRefusal (c : Chip) (who : Who) (key : Nat) (wide : Bool) : Option (Nat × Nat) :=
  match c.regRefusal who key true wide with
  | some (s, 0x0525) => if svcRefused who key then some (key / 0x1000, 0x0521) else some (s, 0x0525)
  | some x => some x
  | none => if svcRefused who key then some (key / 0x1000, 0x0521) else none

/-- One register write by any requester: refused with a code, or performed with code 0 (R96 to R101, R127, R135, R140). `wide` says that it
is not 32 bits wide. -/
def regWrite (c : Chip) (who : Who) (key : Nat) (val : BitVec 32) (wide : Bool) : Nat × Chip :=
  match c.writeRefusal who key wide with
  | some (slot, code) => (code, c.report slot code .refusal (c.req who) (regAddr key))
  | none => (0, (c.regPut who key val).settle)

/-! ### One read -/

/-- The head entry of the ERR log leaves it (R985). -/
def errPop (c : Chip) : Chip :=
  let l := c.err.log.drop 1
  ({ c with err := { c.err with log := l } }).wf R.ERR.ESTAT 6 0 l.length

/-- The head entry of a tile's slip log leaves it (R239). -/
def slipPop (c : Chip) (t : Nat) : Chip :=
  let l := (c.scratch t).slips.drop 1
  (c.modSp t fun s => { s with slips := l }).wf (R.TILE.SLOGN t) 4 0 l.length

/-- The RC fields of a register are cleared by the read (R14): a field with a reset value of its own returns to it. -/
def readClear (c : Chip) (key : Nat) : Chip :=
  match rowOf key with
  | some r =>
    let m := BitVec.ofNat 32 r.rc
    if r.rc = 0 then c else c.w key ((c.r key &&& ~~~ m) ||| (resetOf key &&& m))
  | none => c

/-- The value of a register of a page that is on, and the device after the read's own effects (R574, R836, R960, R970, R985, R239). -/
def readWord (c : Chip) (k : PageKind) (i key : Nat) : BitVec 32 × Chip :=
  if key = R.AON.EVD0 then c.evRead
  else if key = R.DBG.RDAT then c.rdatRead
  else if k = .drn ∧ key % 0x1000 = 0x050 then c.dpdRead i
  else
    let v := c.peek key
    let c := if key = R.ERR.LD0 then c.errPop
      else if k = .tile ∧ key % 0x1000 = 0x344 then c.slipPop i
      else if k = .eth ∧ (key % 0x1000 = 0x084 ∨ key % 0x1000 = 0x08C) then c.stampTaken i (key % 0x1000)
      else c
    (v, c.readClear key)

/-- A read that its page accepts: the value, and the device afterwards (R99, R137, R138). -/
def regGet (c : Chip) (who : Who) (key : Nat) : BitVec 32 × Chip :=
  let slot := key / 0x1000
  match pageOf slot with
  | none => (0, c)
  | some (k, i) =>
    if c.slotEmpty slot then (0, c)
    else
      let cap := (c.bus.cap.find? (fun x => x.1 == slot && x.2.1 == who && x.2.2.1 == key)).map (·.2.2.2)
      let c := c.dropHalves who slot
      let up := c.peek (key + 4)
      let (v, c) := if c.pagePwr slot ≠ 0 ∨ (c.inSrst slot ∧ 0x040 ≤ key % 0x1000) then (c.peek key, c) else c.readWord k i key
      match loHi k i (key % 0x1000) with
      | some false => (v, { c with bus := { c.bus with cap := (slot, who, key + 4, up) :: c.bus.cap } })
      | some true => (cap.getD v, c)
      | none => (v, c)

/-- One register read by any requester: refused with a code and 0, or performed with code 0 (R96 to R101, R127, R136, R140). -/
def regRead (c : Chip) (who : Who) (key : Nat) (wide : Bool) : Nat × BitVec 32 × Chip :=
  match c.regRefusal who key false wide with
  | some (slot, code) => (code, 0, c.report slot code .refusal (c.req who) (regAddr key))
  | none => (0, c.regGet who key)

/-- A read whose value, or refusal, is returned to its requester (R136). -/
def regReadOut (c : Chip) (who : Who) (key : Nat) : Chip :=
  match c.regRead who key false with
  | (0, v, c) => c.emit (.read who key v)
  | (code, _, c) => c.deliver who code (regAddr key)

/-- A write whose refusal is returned to its requester (R136). -/
def regWriteOut (c : Chip) (who : Who) (key : Nat) (val : BitVec 32) : Chip :=
  match c.regWrite who key val false with
  | (0, c) => c
  | (code, c) => c.deliver who code (regAddr key)

end Chip

/-! ### Commands -/

/-- Page kind and instance, and offset in the page, of the register that a command names. -/
def pageAt (k : PageKind) (key lo hi : Nat) : Bool :=
  (match pageOf (key / 0x1000) with | some (x, _) => x == k | none => false) && decide (lo ≤ key % 0x1000) && decide (key % 0x1000 < hi)

/-- The requester can send: one of the core domain while that is out of reset and not in DEEP, SMBus and the debug access port whenever the
always-on domain is (R131, R139, R880). A virtual function that is not enabled answers with Completer Abort (R804). -/
def Chip.sentBy (c : Chip) (who : Who) (f : Chip → Chip) : Chip :=
  let core := c.coreUp && c.pwr.deep != 2
  match who with
  | .smbus | .dap => if c.pwr.porDone then f c else c
  | .vf n => if !core then c else if c.rb (R.PCI.VFMAP1 + 4 * n.val) 8 then f c else c.emit (.pcie true [])
  | _ => if core then f c else c

/-- A register write that a row of the table names by its register and value; a write of another register is not that command and has no
effect. -/
def writeCmd (w : RegWr) (mine : Nat → Bool) (s : State) : Host.Outcome State Fault Refusal :=
  s.on fun c => if mine w.ofs.toNat then c.sentBy w.who fun c => c.regWriteOut w.who w.ofs.toNat w.val else c

/-- A register read that a row of the table names. -/
def readCmd (w : RegRd) (mine : Nat → Bool) (s : State) : Host.Outcome State Fault Refusal :=
  s.on fun c => if mine w.ofs.toNat then c.sentBy w.who fun c => c.regReadOut w.who w.ofs.toNat else c

/-- An offset of any page. -/
def hdrAt (key ofs : Nat) : Bool := key % 0x1000 == ofs

/-- REGISTER_WRITE (R101): any register, with the effects that its page gives the write. -/
def execRegisterWrite (w : RegWr) (s : State) : Host.Outcome State Fault Refusal :=
  writeCmd w (fun _ => true) s

/-- SOFT_RESET (R107). -/
def execSoftReset (w : RegWr) (s : State) : Host.Outcome State Fault Refusal :=
  writeCmd w (fun k => hdrAt k 0x010 && bit w.val 1) s

/-- BLOCK_FREEZE (R108). -/
def execBlockFreeze (w : RegWr) (s : State) : Host.Outcome State Fault Refusal :=
  writeCmd w (fun k => hdrAt k 0x010 && bit w.val 2) s

/-- BLOCK_UNFREEZE (R108). -/
def execBlockUnfreeze (w : RegWr) (s : State) : Host.Outcome State Fault Refusal :=
  writeCmd w (fun k => hdrAt k 0x010 && !bit w.val 2) s

/-- PERRC_CLEAR (R110). -/
def execPerrcClear (w : RegWr) (s : State) : Host.Outcome State Fault Refusal :=
  writeCmd w (fun k => hdrAt k 0x024 && bit w.val 31) s

/-- PIRQF_WRITE (R124). -/
def execPirqfWrite (w : RegWr) (s : State) : Host.Outcome State Fault Refusal :=
  writeCmd w (fun k => hdrAt k 0x020) s

/-- PKEY_UNLOCK (R114, R115): one word of the sequence. -/
def execPkeyUnlock (w : RegWr) (s : State) : Host.Outcome State Fault Refusal :=
  writeCmd w (fun k => hdrAt k 0x03C && (w.val == 0x554E4C4B || w.val == 0xAAB1B3B4)) s

/-- PKEY_LOCK (R116). -/
def execPkeyLock (w : RegWr) (s : State) : Host.Outcome State Fault Refusal :=
  writeCmd w (fun k => hdrAt k 0x03C && w.val == 0x4C4F434B) s

/-- REG64_LO_WRITE (R100). -/
def execReg64LoWrite (w : RegWr) (s : State) : Host.Outcome State Fault Refusal :=
  writeCmd w (fun k => (match pageOf (k / 0x1000) with | some (p, i) => Chip.pairWord p i (k % 0x1000) == some false | none => false)) s

/-- REG64_HI_WRITE (R100). -/
def execReg64HiWrite (w : RegWr) (s : State) : Host.Outcome State Fault Refusal :=
  writeCmd w (fun k => (match pageOf (k / 0x1000) with | some (p, i) => Chip.pairWord p i (k % 0x1000) == some true | none => false)) s

/-- TICK_CONFIG_WRITE (R81). -/
def execTickConfigWrite (w : RegWr) (s : State) : Host.Outcome State Fault Refusal :=
  writeCmd w (fun k => [R.TICK.TCFG, R.TICK.LDIV, R.TICK.NDIV, R.TICK.FDLY, R.TICK.ZCPR].contains k) s

/-- KSLOT_WRITE (R66). -/
def execKslotWrite (w : RegWr) (s : State) : Host.Outcome State Fault Refusal :=
  writeCmd w (fun k => pageAt .tick k 0x0A0 0x0C0) s

/-- TDONE_WRITE (R63, R129). -/
def execTdoneWrite (w : RegWr) (s : State) : Host.Outcome State Fault Refusal :=
  writeCmd w (fun k => k == R.TICK.TDONE) s

/-- KMAP_COMMIT_NOW (R167). -/
def execKmapCommitNow (w : RegWr) (s : State) : Host.Outcome State Fault Refusal :=
  writeCmd w (fun k => k == R.KMAP.CMT && bit w.val 0 && !bit w.val 1) s

/-- KMAP_COMMIT_ARM (R167). -/
def execKmapCommitArm (w : RegWr) (s : State) : Host.Outcome State Fault Refusal :=
  writeCmd w (fun k => k == R.KMAP.CMT && bit w.val 0 && bit w.val 1) s

/-- KENNEL_FREEZE (R174). -/
def execKennelFreeze (w : RegWr) (s : State) : Host.Outcome State Fault Refusal :=
  writeCmd w (fun k => pageAt .kmap k 0x810 0x830 && bit w.val 0) s

/-- KENNEL_RESUME (R174). -/
def execKennelResume (w : RegWr) (s : State) : Host.Outcome State Fault Refusal :=
  writeCmd w (fun k => pageAt .kmap k 0x810 0x830 && !bit w.val 0) s

/-- KENNEL_RESET (R175). -/
def execKennelReset (w : RegWr) (s : State) : Host.Outcome State Fault Refusal :=
  writeCmd w (fun k => pageAt .kmap k 0x810 0x830 && bit w.val 1) s

/-- ALLOC_ENTRY_WRITE (R161). -/
def execAllocEntryWrite (w : RegWr) (s : State) : Host.Outcome State Fault Refusal :=
  writeCmd w (fun k => k == R.TBL.ARWR && bit w.val 31) s

/-- SCRATCHPAD_MAP_WRITE (R234). -/
def execScratchpadMapWrite (w : RegWr) (s : State) : Host.Outcome State Fault Refusal :=
  writeCmd w (fun k => pageAt .tile k 0x200 0x210) s

/-- RING_ACTIVATE (R228). -/
def execRingActivate (w : RegWr) (s : State) : Host.Outcome State Fault Refusal :=
  writeCmd w (fun k => pageAt .tile k 0x220 0x224 && bit w.val 24) s

/-- RING_DEACTIVATE (R231). -/
def execRingDeactivate (w : RegWr) (s : State) : Host.Outcome State Fault Refusal :=
  writeCmd w (fun k => pageAt .tile k 0x220 0x224 && bit w.val 25) s

/-- HBM_SELF_REFRESH (R283, R1070). -/
def execHbmSelfRefresh (w : RegWr) (s : State) : Host.Outcome State Fault Refusal :=
  writeCmd w (fun k => pageAt .hbm k 0x040 0x044) s

/-- TRAINING_INVALIDATE (R290). -/
def execTrainingInvalidate (w : RegWr) (s : State) : Host.Outcome State Fault Refusal :=
  writeCmd w (fun k => k == R.HBM.CTL 0 && bit w.val 5) s

/-- VIEW_RING_CONFIG_WRITE (R279). -/
def execViewRingConfigWrite (w : RegWr) (s : State) : Host.Outcome State Fault Refusal :=
  writeCmd w (fun k => pageAt .lst k 0x040 0x0C0 && (k % 16 == 0 || k % 16 == 4)) s

/-- SOFTWARE_INTERRUPT (R355). -/
def execSoftwareInterrupt (w : RegWr) (s : State) : Host.Outcome State Fault Refusal :=
  writeCmd w (fun k => pageAt .tile k 0x078 0x07C || k == R.CC.SWI) s

/-- PROGRAM_FILL (R348). -/
def execProgramFill (w : RegWr) (s : State) : Host.Outcome State Fault Refusal :=
  writeCmd w (fun k => pageAt .tile k 0x05C 0x060 && bit w.val 0) s

/-- CORE_RUN (R349). -/
def execCoreRun (w : RegWr) (s : State) : Host.Outcome State Fault Refusal :=
  writeCmd w (fun k => pageAt .tile k 0x040 0x044 && bit w.val 0) s

/-- CORE_STOP (R349). -/
def execCoreStop (w : RegWr) (s : State) : Host.Outcome State Fault Refusal :=
  writeCmd w (fun k => pageAt .tile k 0x040 0x044 && !bit w.val 0) s

/-- VECTOR_WAKE (R443): a write of VCTL.WAKE or of CCTL.SCHED; a syllable that meets the unit gated starts its wake in its own meaning. -/
def execVectorWake (w : RegWr) (s : State) : Host.Outcome State Fault Refusal :=
  writeCmd w (fun k => (pageAt .tile k 0x080 0x084 && bit w.val 16) || (pageAt .tile k 0x040 0x044 && bit w.val 1)) s

/-- PCMT_NOW (R572). -/
def execPcmtNow (w : RegWr) (s : State) : Host.Outcome State Fault Refusal :=
  writeCmd w (fun k => pageAt .drn k 0x048 0x04C && bit w.val 1) s

/-- PCMT_ARM (R572). -/
def execPcmtArm (w : RegWr) (s : State) : Host.Outcome State Fault Refusal :=
  writeCmd w (fun k => pageAt .drn k 0x048 0x04C && bit w.val 0) s

/-- LINE_MOVE_ENABLE (R625). -/
def execLineMoveEnable (w : RegWr) (s : State) : Host.Outcome State Fault Refusal :=
  writeCmd w (fun k => pageAt .dma k 0x100 0x140 && k % 16 == 0 && bit w.val 0) s

/-- LOAD (R697). -/
def execLoadLayer (w : RegWr) (s : State) : Host.Outcome State Fault Refusal :=
  writeCmd w (fun k => k == R.LRN.LCTL && bit w.val 1) s

/-- ERASE (R697). -/
def execErase (w : RegWr) (s : State) : Host.Outcome State Fault Refusal :=
  writeCmd w (fun k => k == R.LRN.LCTL && bit w.val 6) s

/-- IMPORT (R692, R697). -/
def execImportImg (w : RegWr) (s : State) : Host.Outcome State Fault Refusal :=
  writeCmd w (fun k => k == R.LRN.LCTL && bit w.val 5) s

/-- EXPORT (R691, R697). -/
def execExportImg (w : RegWr) (s : State) : Host.Outcome State Fault Refusal :=
  writeCmd w (fun k => k == R.LRN.LCTL && bit w.val 3) s

/-- EPEND (R697). -/
def execEpend (w : RegWr) (s : State) : Host.Outcome State Fault Refusal :=
  writeCmd w (fun k => k == R.LRN.LCTL && bit w.val 2) s

/-- LRN_ENABLE (R697). -/
def execLrnEnable (w : RegWr) (s : State) : Host.Outcome State Fault Refusal :=
  writeCmd w (fun k => k == R.LRN.LCTL && bit w.val 0) s

/-- IMAGE_TRIGGER (R729). -/
def execImageTrigger (w : RegWr) (s : State) : Host.Outcome State Fault Refusal :=
  writeCmd w (fun k => k == R.ING.ITRIG) s

/-- MAILBOX_SEND (R734). -/
def execMailboxSend (w : RegWr) (s : State) : Host.Outcome State Fault Refusal :=
  writeCmd w (fun k => k == R.ING.MBCTL && bit w.val 24) s

/-- LINK_SPEED_WRITE (R735). -/
def execLinkSpeedWrite (w : RegWr) (s : State) : Host.Outcome State Fault Refusal :=
  writeCmd w (fun k => pageAt .ing k 0x100 0x200 && k % 16 == 0) s

/-- GROUP_ENABLE (R736). -/
def execGroupEnable (w : RegWr) (s : State) : Host.Outcome State Fault Refusal :=
  writeCmd w (fun k => pageAt .ing k 0x200 0x300 && k % 32 == 0 && bit w.val 0) s

/-- GROUP_DISABLE (R742). -/
def execGroupDisable (w : RegWr) (s : State) : Host.Outcome State Fault Refusal :=
  writeCmd w (fun k => pageAt .ing k 0x200 0x300 && k % 32 == 0 && !bit w.val 0) s

/-- PORT_ENABLE (R760). -/
def execPortEnable (w : RegWr) (s : State) : Host.Outcome State Fault Refusal :=
  writeCmd w (fun k => pageAt .vxl k 0x040 0x044 && bit w.val 0) s

/-- CASCADE_CONFIG_WRITE (R797, R798). -/
def execCascadeConfigWrite (w : RegWr) (s : State) : Host.Outcome State Fault Refusal :=
  writeCmd w (fun k => k / 0x1000 == 0x018 && pageAt .vxl k 0x080 0x0C4) s

/-- GTIME_STEP (R828). -/
def execGtimeStep (w : RegWr) (s : State) : Host.Outcome State Fault Refusal :=
  writeCmd w (fun k => k == R.ETH.GSTEP_HI 0) s

/-- HOST_RING_ENABLE (R834). -/
def execHostRingEnable (w : RegWr) (s : State) : Host.Outcome State Fault Refusal :=
  writeCmd w (fun k => (pageAt .pci k 0x064 0x084 && bit w.val 8) || (pageAt .pci k 0x100 0x340 && (k % 64 == 0x10 || k % 64 == 0x28) && bit w.val 8) || (pageAt .pci k 0x400 0x500 && (k % 32 == 0x08 || k % 32 == 0x14) && bit w.val 8) || (pageAt .eth k 0x100 0x200 && k % 32 == 0 && bit w.val 0)) s

/-- LEDGER_CONFIG_WRITE (R871). -/
def execLedgerConfigWrite (w : RegWr) (s : State) : Host.Outcome State Fault Refusal :=
  writeCmd w (fun k => pageAt .elg k 0x040 0x180) s

/-- SWRST (R914). -/
def execSwrst (w : RegWr) (s : State) : Host.Outcome State Fault Refusal :=
  writeCmd w (fun k => k == R.AON.SWRST) s

/-- READY_SET (R914). -/
def execReadySet (w : RegWr) (s : State) : Host.Outcome State Fault Refusal :=
  writeCmd w (fun k => k == R.AON.BOOTST && bit w.val 16) s

/-- NAP_REQUEST (R906). -/
def execNapRequest (w : RegWr) (s : State) : Host.Outcome State Fault Refusal :=
  writeCmd w (fun k => k == R.PWM.TNAP && fld w.val 15 0 != 0) s

/-- NAP_EXIT_REQUEST (R904). -/
def execNapExitRequest (w : RegWr) (s : State) : Host.Outcome State Fault Refusal :=
  writeCmd w (fun k => k == R.PWM.TNAP && fld w.val 15 0 != 0xFFFF) s

/-- DEEP_REQUEST (R908). -/
def execDeepRequest (w : RegWr) (s : State) : Host.Outcome State Fault Refusal :=
  writeCmd w (fun k => k == R.PWM.DEEPC && bit w.val 0) s

/-- WDT_SERVICE (R924). -/
def execWdtService (w : RegWr) (s : State) : Host.Outcome State Fault Refusal :=
  writeCmd w (fun k => pageAt .tile k 0x0B0 0x0B4 || k == R.CC.WSVC) s

/-- SWD_SERVICE (R924). -/
def execSwdService (w : RegWr) (s : State) : Host.Outcome State Fault Refusal :=
  writeCmd w (fun k => k == R.SWD.SSVC) s

/-- SWD_ENABLE (R937). -/
def execSwdEnable (w : RegWr) (s : State) : Host.Outcome State Fault Refusal :=
  writeCmd w (fun k => k == R.SWD.SCFG && bit w.val 0) s

/-- WATCHDOG_CONFIG_WRITE (R936, R939). -/
def execWatchdogConfigWrite (w : RegWr) (s : State) : Host.Outcome State Fault Refusal :=
  writeCmd w (fun k => (pageAt .wdt k 0x100 0x210 && (k % 16 == 0 || k % 16 == 4)) || k == R.SWD.SCFG) s

/-- TOKEN_VERIFY (R953). -/
def execTokenVerify (w : RegWr) (s : State) : Host.Outcome State Fault Refusal :=
  writeCmd w (fun k => k == R.DBG.TVFY && bit w.val 0) s

/-- DLOCK (R954). -/
def execDlock (w : RegWr) (s : State) : Host.Outcome State Fault Refusal :=
  writeCmd w (fun k => k == R.DBG.DCTL && bit w.val 0) s

/-- TEST_MODE_WRITE (R955). -/
def execTestModeWrite (w : RegWr) (s : State) : Host.Outcome State Fault Refusal :=
  writeCmd w (fun k => k == R.DBG.DCTL) s

/-- HALT_REQUEST (R956). -/
def execHaltRequest (w : RegWr) (s : State) : Host.Outcome State Fault Refusal :=
  writeCmd w (fun k => k == R.DBG.HREQ) s

/-- HALT_RESUME (R972). -/
def execHaltResume (w : RegWr) (s : State) : Host.Outcome State Fault Refusal :=
  writeCmd w (fun k => k == R.DBG.HRES) s

/-- HALT_STEP (R958). -/
def execHaltStep (w : RegWr) (s : State) : Host.Outcome State Fault Refusal :=
  writeCmd w (fun k => k == R.DBG.HSTEP) s

/-- TRACE_MARK (R962). -/
def execTraceMark (w : RegWr) (s : State) : Host.Outcome State Fault Refusal :=
  writeCmd w (fun k => pageAt .trc k 0x300 0x348) s

/-- TRACE_CONFIG_WRITE (R967). -/
def execTraceConfigWrite (w : RegWr) (s : State) : Host.Outcome State Fault Refusal :=
  writeCmd w (fun k => pageAt .trc k 0x100 0x220 && k % 16 == 0) s

/-- FAULT_CLEAR (R989, R1001). -/
def execFaultClear (w : RegWr) (s : State) : Host.Outcome State Fault Refusal :=
  writeCmd w (fun k => k == R.AON.FCLR && bit w.val 0) s

/-- BEHAVIOUR_LEVEL_WRITE (R1010). -/
def execBehaviourLevelWrite (w : RegWr) (s : State) : Host.Outcome State Fault Refusal :=
  writeCmd w (fun k => k == R.DEV.BLSEL) s

/-- CUSTOMER_PORT_ENABLE (R342, R343). -/
def execCustomerPortEnable (w : RegWr) (s : State) : Host.Outcome State Fault Refusal :=
  writeCmd w (fun k => k == R.CC.CPCTL) s

/-- READ_CLEAR_REGISTER (R14): a read of any register; of an RC register it also clears the RC fields. -/
def execReadClearRegister (w : RegRd) (s : State) : Host.Outcome State Fault Refusal :=
  readCmd w (fun _ => true) s

/-- REG64_LO_READ (R99). -/
def execReg64LoRead (w : RegRd) (s : State) : Host.Outcome State Fault Refusal :=
  readCmd w (fun k => (match pageOf (k / 0x1000) with | some (p, i) => Chip.loHi p i (k % 0x1000) == some false | none => false)) s

/-- SLIP_LOG_READ (R239). -/
def execSlipLogRead (w : RegRd) (s : State) : Host.Outcome State Fault Refusal :=
  readCmd w (fun k => pageAt .tile k 0x344 0x348) s

/-- TIMESTAMP_READ (R836). -/
def execTimestampRead (w : RegRd) (s : State) : Host.Outcome State Fault Refusal :=
  readCmd w (fun k => pageAt .eth k 0x084 0x088 || pageAt .eth k 0x08C 0x090) s

/-- EVENT_RING_READ (R970). -/
def execEventRingRead (w : RegRd) (s : State) : Host.Outcome State Fault Refusal :=
  readCmd w (fun k => k == R.AON.EVD0) s

/-- ERR_LOG_READ (R985). -/
def execErrLogRead (w : RegRd) (s : State) : Host.Outcome State Fault Refusal :=
  readCmd w (fun k => k == R.ERR.LD0) s

/-- DPD_ACCESS (R574, R578). -/
def execDpdAccess (w : RegWr) (read : Bool) (s : State) : Host.Outcome State Fault Refusal :=
  if read then readCmd ⟨w.who, w.ofs⟩ (fun k => pageAt .drn k 0x050 0x054) s else writeCmd w (fun k => pageAt .drn k 0x050 0x054) s

/-- DEBUG_REGISTER_ACCESS (R960). -/
def execDebugRegisterAccess (w : RegWr) (read : Bool) (s : State) : Host.Outcome State Fault Refusal :=
  if read then readCmd ⟨w.who, w.ofs⟩ (fun k => k == R.DBG.RDAT) s else writeCmd w (fun k => k == R.DBG.RDAT) s

/-- PROGRAM_FILL_DONE (R348). -/
def execProgramFillDone (k : CoreId) (s : State) : Host.Outcome State Fault Refusal :=
  s.up fun c => if k.val < 16 then c.programFilled k.val else c

end Sys2Proof.Machine
end

