-- ==== Sys2Proof/Machine/Inbound.lean ====
section
/-!
DEFINITION. Accesses that reach the device from outside, or from a core over a variable-latency path: loads and posted stores, the debug
access port, SMBus, PCIe memory requests, and Vaxlin messages.
-/
namespace Sys2Proof.Machine
namespace Chip

/-! ### Any access -/

/-- What came of an access from outside: performed (0) with its data, refused with a code, or waiting on a tagged ring (`none`). -/
abbrev Reply := Option (Nat × List (BitVec 8)) × Chip

/-- An access by an external path to memory or to a register: the register window takes aligned 32-bit accesses (R96), the rest passes
the fence (R147). A window of another device is not among them. -/
def reach (c : Chip) (who : Who) (a n : Nat) (w : Option (List (BitVec 8))) : Reply :=
  let b := c.ownWindow a n
  match c.regionOf b n with
  | .regs =>
    let key := b - 0x100000000
    match w with
    | some bs => let (code, c) := c.regWrite who key (BitVec.ofNat 32 (natLE bs)) (n != 4); (some (code, []), c)
    | none => let (code, v, c) := c.regRead who key (n != 4); (some (code, if code = 0 then bytesLE 4 v.toNat else zeros n), c)
  | _ =>
    let r := c.access { ag := .ext who } a n w
    match r.res with
    | .ok => (some (0, r.data), r.chip)
    | .refused code | .fault code => (some (code, zeros n), r.chip)
    | .stall .. => (none, r.chip)

/-- No route leads to a device: refused with 0x0604 (R769). -/
def reachNoRoute (c : Chip) (who : Who) (a : Nat) : Chip := (c.report vxlSlot 0x0604 .refusal (c.req who) a).deliver who 0x0604 a

/-! ### A core's accesses on variable-latency paths -/

/-- The requester that a core is (R126). -/
def coreWho (k : Nat) : Who := if k = 16 then .cc else .tile (Fin.ofNat 16 k)

/-- A core's access on a variable-latency path is performed: its code and data, or `none` while it waits on a tagged ring (R306). -/
def coreAccess (c : Chip) (k bundle a n : Nat) (w : Option (List (BitVec 8))) : Reply :=
  let b := c.ownWindow a n
  match c.regionOf b n with
  | .regs => c.reach (coreWho k) a n w
  | _ =>
    let r := c.access ⟨.core k, bundle⟩ a n w
    match r.res with
    | .ok => (some (0, r.data), r.chip)
    | .refused code => (some (code, zeros n), r.chip)
    | .fault _ => (some (0, zeros n), r.chip)
    | .stall .. => (none, r.chip)

/-- The oldest access of a core that waits to be performed: a load (`true`) or a posted store, by its place in the core's list. -/
def coreOldest (c : Chip) (k : Nat) : Option (Bool × Nat) :=
  let x := c.core k
  let l := x.loads.findIdx? (fun l => l.val.isNone && l.tag.isNone)
  let p := x.posted.findIdx? (fun p => p.tag.isNone)
  match l, p with
  | none, none => none
  | some i, none => some (true, i)
  | none, some j => some (false, j)
  | some i, some j => if ((x.loads[i]?).map (·.seq)).getD 0 < ((x.posted[j]?).map (·.seq)).getD 0 then some (true, i) else some (false, j)

/-- The oldest waiting access of a core is performed, in the order issued (R101, R306); a load through another device's window leaves as a
message. `none` while it waits. -/
def corePerform (c : Chip) (k : Nat) : Option Chip :=
  let x := c.core k
  match c.coreOldest k with
  | none => none
  | some (true, i) =>
    match x.loads[i]? with
    | none => none
    | some l =>
      if c.isRemote l.addr l.size then
        match c.vxlSend (remoteMsg l.addr l.size 0 none false) (.core k) with
        | (some t, c) => some (c.modCore k fun x => { x with loads := modNth (fun l => { l with tag := some t }) x.loads i })
        | (none, c) => some ((c.noRoute k l.addr).loadFill k i 0)
      else match c.coreAccess k l.bundle l.addr l.size none with
        | (none, _) => none
        | (some (code, bs), c) =>
          let c := if code = 0 then c else c.coreBusErr k code l.addr l.bundle
          some (c.loadFill k i (if code = 0 then loadVal bs l.size l.sext else 0))
  | some (false, j) =>
    match x.posted[j]? with
    | none => none
    | some p =>
      match c.coreAccess k p.bundle p.addr p.bytes.length (some p.bytes) with
      | (none, _) => none
      | (some (code, _), c) =>
        let c := c.modCore k fun x => { x with posted := x.posted.filter (fun q => q.seq != p.seq || q.tag.isSome) }
        some (if code = 0 then c else c.coreBusErr k code p.addr p.bundle)

/-- Perform the waiting accesses of a core up to and with the first that is a load (`true`) or a posted store. -/
def corePerformTo : Nat → Chip → Nat → Bool → Chip
  | 0, c, _, _ => c
  | n + 1, c, k, load =>
    match c.coreOldest k with
    | none => c
    | some (ld, _) =>
      match c.corePerform k with
      | none => c
      | some c => if ld = load then c else corePerformTo n c k load

/-- A core has an access of a kind that waits to be performed. -/
def coreHas (c : Chip) (k : Nat) (load : Bool) : Bool :=
  if load then (c.core k).loads.any (fun l => l.val.isNone && l.tag.isNone) else (c.core k).posted.any (fun p => p.tag.isNone)

def coreReturn (c : Chip) (k : Nat) (load : Bool) : Chip :=
  if c.coreHas k load then (corePerformTo ((c.core k).loads.length + (c.core k).posted.length) c k load).settle else c

/-! ### The debug access port -/

/-- A refused access of the debug access port: 0 is read, and DERR is set (R136, R950). -/
def dapRefused (c : Chip) (wr : Bool) : Chip :=
  let c := c.wb R.DBG.DSTAT 3 true
  if wr then c else c.setDbg fun d => { d with dapData := 0 }

/-- DAPACC (R949): Capture-DR shifts out the data read last, and Update-DR starts an access. Memory needs the debug right (R954). -/
def dapAccess (c : Chip) (addr : Nat) (wr : Bool) (data : BitVec 32) : Chip :=
  let c := (c.tapIr 0x08).emit (.tdo 0x08 81 c.dbg.dapData.toNat)
  if !c.pwr.porDone then c
  else if c.dbg.dapBusy then c.wb R.DBG.DSTAT 3 true
  else
    let w := if wr then some (bytesLE 4 data.toNat) else none
    let g := c.regionOf (c.ownWindow addr 4) 4
    if (!c.coreUp || c.pwr.deep == 2) && g != .regs then (c.report 6 0x0525 .refusal (c.req .dap) addr).dapRefused wr
    else if g != .regs && g != .hole && !c.unlk then (c.report 6 0x0521 .refusal (c.req .dap) addr).dapRefused wr
    else
      let remote := match g with | .remote _ => true | _ => false
      if remote then
        match c.vxlSend (remoteMsg addr 4 0 w false) (.ext .dap) with
        | (some _, c) => c.setDbg fun d => { d with dapBusy := true }
        | (none, c) => (c.report vxlSlot 0x0604 .refusal (c.req .dap) addr).dapRefused wr
      else match c.reach .dap addr 4 w with
        | (some (0, bs), c) => if wr then c else c.setDbg fun d => { d with dapData := BitVec.ofNat 32 (natLE bs) }
        | (some _, c) => c.dapRefused wr
        | (none, c) => c

/-! ### SMBus -/

/-- An unknown command or a wrong count: NACK, with 0x0521 in SMBST (R1051). -/
def smbusBad (c : Chip) : Chip := (c.wf R.AON.SMBST 15 0 0x0521).emit (.smbus false 0)

/-- A Block Write (R1050, R1051). -/
def smbusWrite (c : Chip) (cmd count : BitVec 8) (ofs : Nat) (data : BitVec 32) (badPec : Bool) : Chip :=
  if !c.pwr.porDone || cmd = 0x11 then c
  else if cmd ≠ 0x10 ∨ count ≠ 7 then c.smbusBad
  else if badPec then (c.wb R.AON.SMBST 16 true).emit (.smbus false 0)
  else match c.regWrite .smbus ofs data false with
    | (0, c) => c.emit (.smbus true data)
    | (code, c) => c.deliver .smbus code (regAddr ofs)

/-- A Block Write–Block Read Process Call (R1050, R1051). -/
def smbusRead (c : Chip) (cmd count : BitVec 8) (ofs : Nat) : Chip :=
  if !c.pwr.porDone || cmd = 0x10 then c
  else if cmd ≠ 0x11 ∨ count ≠ 3 then c.smbusBad
  else match c.regRead .smbus ofs false with
    | (0, v, c) => c.emit (.smbus true v)
    | (code, _, c) => c.deliver .smbus code (regAddr ofs)

/-! ### PCIe memory requests -/

/-- The requester that a PCIe function is (R804). -/
def pcieWho (fn : Nat) : Who := if fn = 0 then .pf else .vf (Fin.ofNat 8 (fn - 1))

/-- The function answers memory requests (R804). -/
def fnEnabled (c : Chip) (fn : Nat) : Bool := fn == 0 || c.rb (R.PCI.VFMAP1 + 4 * (fn - 1)) 8

/-- A word of a function's BAR4 page (R807). -/
def bar4Word (c : Chip) (fn ofs : Nat) : BitVec 32 :=
  if ofs = 0 then BitVec.ofNat 32 (c.pfn fn).rcons
  else if ofs = 4 then BitVec.ofNat 32 (c.pfn fn).cprod
  else if (0x800 ≤ ofs ∧ ofs < 0x800 + 16 * msixCount fn) ∨ (0xC00 ≤ ofs ∧ ofs < 0xC00 + 4 * cdiv (msixCount fn) 32) then c.msixWord fn ofs
  else 0

/-- A write of a word of a function's BAR4 page (R807, R808); a vector that is unmasked while it is pending fires. -/
def bar4Write (c : Chip) (fn ofs : Nat) (v : BitVec 32) : Chip :=
  if ofs = 0 then c.modFn fn fun x => { x with rcons := v.toNat }
  else if ofs = 4 then c.modFn fn fun x => { x with cprod := v.toNat }
  else if 0x800 ≤ ofs ∧ ofs < 0x800 + 16 * msixCount fn then
    let c := c.setMsixWord fn ofs v
    let vec := (ofs - 0x800) / 16
    let pba := 0xC00 + vec / 32 * 4
    if ofs % 16 = 12 ∧ ¬bit v 0 ∧ bit (c.msixWord fn pba) (vec % 32) then
      (c.setMsixWord fn pba (setBit (c.msixWord fn pba) (vec % 32) false)).emit (.msix fn vec)
    else c
  else c

/-- Bytes of the BAR4 page. -/
def bar4Byte (c : Chip) (fn a : Nat) : BitVec 8 := BitVec.ofNat 8 ((c.bar4Word fn (a / 4 * 4)).toNat / 2 ^ (8 * (a % 4)))

/-- A request through BAR4: the words it reaches, with the bytes it does not carry kept. -/
def bar4 (c : Chip) (q : PcieReq) : Chip :=
  let fn := q.fn.val
  let a := q.ofs.toNat
  match q.data with
  | none => c.emit (.pcie false ((List.range q.len.val).map (fun i => c.bar4Byte fn (a + i))))
  | some bs =>
    (List.range ((a + bs.length + 3) / 4 - a / 4)).foldl (fun c i =>
      let o := (a / 4 + i) * 4
      let v := natLE ((List.range 4).map (fun j => if a ≤ o + j ∧ o + j < a + bs.length then nth 0 bs (o + j - a) else c.bar4Byte fn (o + j)))
      c.bar4Write fn o (BitVec.ofNat 32 v)) c

/-- A request for the register window: 32 bits, or 64 bits aligned to 8 as two accesses (R96, R97). -/
def pcieRegs (c : Chip) (who : Who) (key n : Nat) (w : Option (List (BitVec 8))) : Reply :=
  let two := n == 8 && key % 8 == 0
  let one (c : Chip) (i : Nat) : Nat × List (BitVec 8) × Chip :=
    let k := key + 4 * i
    match w with
    | some bs => let (code, c) := c.regWrite who k (BitVec.ofNat 32 (natLE ((bs.drop (4 * i)).take 4))) (n != 4 && !two); (code, [], c)
    | none => let (code, v, c) := c.regRead who k (n != 4 && !two); (code, bytesLE 4 v.toNat, c)
  let (code, bs, c) := one c 0
  if !two then (some (code, bs), c)
  else
    let (code', bs', c) := one c 1
    (some (if code = 0 then code' else code, bs ++ bs'), c)

/-- A request for another device leaves as messages of at most 256 bytes (R762, R765). -/
def pcieRemote : Nat → Chip → Who → Nat → Nat → Option (List (BitVec 8)) → Chip
  | 0, c, _, _, _, _ => c
  | f + 1, c, who, a, n, w =>
    if n = 0 then c
    else
      let m := min n 256
      let c := match c.vxlSend (remoteMsg a m (c.req who).ken (w.map (·.take m)) false) (.ext who) with
        | (some _, c) => c
        | (none, c) => c.reachNoRoute who a
      pcieRemote f c who (a + m) (n - m) (w.map (·.drop m))

/-- A memory request of a PCIe function (R804 to R807). -/
def pcieReq (c : Chip) (q : PcieReq) : Chip :=
  let fn := q.fn.val
  let who := pcieWho fn
  let a := q.ofs.toNat
  let n := match q.data with | some bs => bs.length | none => q.len.val
  let size := match q.bar with | 0 => 0x1000000 | 2 => (if fn = 0 then 0x100000000 else 0x10000000) | 4 => 0x1000 | _ => 0
  if !c.surv 30 || !c.rb R.PCI.PLSTAT 8 || n = 0 || 4096 < n || size < a + n then c
  else if !c.fnEnabled fn then c.emit (.pcie true [])
  else if q.bar = 4 then c.bar4 q
  else
    let base := if fn = 0 then c.r64 R.PCI.APBASE_LO % 2 ^ 48 else c.r64 (R.PCI.VFAP_LO (fn - 1)) % 2 ^ 48
    let addr := if q.bar = 0 then 0x100000000 + a else (base + a) % 2 ^ 48
    let b := c.ownWindow addr n
    let say (r : Reply) : Chip := match r with
      | (some (0, bs), c) => if q.data.isSome then c else c.emit (.pcie false bs)
      | (some (code, _), c) => c.deliver who code addr
      | (none, c) => c
    match c.regionOf b n with
    | .regs => (say (c.pcieRegs who (b - 0x100000000) n q.data)).settle
    | .remote _ => pcieRemote 16 c who addr n q.data
    | _ => (say (c.reach who addr n q.data)).settle

/-! ### Vaxlin messages -/

/-- The oldest message of a virtual channel that waits to be performed at a port, if it has this type. -/
def inboxHead (c : Chip) (p vc mt : Nat) : Option Msg :=
  match (c.vport p).inbox.find? (fun x => x.1 == vc) with
  | some (_, m) => if m.mt = mt then some m else none
  | none => none

/-- The oldest message of a channel leaves its buffers (R763). -/
def inboxDrop (c : Chip) (p vc : Nat) (m : Msg) : Chip :=
  (c.modVxl p fun u => { u with inbox := u.inbox.erase (vc, m) }).freed p vc (1 + m.ndat)

/-- The requester of a message (R126). -/
def msgWho (m : Msg) : Who := .remote (Fin.ofNat 32 m.src) (BitVec.ofNat 3 m.ken)

/-- A request is performed at its destination, once, and answered (R766, R771); `none` while it waits on a tagged ring. A route-addressed
message is performed for K0 of the acting manager only. -/
def msgServe (c : Chip) (m : Msg) : Reply :=
  let who := msgWho m
  let w := if m.mt = 0x01 ∨ m.mt = 0x04 then none else some m.data
  let n := match w with | some bs => bs.length | none => m.len
  let reg := m.mt == 0x04 || m.mt == 0x05
  let g := c.regionOf m.addr n
  let slot := match g with | .regs => (m.addr - 0x100000000) / 0x1000 | _ => 6
  let no (slot code : Nat) : Reply := (some (code, []), c.report slot code .refusal (c.req who) m.addr)
  if m.rlen ≠ 0 ∧ ¬(m.ken = 0 ∧ m.src = c.mgrId) then no (if c.slotEmpty slot then 6 else slot) 0x0521
  else match g with
    | .remote _ => no 6 0x0520
    | .regs => if reg then c.reach who m.addr n w else no 6 0x0521
    | _ => if reg then no 6 (if g = .hole then 0x0520 else 0x0521) else c.reach who m.addr n w

/-- A request message of a port is performed (R766). -/
def msgRequest (c : Chip) (p vc mt : Nat) : Chip :=
  match c.inboxHead p vc mt with
  | none => c
  | some m =>
    match c.msgServe m with
    | (none, c) => c
    | (some (code, data), c) => ((c.respond p m code data).inboxDrop p vc m).settle

/-- A response of a port reaches its requester and ends the message; one that no message waits for is discarded (R766, R793). -/
def msgResponse (c : Chip) (p mt : Nat) : Chip :=
  match c.inboxHead p 1 mt with
  | none => c
  | some m =>
    let c := c.inboxDrop p 1 m
    (match c.sentOf m.tag with
     | some s => c.answered s m.code m.data
     | none => c).settle

end Chip

/-! ### Commands -/

/-- LOAD_DATA_RETURN (R306, R308): the core's oldest outstanding load on a variable-latency path is performed and returns. -/
def execLoadDataReturn (k : CoreId) (s : State) : Host.Outcome State Fault Refusal := s.up fun c => c.coreReturn k.val true

/-- POSTED_STORE_DONE (R306, R411): the core's oldest posted store is performed or refused. -/
def execPostedStoreDone (k : CoreId) (s : State) : Host.Outcome State Fault Refusal := s.up fun c => c.coreReturn k.val false

/-- DAPACC (R949). -/
def execDapacc (addr : BitVec 48) (wr : Bool) (data : BitVec 32) (s : State) : Host.Outcome State Fault Refusal :=
  s.on fun c => (c.dapAccess addr.toNat wr data).settle

/-- SMBUS_WRITE (R1050, R1051). -/
def execSmbusWrite (cmd count : BitVec 8) (ofs : BitVec 24) (data : BitVec 32) (badPec : Bool) (s : State) : Host.Outcome State Fault Refusal :=
  s.on fun c => c.smbusWrite cmd count ofs.toNat data badPec

/-- SMBUS_READ (R1050, R1051). -/
def execSmbusRead (cmd count : BitVec 8) (ofs : BitVec 24) (s : State) : Host.Outcome State Fault Refusal :=
  s.on fun c => c.smbusRead cmd count ofs.toNat

/-- SMBUS_TIMEOUT (R1049): the interface is reset. A transaction is one command here, so none is under way to be dropped. -/
def execSmbusTimeout (s : State) : Host.Outcome State Fault Refusal := s.on fun c => c

/-- PCIE_MEMORY_REQUEST (R806). -/
def execPcieMemoryRequest (q : PcieReq) (s : State) : Host.Outcome State Fault Refusal := s.up fun c => c.pcieReq q

/-- RDREQ (R765, R766). -/
def execRdreq (p : Fin 4) (s : State) : Host.Outcome State Fault Refusal := s.up fun c => c.msgRequest p.val 0 0x01

/-- WRREQ (R765, R766). -/
def execWrreq (p : Fin 4) (s : State) : Host.Outcome State Fault Refusal := s.up fun c => c.msgRequest p.val 0 0x02

/-- STWR (R765, R766). -/
def execStwr (p : Fin 4) (s : State) : Host.Outcome State Fault Refusal := s.up fun c => c.msgRequest p.val 2 0x03

/-- REGRD (R765, R766). -/
def execRegrd (p : Fin 4) (s : State) : Host.Outcome State Fault Refusal := s.up fun c => c.msgRequest p.val 0 0x04

/-- REGWR (R765, R766). -/
def execRegwr (p : Fin 4) (s : State) : Host.Outcome State Fault Refusal := s.up fun c => c.msgRequest p.val 0 0x05

/-- RDRSP (R766, R793). -/
def execRdrsp (p : Fin 4) (s : State) : Host.Outcome State Fault Refusal := s.up fun c => c.msgResponse p.val 0x81

/-- WRACK (R766, R793). -/
def execWrack (p : Fin 4) (s : State) : Host.Outcome State Fault Refusal := s.up fun c => c.msgResponse p.val 0x82

/-- CTLM (R765): a control message has no answer, and the spec gives it no effect beyond the buffers it held. -/
def execCtlm (p : Fin 4) (s : State) : Host.Outcome State Fault Refusal :=
  s.up fun c => match c.inboxHead p.val 3 0x10 with
    | some m => c.inboxDrop p.val 3 m
    | none => c

/-- RECF (R790, R811): a record for the manager enters the forward ring of its kennel. -/
def execRecf (p : Fin 4) (s : State) : Host.Outcome State Fault Refusal :=
  s.up fun c => match c.inboxHead p.val 3 0x11 with
    | some m => (c.forwardRec m.ken (padTo 64 m.data)).inboxDrop p.val 3 m
    | none => c

end Sys2Proof.Machine
end

