-- ==== Sys2Proof/Machine/Scalar.lean ====
section
/-!
DEFINITION. The scalar and address syllables of the S and M slots: one meaning per syllable.
-/
namespace Sys2Proof.Machine

/-- The slots of the ALU syllables (R367, R368). -/
abbrev slotsSM : List Slot := [.s, .m]

/-- NOP (R300): in every slot, on every core. -/
def execNop (h : Syl) (s : State) : Host.Outcome State Fault Refusal :=
  s.up fun c => c.syl { h with guard := 0, sense := false, rsv := false } [.s, .m, .v, .n] true fun _ => {}


/-- ADD (R370): a + b. -/
def execAdd (h : Syl) (o : AluOp) (s : State) : Host.Outcome State Fault Refusal :=
  s.up fun c => c.syl h slotsSM true (aluBody .sext false (fun a b _ => aluAdd a b false) o)

/-- SUB (R370): a - b. -/
def execSub (h : Syl) (o : AluOp) (s : State) : Host.Outcome State Fault Refusal :=
  s.up fun c => c.syl h slotsSM true (aluBody .sext false (fun a b _ => aluSub a b false) o)

/-- ADDC (R370): a + b + C. -/
def execAddc (h : Syl) (o : AluOp) (s : State) : Host.Outcome State Fault Refusal :=
  s.up fun c => c.syl h slotsSM true (aluBody .sext true (fun a b ci => aluAdd a b ci) o)

/-- SUBC (R370): a - b - (1 - C). -/
def execSubc (h : Syl) (o : AluOp) (s : State) : Host.Outcome State Fault Refusal :=
  s.up fun c => c.syl h slotsSM true (aluBody .sext true (fun a b ci => aluSub a b (!ci)) o)

/-- ADDS (R370, R373): saturated a + b. -/
def execAdds (h : Syl) (o : AluOp) (s : State) : Host.Outcome State Fault Refusal :=
  s.up fun c => c.syl h slotsSM true (aluBody .sext true (fun a b _ => aluSat (s24 a + s24 b)) o)

/-- SUBS (R370, R373): saturated a - b. -/
def execSubs (h : Syl) (o : AluOp) (s : State) : Host.Outcome State Fault Refusal :=
  s.up fun c => c.syl h slotsSM true (aluBody .sext true (fun a b _ => aluSat (s24 a - s24 b)) o)

/-- AND (R370): a & b. -/
def execAndD (h : Syl) (o : AluOp) (s : State) : Host.Outcome State Fault Refusal :=
  s.up fun c => c.syl h slotsSM true (aluBody .zext false (fun a b _ => aluLogic (a &&& b)) o)

/-- OR (R370): a | b. -/
def execOrD (h : Syl) (o : AluOp) (s : State) : Host.Outcome State Fault Refusal :=
  s.up fun c => c.syl h slotsSM true (aluBody .zext false (fun a b _ => aluLogic (a ||| b)) o)

/-- XOR (R370): exclusive or. -/
def execXorD (h : Syl) (o : AluOp) (s : State) : Host.Outcome State Fault Refusal :=
  s.up fun c => c.syl h slotsSM true (aluBody .zext false (fun a b _ => aluLogic (a ^^^ b)) o)

/-- ANDN (R370): a and the complement of b. -/
def execAndn (h : Syl) (o : AluOp) (s : State) : Host.Outcome State Fault Refusal :=
  s.up fun c => c.syl h slotsSM true (aluBody .zext false (fun a b _ => aluLogic (a &&& ~~~ b)) o)

/-- SHL (R371): shift left. -/
def execShl (h : Syl) (o : AluOp) (s : State) : Host.Outcome State Fault Refusal :=
  s.up fun c => c.syl h slotsSM true (aluBody .shift false (fun a b _ => aluShl a b.toNat) o)

/-- SHR (R371): shift right with zero fill. -/
def execShr (h : Syl) (o : AluOp) (s : State) : Host.Outcome State Fault Refusal :=
  s.up fun c => c.syl h slotsSM true (aluBody .shift false (fun a b _ => aluShr a b.toNat) o)

/-- SAR (R371): shift right with sign fill. -/
def execSar (h : Syl) (o : AluOp) (s : State) : Host.Outcome State Fault Refusal :=
  s.up fun c => c.syl h slotsSM true (aluBody .shift false (fun a b _ => aluSar a b.toNat) o)

/-- MIN (R370): signed minimum. -/
def execMinD (h : Syl) (o : AluOp) (s : State) : Host.Outcome State Fault Refusal :=
  s.up fun c => c.syl h slotsSM true (aluBody .sext false (fun a b _ => aluMin a b) o)

/-- MAX (R370): signed maximum. -/
def execMaxD (h : Syl) (o : AluOp) (s : State) : Host.Outcome State Fault Refusal :=
  s.up fun c => c.syl h slotsSM true (aluBody .sext false (fun a b _ => aluMax a b) o)

/-- MINU (R370): unsigned minimum. -/
def execMinu (h : Syl) (o : AluOp) (s : State) : Host.Outcome State Fault Refusal :=
  s.up fun c => c.syl h slotsSM true (aluBody .zext false (fun a b _ => aluMinu a b) o)

/-- MAXU (R370): unsigned maximum. -/
def execMaxu (h : Syl) (o : AluOp) (s : State) : Host.Outcome State Fault Refusal :=
  s.up fun c => c.syl h slotsSM true (aluBody .zext false (fun a b _ => aluMaxu a b) o)

/-- ABS (R370, R372): saturated absolute value. -/
def execAbs (h : Syl) (o : AluOp) (s : State) : Host.Outcome State Fault Refusal :=
  s.up fun c => c.syl h slotsSM true (aluBody .none true (fun a _ _ => aluAbs a) o)

/-- NEG (R370, R372): 0 - a. -/
def execNeg (h : Syl) (o : AluOp) (s : State) : Host.Outcome State Fault Refusal :=
  s.up fun c => c.syl h slotsSM true (aluBody .none false (fun a _ _ => aluSub 0 a false) o)

/-- MOV (R370, R372): copy. -/
def execMov (h : Syl) (o : AluOp) (s : State) : Host.Outcome State Fault Refusal :=
  s.up fun c => c.syl h slotsSM true (aluBody .none false (fun a _ _ => aluLogic a) o)

/-- MOVI (R374): a 24-bit immediate into a data register. -/
def execMovi (h : Syl) (o : ImmOp) (s : State) : Host.Outcome State Fault Refusal :=
  s.up fun c => c.syl h slotsSM true fun _ => { effs := [.wd o.rd.toNat o.imm], touch := [(cD, o.rd.toNat)] }

/-- CMPEQ (R375). -/
def execCmpeq (h : Syl) (o : CmpOp) (s : State) : Host.Outcome State Fault Refusal :=
  s.up fun c => c.syl h [.s] true (cmpBody .sext (fun a b => a == b) o)

/-- CMPNE (R375). -/
def execCmpne (h : Syl) (o : CmpOp) (s : State) : Host.Outcome State Fault Refusal :=
  s.up fun c => c.syl h [.s] true (cmpBody .sext (fun a b => a != b) o)

/-- CMPLT (R375). -/
def execCmplt (h : Syl) (o : CmpOp) (s : State) : Host.Outcome State Fault Refusal :=
  s.up fun c => c.syl h [.s] true (cmpBody .sext (fun a b => decide (s24 a < s24 b)) o)

/-- CMPLE (R375). -/
def execCmple (h : Syl) (o : CmpOp) (s : State) : Host.Outcome State Fault Refusal :=
  s.up fun c => c.syl h [.s] true (cmpBody .sext (fun a b => decide (s24 a ≤ s24 b)) o)

/-- CMPGT (R375). -/
def execCmpgt (h : Syl) (o : CmpOp) (s : State) : Host.Outcome State Fault Refusal :=
  s.up fun c => c.syl h [.s] true (cmpBody .sext (fun a b => decide (s24 b < s24 a)) o)

/-- CMPGE (R375). -/
def execCmpge (h : Syl) (o : CmpOp) (s : State) : Host.Outcome State Fault Refusal :=
  s.up fun c => c.syl h [.s] true (cmpBody .sext (fun a b => decide (s24 b ≤ s24 a)) o)

/-- CMPLTU (R375). -/
def execCmpltu (h : Syl) (o : CmpOp) (s : State) : Host.Outcome State Fault Refusal :=
  s.up fun c => c.syl h [.s] true (cmpBody .zext (fun a b => decide (a.toNat < b.toNat)) o)

/-- CMPLEU (R375). -/
def execCmpleu (h : Syl) (o : CmpOp) (s : State) : Host.Outcome State Fault Refusal :=
  s.up fun c => c.syl h [.s] true (cmpBody .zext (fun a b => decide (a.toNat ≤ b.toNat)) o)

/-- CMPGTU (R375). -/
def execCmpgtu (h : Syl) (o : CmpOp) (s : State) : Host.Outcome State Fault Refusal :=
  s.up fun c => c.syl h [.s] true (cmpBody .zext (fun a b => decide (b.toNat < a.toNat)) o)

/-- CMPGEU (R375). -/
def execCmpgeu (h : Syl) (o : CmpOp) (s : State) : Host.Outcome State Fault Refusal :=
  s.up fun c => c.syl h [.s] true (cmpBody .zext (fun a b => decide (b.toNat ≤ a.toNat)) o)

/-- PAND (R376). -/
def execPand (h : Syl) (o : PlgOp) (s : State) : Host.Outcome State Fault Refusal :=
  s.up fun c => c.syl h [.s] true (plgBody false (fun a b => a && b) o)

/-- POR (R376). -/
def execPor (h : Syl) (o : PlgOp) (s : State) : Host.Outcome State Fault Refusal :=
  s.up fun c => c.syl h [.s] true (plgBody false (fun a b => a || b) o)

/-- PXOR (R376). -/
def execPxor (h : Syl) (o : PlgOp) (s : State) : Host.Outcome State Fault Refusal :=
  s.up fun c => c.syl h [.s] true (plgBody false (fun a b => a != b) o)

/-- PANDN (R376). -/
def execPandn (h : Syl) (o : PlgOp) (s : State) : Host.Outcome State Fault Refusal :=
  s.up fun c => c.syl h [.s] true (plgBody false (fun a b => a && !b) o)

/-- PNOT (R376). -/
def execPnot (h : Syl) (o : PlgOp) (s : State) : Host.Outcome State Fault Refusal :=
  s.up fun c => c.syl h [.s] true (plgBody true (fun a _ => !a) o)

/-- PMOV (R376). -/
def execPmov (h : Syl) (o : PlgOp) (s : State) : Host.Outcome State Fault Refusal :=
  s.up fun c => c.syl h [.s] true (plgBody true (fun a _ => a) o)

/-- The accumulator word of a number, modulo 2^72 (R377). -/
def word72 (x : Int) : BitVec 72 := BitVec.ofInt 72 x

/-- XSAT and XRND (R379): the shifted accumulator, clamped, with SAT when it lies outside the range. -/
def xsatEffs (x : Core) (o : MxOp) (rnd : Bool) : List Eff :=
  let n := o.sh.toNat
  let v := (x.X o.ra.toNat).toInt + (if rnd && n != 0 then 2 ^ (n - 1) else 0)
  let r := v / 2 ^ n
  [.wd o.rd.toNat (sat24 r)] ++ (if fits24 r then [] else [.sat])

/-- MUL (R377): the low 24 bits of the product. -/
def execMul (h : Syl) (o : MxOp) (s : State) : Host.Outcome State Fault Refusal :=
  s.up fun c => c.syl h [.s] true fun x => mxBody false false true true false false false ([.wd o.rd.toNat (x.D o.ra.toNat * x.D o.rb.toNat)]) o

/-- MULH (R377): bits 47 to 24 of the signed product. -/
def execMulh (h : Syl) (o : MxOp) (s : State) : Host.Outcome State Fault Refusal :=
  s.up fun c => c.syl h [.s] true fun x => mxBody false false true true false false false ([.wd o.rd.toNat (word24 (s24 (x.D o.ra.toNat) * s24 (x.D o.rb.toNat) / 2 ^ 24))]) o

/-- MULHU (R377): bits 47 to 24 of the unsigned product. -/
def execMulhu (h : Syl) (o : MxOp) (s : State) : Host.Outcome State Fault Refusal :=
  s.up fun c => c.syl h [.s] true fun x => mxBody false false true true false false false ([.wd o.rd.toNat (BitVec.ofNat 24 ((x.D o.ra.toNat).toNat * (x.D o.rb.toNat).toNat / 2 ^ 24))]) o

/-- MAC (R377): adds the signed product. -/
def execMac (h : Syl) (o : MxOp) (s : State) : Host.Outcome State Fault Refusal :=
  s.up fun c => c.syl h [.s] true fun x => mxBody true false true true false false false ([.wx o.rd.toNat (x.X o.rd.toNat + word72 (s24 (x.D o.ra.toNat) * s24 (x.D o.rb.toNat)))]) o

/-- MACU (R377): adds the unsigned product. -/
def execMacu (h : Syl) (o : MxOp) (s : State) : Host.Outcome State Fault Refusal :=
  s.up fun c => c.syl h [.s] true fun x => mxBody true false true true false false false ([.wx o.rd.toNat (x.X o.rd.toNat + BitVec.ofNat 72 ((x.D o.ra.toNat).toNat * (x.D o.rb.toNat).toNat))]) o

/-- MSU (R377): subtracts the signed product. -/
def execMsu (h : Syl) (o : MxOp) (s : State) : Host.Outcome State Fault Refusal :=
  s.up fun c => c.syl h [.s] true fun x => mxBody true false true true false false false ([.wx o.rd.toNat (x.X o.rd.toNat - word72 (s24 (x.D o.ra.toNat) * s24 (x.D o.rb.toNat)))]) o

/-- XCLR (R377): clears an accumulator. -/
def execXclr (h : Syl) (o : MxOp) (s : State) : Host.Outcome State Fault Refusal :=
  s.up fun c => c.syl h [.s] true fun x => mxBody true false false false false false false ([.wx o.rd.toNat 0]) o

/-- XRD (R377): reads a part. -/
def execXrd (h : Syl) (o : MxOp) (s : State) : Host.Outcome State Fault Refusal :=
  s.up fun c => c.syl h [.s] true fun x => mxBody false true true false false true false ([.wd o.rd.toNat (BitVec.ofNat 24 ((x.X o.ra.toNat).toNat / 2 ^ (24 * o.part.toNat)))]) o

/-- XWR (R377): writes a part, the other bits kept. -/
def execXwr (h : Syl) (o : MxOp) (s : State) : Host.Outcome State Fault Refusal :=
  s.up fun c => c.syl h [.s] true fun x => mxBody true false true false false true false (let p := 24 * o.part.toNat; let v := (x.X o.rd.toNat).toNat
    [.wx o.rd.toNat (BitVec.ofNat 72 (v - v / 2 ^ p % 2 ^ 24 * 2 ^ p + (x.D o.ra.toNat).toNat * 2 ^ p))]) o

/-- XSAT (R377): shifts right and saturates (R379). -/
def execXsat (h : Syl) (o : MxOp) (s : State) : Host.Outcome State Fault Refusal :=
  s.up fun c => c.syl h [.s] true fun x => mxBody false true true false true false true (xsatEffs x o false) o

/-- XRND (R377): rounds, shifts right and saturates (R379). -/
def execXrnd (h : Syl) (o : MxOp) (s : State) : Host.Outcome State Fault Refusal :=
  s.up fun c => c.syl h [.s] true fun x => mxBody false true true false true false true (xsatEffs x o true) o

/-- FEXT (R380): extracts a field, zero-extended. -/
def execFext (h : Syl) (o : BfdOp) (s : State) : Host.Outcome State Fault Refusal :=
  s.up fun c => c.syl h [.s] true fun x => bfBody false true false ([.wd o.rd.toNat (BitVec.ofNat 24 (fld (x.D o.ra.toNat) (o.pos.toNat + o.lenm1.toNat) o.pos.toNat))]) o

/-- FEXTS (R380): extracts a field, sign-extended. -/
def execFexts (h : Syl) (o : BfdOp) (s : State) : Host.Outcome State Fault Refusal :=
  s.up fun c => c.syl h [.s] true fun x => bfBody false true false ([.wd o.rd.toNat (word24 (sInt (o.lenm1.toNat + 1) (fld (x.D o.ra.toNat) (o.pos.toNat + o.lenm1.toNat) o.pos.toNat)))]) o

/-- FINS (R380): inserts a field (R381). -/
def execFins (h : Syl) (o : BfdOp) (s : State) : Host.Outcome State Fault Refusal :=
  s.up fun c => c.syl h [.s] true fun x => bfBody false true false (let v := x.D o.rd.toNat; let hi := o.pos.toNat + o.lenm1.toNat; let lo := o.pos.toNat
    [.wd o.rd.toNat (BitVec.ofNat 24 (v.toNat - fld v hi lo * 2 ^ lo + fld (x.D o.ra.toNat) o.lenm1.toNat 0 * 2 ^ lo))]) o

/-- CLZ (R380): counts leading zeros. -/
def execClz (h : Syl) (o : BfdOp) (s : State) : Host.Outcome State Fault Refusal :=
  s.up fun c => c.syl h [.s] true fun x => bfBody false false false ([.wd o.rd.toNat (BitVec.ofNat 24 (if x.D o.ra.toNat == 0 then 24 else 23 - (x.D o.ra.toNat).toNat.log2))]) o

/-- The source bytes of BPERM (R382). -/
def bpermByte (a b : BitVec 24) (i : Nat) : Nat :=
  if i < 3 then fld a (8 * i + 7) (8 * i) else if i < 6 then fld b (8 * (i - 3) + 7) (8 * (i - 3)) else if i = 6 then 0 else 255

/-- BPERM (R380): permutes bytes (R382). -/
def execBperm (h : Syl) (o : BfdOp) (s : State) : Host.Outcome State Fault Refusal :=
  s.up fun c => c.syl h [.s] true fun x => bfBody true false true ([.wd o.rd.toNat (BitVec.ofNat 24 ((List.range 3).foldl (fun v i =>
    v + bpermByte (x.D o.ra.toNat) (x.D o.rb.toNat) (fld o.sel (3 * i + 2) (3 * i)) * 2 ^ (8 * i)) 0))]) o

/-- The target of a relative branch (R393). -/
def relTarget (x : Core) (ofs : BitVec 24) : BitVec 48 := x.pc + ofs.signExtend 48 * 24

/-- BRA (R393): AL must be 0. -/
def execBra (h : Syl) (o : BrlOp) (s : State) : Host.Outcome State Fault Refusal :=
  s.up fun c => c.syl h [.s] true fun x => { ok := o.al == 0, branch := true, effs := [.branch (relTarget x o.ofs)] }

/-- CALL (R393): the return address is the bundle after the delay bundle. -/
def execCall (h : Syl) (o : BrlOp) (s : State) : Host.Outcome State Fault Refusal :=
  s.up fun c => c.syl h [.s] true fun x => { branch := true, effs := [.branch (relTarget x o.ofs), .wa o.al.toNat (x.pc + 48)] }

/-- BR (R394): AL must be 0. -/
def execBr (h : Syl) (o : BrgOp) (s : State) : Host.Outcome State Fault Refusal :=
  s.up fun c => c.syl h [.s] true fun x => { ok := o.al == 0, branch := true, effs := [.branch (x.A o.at_.toNat)] }

/-- CALLR (R394). -/
def execCallr (h : Syl) (o : BrgOp) (s : State) : Host.Outcome State Fault Refusal :=
  s.up fun c => c.syl h [.s] true fun x => { branch := true, effs := [.branch (x.A o.at_.toNat), .wa o.al.toNat (x.pc + 48)] }

/-- REPB (R312, R398 to R400). -/
def execRepb (h : Syl) (o : RptOp) (s : State) : Host.Outcome State Fault Refusal :=
  s.up fun c => c.syl h [.s] true fun x =>
    let n := if o.cs then (x.D (fld o.count 4 0)).toNat else o.count.toNat
    { ok := !o.cs || fld o.count 23 5 == 0, branch := true, rep := x.repbBad (b2n o.lvl) o.lenm1.toNat
      effs := [.repb o.lvl o.lenm1.toNat n], touch := if o.cs then [(cD, fld o.count 4 0)] else [] }

/-- REPEAT_LOOP_BACK (R313): the level whose end bundle has completed loops back or ends. -/
def execRepeatLoopBack (k : CoreId) (s : State) : Host.Outcome State Fault Refusal :=
  s.up fun c => c.modCore k.val Core.loopBack

/-- MOVS (R403): one issue of a string copy; SRC and RK are unused. -/
def execMovs (h : Syl) (o : StrOp) (s : State) : Host.Outcome State Fault Refusal :=
  s.up fun c => c.syl h [.s] true fun _ => { ok := o.src == 0 && !o.rk, alone := true, effs := [.strop 0 0 0] }

/-- FILLS (R404): one issue of a string fill; RK must match the element size. -/
def execFills (h : Syl) (o : StrOp) (s : State) : Host.Outcome State Fault Refusal :=
  s.up fun c => c.syl h [.s] true fun x =>
    { ok := !o.rk || isA o.src, argOk := o.rk == (Chip.strElem x == 6), alone := true
      effs := [.strop 1 0 (if o.rk then (x.A o.src.toNat).toNat else (x.D o.src.toNat).toNat)]
      touch := if o.rk then [] else [(cD, o.src.toNat)] }

/-- CMPS (R403, R404): one issue of a string compare. -/
def execCmps (h : Syl) (o : StrOp) (s : State) : Host.Outcome State Fault Refusal :=
  s.up fun c => c.syl h [.s] true fun _ => { ok := fld o.src 4 3 == 0 && !o.rk, alone := true, effs := [.strop 2 o.src.toNat 0] }

/-- MFC (R412). -/
def execMfc (h : Syl) (o : CtlOp) (s : State) : Host.Outcome State Fault Refusal :=
  s.up fun c => c.syl h [.s] true fun _ =>
    let v := c.crRead h.core.val o.crn.toNat
    { ok := v.isSome, effs := [if o.crn == 0x19 then .cyc o.an.toNat else .wa o.an.toNat (v.getD 0)]
      touch := if o.crn == 0 then [(cFL, 0)] else [] }

/-- An MTC to REPST would arm levels whose blocks do not nest (R314, R354). -/
def repstBad (x : Core) (v : BitVec 48) : Bool :=
  bit v 0 && bit v 1 && !(decide (x.LS 0 ≤ x.LS 1) && decide (x.LE 1 ≤ x.LE 0))

/-- MTC (R353, R354, R413). -/
def execMtc (h : Syl) (o : CtlOp) (s : State) : Host.Outcome State Fault Refusal :=
  s.up fun c => c.syl h [.s] true fun x =>
    let n := o.crn.toNat
    let v := x.A o.an.toNat
    { ok := (c.crRead h.core.val n).isSome, argOk := !(n == 5 && bit v 14 && !c.inProgram h.core.val x.ebt)
      user := !Chip.crSuper n, rep := n == 0x16 && repstBad x v
      effs := if Chip.crRO n then [] else [.mtc n v]
      touch := if n == 0 then [(cFL, 0)] else [] }

/-- MTCC (R415): only IPEND, only at supervisor privilege. -/
def execMtcc (h : Syl) (o : CtlOp) (s : State) : Host.Outcome State Fault Refusal :=
  s.up fun c => c.syl h [.s] true fun x =>
    { ok := o.crn == 0x0C, user := false, effs := [.mtcc (x.A o.an.toNat)] }

/-- ERET (R321, R418 to R420). -/
def execEret (h : Syl) (code : BitVec 16) (s : State) : Host.Outcome State Fault Refusal :=
  s.up fun c => c.syl h [.s] true fun _ => { ok := code == 0, user := false, branch := true, alone := true, effs := [.eret] }

/-- NRET (R417 to R420). -/
def execNret (h : Syl) (code : BitVec 16) (s : State) : Host.Outcome State Fault Refusal :=
  s.up fun c => c.syl h [.s] true fun _ => { ok := code == 0, user := false, branch := true, alone := true, effs := [.nret] }

/-- TRAP (R320, R417). -/
def execTrap (h : Syl) (code : BitVec 16) (s : State) : Host.Outcome State Fault Refusal :=
  s.up fun c => c.syl h [.s] true fun _ => { effs := [.trap code] }

/-- WAITT (R344, R369, R419): not on the control core. -/
def execWaitt (h : Syl) (code : BitVec 16) (s : State) : Host.Outcome State Fault Refusal :=
  s.up fun c => c.syl h [.s] false fun _ => { ok := code == 0, user := false, alone := true, effs := [.waitt] }

/-- LDBU (R383 to R389). -/
def execLdbu (h : Syl) (o : LdsOp) (s : State) : Host.Outcome State Fault Refusal :=
  s.up fun c => c.syl h [.m] true (ldsBody c h.core.val 1 false false false o)

/-- LDB (R383 to R389). -/
def execLdb (h : Syl) (o : LdsOp) (s : State) : Host.Outcome State Fault Refusal :=
  s.up fun c => c.syl h [.m] true (ldsBody c h.core.val 1 true false false o)

/-- LDHU (R383 to R389). -/
def execLdhu (h : Syl) (o : LdsOp) (s : State) : Host.Outcome State Fault Refusal :=
  s.up fun c => c.syl h [.m] true (ldsBody c h.core.val 2 false false false o)

/-- LDH (R383 to R389). -/
def execLdh (h : Syl) (o : LdsOp) (s : State) : Host.Outcome State Fault Refusal :=
  s.up fun c => c.syl h [.m] true (ldsBody c h.core.val 2 true false false o)

/-- LD (R383 to R389). -/
def execLd (h : Syl) (o : LdsOp) (s : State) : Host.Outcome State Fault Refusal :=
  s.up fun c => c.syl h [.m] true (ldsBody c h.core.val 3 false false false o)

/-- LDA (R383 to R389). -/
def execLda (h : Syl) (o : LdsOp) (s : State) : Host.Outcome State Fault Refusal :=
  s.up fun c => c.syl h [.m] true (ldsBody c h.core.val 6 false true false o)

/-- LDQ (R383 to R389). -/
def execLdq (h : Syl) (o : LdsOp) (s : State) : Host.Outcome State Fault Refusal :=
  s.up fun c => c.syl h [.m] true (ldsBody c h.core.val 4 false true false o)

/-- STB (R383 to R389). -/
def execStb (h : Syl) (o : LdsOp) (s : State) : Host.Outcome State Fault Refusal :=
  s.up fun c => c.syl h [.m] true (ldsBody c h.core.val 1 false false true o)

/-- STH (R383 to R389). -/
def execSth (h : Syl) (o : LdsOp) (s : State) : Host.Outcome State Fault Refusal :=
  s.up fun c => c.syl h [.m] true (ldsBody c h.core.val 2 false false true o)

/-- ST (R383 to R389). -/
def execSt (h : Syl) (o : LdsOp) (s : State) : Host.Outcome State Fault Refusal :=
  s.up fun c => c.syl h [.m] true (ldsBody c h.core.val 3 false false true o)

/-- STA (R383 to R389). -/
def execSta (h : Syl) (o : LdsOp) (s : State) : Host.Outcome State Fault Refusal :=
  s.up fun c => c.syl h [.m] true (ldsBody c h.core.val 6 false true true o)

/-- STQ (R383 to R389). -/
def execStq (h : Syl) (o : LdsOp) (s : State) : Host.Outcome State Fault Refusal :=
  s.up fun c => c.syl h [.m] true (ldsBody c h.core.val 4 false true true o)

/-- MOVA (R391). -/
def execMova (h : Syl) (o : AdrOp) (s : State) : Host.Outcome State Fault Refusal :=
  s.up fun c => c.syl h [.m] true (adrBody true true false false false (fun a _ _ _ => .wa o.rd.toNat a) o)

/-- ADDA (R391). -/
def execAdda (h : Syl) (o : AdrOp) (s : State) : Host.Outcome State Fault Refusal :=
  s.up fun c => c.syl h [.m] true (adrBody true true false true false (fun a _ _ i => .wa o.rd.toNat (a + i)) o)

/-- ADDAD (R391). -/
def execAddad (h : Syl) (o : AdrOp) (s : State) : Host.Outcome State Fault Refusal :=
  s.up fun c => c.syl h [.m] true (adrBody true true true false false (fun a _ d _ => .wa o.rd.toNat (a + sext48 d)) o)

/-- SUBAD (R391). -/
def execSubad (h : Syl) (o : AdrOp) (s : State) : Host.Outcome State Fault Refusal :=
  s.up fun c => c.syl h [.m] true (adrBody true true true false false (fun a _ d _ => .wa o.rd.toNat (a - sext48 d)) o)

/-- MOVDA (R391). -/
def execMovda (h : Syl) (o : AdrOp) (s : State) : Host.Outcome State Fault Refusal :=
  s.up fun c => c.syl h [.m] true (adrBody true false false false false (fun _ d _ _ => .wa o.rd.toNat (sext48 d)) o)

/-- MOVAD (R391). -/
def execMovad (h : Syl) (o : AdrOp) (s : State) : Host.Outcome State Fault Refusal :=
  s.up fun c => c.syl h [.m] true (adrBody false true false false false (fun a _ _ _ => .wd o.rd.toNat (a.setWidth 24)) o)

/-- MOVAH (R391). -/
def execMovah (h : Syl) (o : AdrOp) (s : State) : Host.Outcome State Fault Refusal :=
  s.up fun c => c.syl h [.m] true (adrBody false true false false false (fun a _ _ _ => .wd o.rd.toNat ((a >>> 24).setWidth 24)) o)

/-- LEA (R391). -/
def execLea (h : Syl) (o : AdrOp) (s : State) : Host.Outcome State Fault Refusal :=
  s.up fun c => c.syl h [.m] true (adrBody true true true true true (fun a _ d i => .wa o.rd.toNat (a + sext48 d * i)) o)

/-- MOVAL (R391). -/
def execMoval (h : Syl) (o : ImmOp) (s : State) : Host.Outcome State Fault Refusal :=
  s.up fun c => c.syl h [.m] true fun _ => { ok := isA o.rd, effs := [.wa o.rd.toNat (o.imm.setWidth 48)] }

/-- MOVAU (R391). -/
def execMovau (h : Syl) (o : ImmOp) (s : State) : Host.Outcome State Fault Refusal :=
  s.up fun c => c.syl h [.m] true fun x =>
    { ok := isA o.rd, effs := [.wa o.rd.toNat (((x.A o.rd.toNat).setWidth 24).setWidth 48 ||| (o.imm.setWidth 48 <<< 24))] }

/-- RPUT (R408 to R410). -/
def execRput (h : Syl) (ctx : BitVec 4) (s : State) : Host.Outcome State Fault Refusal :=
  s.up fun c => c.syl h [.m] false fun _ => { effs := [.ring false ctx.toNat] }

/-- RFREE (R408 to R410). -/
def execRfree (h : Syl) (ctx : BitVec 4) (s : State) : Host.Outcome State Fault Refusal :=
  s.up fun c => c.syl h [.m] false fun _ => { effs := [.ring true ctx.toNat] }

/-- MSYNC (R411). -/
def execMsync (h : Syl) (s : State) : Host.Outcome State Fault Refusal :=
  s.up fun c => c.syl h [.m] true fun _ => { effs := [.msync] }

/-- INTERRUPT_ACCEPT (R326). -/
def execInterruptAccept (k : CoreId) (s : State) : Host.Outcome State Fault Refusal :=
  s.up fun c => c.acceptIrq k.val

/-- NMI_ACCEPT (R327). -/
def execNmiAccept (k : CoreId) (s : State) : Host.Outcome State Fault Refusal :=
  s.up fun c => c.acceptNmi k.val

/-- BUS_ERROR (R322): a refusal that has reached the core is taken at the boundary. -/
def execBusError (k : CoreId) (s : State) : Host.Outcome State Fault Refusal :=
  s.up fun c => c.acceptBusErr k.val

end Sys2Proof.Machine
end

