-- ==== Sys2Proof/Machine/Dispatch.lean ====
section
/-!
DEFINITION. The dispatch of a command to its meaning: one arm per row of the table of operations and events.
-/
namespace Sys2Proof.Machine

/-- The effect of one command on everything but the queue of waiting commands. -/
def exec (i : Instr) (s : State) : Host.Outcome State Fault Refusal :=
  match i with
  | .encoderLevelChange pin level => Sys2Proof.Machine.execEncoderLevelChange pin level s
  | .encoderFilterAccept pins => Sys2Proof.Machine.execEncoderFilterAccept pins s
  | .lineTick => Sys2Proof.Machine.execLineTick s
  | .testLineTick => Sys2Proof.Machine.execTestLineTick s
  | .cameraTrigger g delay busy => Sys2Proof.Machine.execCameraTrigger g delay busy s
  | .frameTickEdge => Sys2Proof.Machine.execFrameTickEdge s
  | .tickHeadSweep => Sys2Proof.Machine.execTickHeadSweep s
  | .ledgerReservation => Sys2Proof.Machine.execLedgerReservation s
  | .deferralEnd => Sys2Proof.Machine.execDeferralEnd s
  | .kennelRelease k => Sys2Proof.Machine.execKennelRelease k s
  | .releaseScan => Sys2Proof.Machine.execReleaseScan s
  | .holdTimeout => Sys2Proof.Machine.execHoldTimeout s
  | .flushEdge => Sys2Proof.Machine.execFlushEdge s
  | .holdEntry => Sys2Proof.Machine.execHoldEntry s
  | .tickOutPulseEnd => Sys2Proof.Machine.execTickOutPulseEnd s
  | .tickConfigWrite w => Sys2Proof.Machine.execTickConfigWrite w s
  | .kslotWrite w => Sys2Proof.Machine.execKslotWrite w s
  | .tdoneWrite w => Sys2Proof.Machine.execTdoneWrite w s
  | .registerWrite w => Sys2Proof.Machine.execRegisterWrite w s
  | .readClearRegister w => Sys2Proof.Machine.execReadClearRegister w s
  | .reg64LoRead w => Sys2Proof.Machine.execReg64LoRead w s
  | .reg64LoWrite w => Sys2Proof.Machine.execReg64LoWrite w s
  | .reg64HiWrite w => Sys2Proof.Machine.execReg64HiWrite w s
  | .pkeyUnlock w => Sys2Proof.Machine.execPkeyUnlock w s
  | .pkeyLock w => Sys2Proof.Machine.execPkeyLock w s
  | .softReset w => Sys2Proof.Machine.execSoftReset w s
  | .softResetDone slot => Sys2Proof.Machine.execSoftResetDone slot s
  | .blockFreeze w => Sys2Proof.Machine.execBlockFreeze w s
  | .blockFrozen slot => Sys2Proof.Machine.execBlockFrozen slot s
  | .blockUnfreeze w => Sys2Proof.Machine.execBlockUnfreeze w s
  | .perrcClear w => Sys2Proof.Machine.execPerrcClear w s
  | .pirqfWrite w => Sys2Proof.Machine.execPirqfWrite w s
  | .kmapCommitNow w => Sys2Proof.Machine.execKmapCommitNow w s
  | .kmapCommitArm w => Sys2Proof.Machine.execKmapCommitArm w s
  | .tileZeroFillDone t => Sys2Proof.Machine.execTileZeroFillDone t s
  | .kennelFreezeDone k => Sys2Proof.Machine.execKennelFreezeDone k s
  | .kennelResetDone k => Sys2Proof.Machine.execKennelResetDone k s
  | .kennelFreeze w => Sys2Proof.Machine.execKennelFreeze w s
  | .kennelResume w => Sys2Proof.Machine.execKennelResume w s
  | .kennelReset w => Sys2Proof.Machine.execKennelReset w s
  | .allocEntryWrite w => Sys2Proof.Machine.execAllocEntryWrite w s
  | .scratchpadMapWrite w => Sys2Proof.Machine.execScratchpadMapWrite w s
  | .spprotZeroFillDone t => Sys2Proof.Machine.execSpprotZeroFillDone t s
  | .scratchpadScrubPass t wgt errs => Sys2Proof.Machine.execScratchpadScrubPass t wgt errs s
  | .dmaPortAccess t => Sys2Proof.Machine.execDmaPortAccess t s
  | .ringActivate w => Sys2Proof.Machine.execRingActivate w s
  | .ringActivateDone t ctx => Sys2Proof.Machine.execRingActivateDone t ctx s
  | .ringDeactivate w => Sys2Proof.Machine.execRingDeactivate w s
  | .ringStallTimeout t ctx => Sys2Proof.Machine.execRingStallTimeout t ctx s
  | .slipLogRead w => Sys2Proof.Machine.execSlipLogRead w s
  | .hbmReadReturn st sid errs => Sys2Proof.Machine.execHbmReadReturn st sid errs s
  | .hbmWriteRetire st sid => Sys2Proof.Machine.execHbmWriteRetire st sid s
  | .hbmPatrolScrub st errs => Sys2Proof.Machine.execHbmPatrolScrub st errs s
  | .hbmTemperatureRead st temp => Sys2Proof.Machine.execHbmTemperatureRead st temp s
  | .hbmSelfRefresh w => Sys2Proof.Machine.execHbmSelfRefresh w s
  | .hbmStackFail st => Sys2Proof.Machine.execHbmStackFail st s
  | .trainingInvalidate w => Sys2Proof.Machine.execTrainingInvalidate w s
  | .hbmTrainingDone ok wrote why => Sys2Proof.Machine.execHbmTrainingDone ok wrote why s
  | .viewRingConfigWrite w => Sys2Proof.Machine.execViewRingConfigWrite w s
  | .nop h => Sys2Proof.Machine.execNop h s
  | .add h o => Sys2Proof.Machine.execAdd h o s
  | .sub h o => Sys2Proof.Machine.execSub h o s
  | .addc h o => Sys2Proof.Machine.execAddc h o s
  | .subc h o => Sys2Proof.Machine.execSubc h o s
  | .adds h o => Sys2Proof.Machine.execAdds h o s
  | .subs h o => Sys2Proof.Machine.execSubs h o s
  | .andD h o => Sys2Proof.Machine.execAndD h o s
  | .orD h o => Sys2Proof.Machine.execOrD h o s
  | .xorD h o => Sys2Proof.Machine.execXorD h o s
  | .andn h o => Sys2Proof.Machine.execAndn h o s
  | .shl h o => Sys2Proof.Machine.execShl h o s
  | .shr h o => Sys2Proof.Machine.execShr h o s
  | .sar h o => Sys2Proof.Machine.execSar h o s
  | .minD h o => Sys2Proof.Machine.execMinD h o s
  | .maxD h o => Sys2Proof.Machine.execMaxD h o s
  | .minu h o => Sys2Proof.Machine.execMinu h o s
  | .maxu h o => Sys2Proof.Machine.execMaxu h o s
  | .abs h o => Sys2Proof.Machine.execAbs h o s
  | .neg h o => Sys2Proof.Machine.execNeg h o s
  | .mov h o => Sys2Proof.Machine.execMov h o s
  | .movi h o => Sys2Proof.Machine.execMovi h o s
  | .cmpeq h o => Sys2Proof.Machine.execCmpeq h o s
  | .cmpne h o => Sys2Proof.Machine.execCmpne h o s
  | .cmplt h o => Sys2Proof.Machine.execCmplt h o s
  | .cmple h o => Sys2Proof.Machine.execCmple h o s
  | .cmpgt h o => Sys2Proof.Machine.execCmpgt h o s
  | .cmpge h o => Sys2Proof.Machine.execCmpge h o s
  | .cmpltu h o => Sys2Proof.Machine.execCmpltu h o s
  | .cmpleu h o => Sys2Proof.Machine.execCmpleu h o s
  | .cmpgtu h o => Sys2Proof.Machine.execCmpgtu h o s
  | .cmpgeu h o => Sys2Proof.Machine.execCmpgeu h o s
  | .pand h o => Sys2Proof.Machine.execPand h o s
  | .por h o => Sys2Proof.Machine.execPor h o s
  | .pxor h o => Sys2Proof.Machine.execPxor h o s
  | .pandn h o => Sys2Proof.Machine.execPandn h o s
  | .pnot h o => Sys2Proof.Machine.execPnot h o s
  | .pmov h o => Sys2Proof.Machine.execPmov h o s
  | .mul h o => Sys2Proof.Machine.execMul h o s
  | .mulh h o => Sys2Proof.Machine.execMulh h o s
  | .mulhu h o => Sys2Proof.Machine.execMulhu h o s
  | .mac h o => Sys2Proof.Machine.execMac h o s
  | .macu h o => Sys2Proof.Machine.execMacu h o s
  | .msu h o => Sys2Proof.Machine.execMsu h o s
  | .xclr h o => Sys2Proof.Machine.execXclr h o s
  | .xrd h o => Sys2Proof.Machine.execXrd h o s
  | .xwr h o => Sys2Proof.Machine.execXwr h o s
  | .xsat h o => Sys2Proof.Machine.execXsat h o s
  | .xrnd h o => Sys2Proof.Machine.execXrnd h o s
  | .fext h o => Sys2Proof.Machine.execFext h o s
  | .fexts h o => Sys2Proof.Machine.execFexts h o s
  | .fins h o => Sys2Proof.Machine.execFins h o s
  | .clz h o => Sys2Proof.Machine.execClz h o s
  | .bperm h o => Sys2Proof.Machine.execBperm h o s
  | .bra h o => Sys2Proof.Machine.execBra h o s
  | .call h o => Sys2Proof.Machine.execCall h o s
  | .br h o => Sys2Proof.Machine.execBr h o s
  | .callr h o => Sys2Proof.Machine.execCallr h o s
  | .repb h o => Sys2Proof.Machine.execRepb h o s
  | .repeatLoopBack k => Sys2Proof.Machine.execRepeatLoopBack k s
  | .movs h o => Sys2Proof.Machine.execMovs h o s
  | .fills h o => Sys2Proof.Machine.execFills h o s
  | .cmps h o => Sys2Proof.Machine.execCmps h o s
  | .mfc h o => Sys2Proof.Machine.execMfc h o s
  | .mtc h o => Sys2Proof.Machine.execMtc h o s
  | .mtcc h o => Sys2Proof.Machine.execMtcc h o s
  | .eret h code => Sys2Proof.Machine.execEret h code s
  | .nret h code => Sys2Proof.Machine.execNret h code s
  | .trap h code => Sys2Proof.Machine.execTrap h code s
  | .waitt h code => Sys2Proof.Machine.execWaitt h code s
  | .ldbu h o => Sys2Proof.Machine.execLdbu h o s
  | .ldb h o => Sys2Proof.Machine.execLdb h o s
  | .ldhu h o => Sys2Proof.Machine.execLdhu h o s
  | .ldh h o => Sys2Proof.Machine.execLdh h o s
  | .ld h o => Sys2Proof.Machine.execLd h o s
  | .lda h o => Sys2Proof.Machine.execLda h o s
  | .ldq h o => Sys2Proof.Machine.execLdq h o s
  | .stb h o => Sys2Proof.Machine.execStb h o s
  | .sth h o => Sys2Proof.Machine.execSth h o s
  | .st h o => Sys2Proof.Machine.execSt h o s
  | .sta h o => Sys2Proof.Machine.execSta h o s
  | .stq h o => Sys2Proof.Machine.execStq h o s
  | .loadDataReturn k => Sys2Proof.Machine.execLoadDataReturn k s
  | .postedStoreDone k => Sys2Proof.Machine.execPostedStoreDone k s
  | .busError k => Sys2Proof.Machine.execBusError k s
  | .mova h o => Sys2Proof.Machine.execMova h o s
  | .adda h o => Sys2Proof.Machine.execAdda h o s
  | .addad h o => Sys2Proof.Machine.execAddad h o s
  | .subad h o => Sys2Proof.Machine.execSubad h o s
  | .moval h o => Sys2Proof.Machine.execMoval h o s
  | .movau h o => Sys2Proof.Machine.execMovau h o s
  | .movda h o => Sys2Proof.Machine.execMovda h o s
  | .movad h o => Sys2Proof.Machine.execMovad h o s
  | .movah h o => Sys2Proof.Machine.execMovah h o s
  | .lea h o => Sys2Proof.Machine.execLea h o s
  | .rput h ctx => Sys2Proof.Machine.execRput h ctx s
  | .rfree h ctx => Sys2Proof.Machine.execRfree h ctx s
  | .msync h => Sys2Proof.Machine.execMsync h s
  | .interruptAccept k => Sys2Proof.Machine.execInterruptAccept k s
  | .nmiAccept k => Sys2Proof.Machine.execNmiAccept k s
  | .softwareInterrupt w => Sys2Proof.Machine.execSoftwareInterrupt w s
  | .programFill w => Sys2Proof.Machine.execProgramFill w s
  | .programFillDone k => Sys2Proof.Machine.execProgramFillDone k s
  | .coreRun w => Sys2Proof.Machine.execCoreRun w s
  | .coreStop w => Sys2Proof.Machine.execCoreStop w s
  | .vadd h o => Sys2Proof.Machine.execVadd h o s
  | .vsub h o => Sys2Proof.Machine.execVsub h o s
  | .vadds h o => Sys2Proof.Machine.execVadds h o s
  | .vsubs h o => Sys2Proof.Machine.execVsubs h o s
  | .vand h o => Sys2Proof.Machine.execVand h o s
  | .vor h o => Sys2Proof.Machine.execVor h o s
  | .vxor h o => Sys2Proof.Machine.execVxor h o s
  | .vandn h o => Sys2Proof.Machine.execVandn h o s
  | .vshl h o => Sys2Proof.Machine.execVshl h o s
  | .vshr h o => Sys2Proof.Machine.execVshr h o s
  | .vsar h o => Sys2Proof.Machine.execVsar h o s
  | .vmin h o => Sys2Proof.Machine.execVmin h o s
  | .vmax h o => Sys2Proof.Machine.execVmax h o s
  | .vmul h o => Sys2Proof.Machine.execVmul h o s
  | .vmulh h o => Sys2Proof.Machine.execVmulh h o s
  | .vabsd h o => Sys2Proof.Machine.execVabsd h o s
  | .vavg h o => Sys2Proof.Machine.execVavg h o s
  | .vabs h o => Sys2Proof.Machine.execVabs h o s
  | .vneg h o => Sys2Proof.Machine.execVneg h o s
  | .vmov h o => Sys2Proof.Machine.execVmov h o s
  | .vmovi h o => Sys2Proof.Machine.execVmovi h o s
  | .vfadd h o => Sys2Proof.Machine.execVfadd h o s
  | .vfsub h o => Sys2Proof.Machine.execVfsub h o s
  | .vfmul h o => Sys2Proof.Machine.execVfmul h o s
  | .vfmin h o => Sys2Proof.Machine.execVfmin h o s
  | .vfmax h o => Sys2Proof.Machine.execVfmax h o s
  | .vfabs h o => Sys2Proof.Machine.execVfabs h o s
  | .vfneg h o => Sys2Proof.Machine.execVfneg h o s
  | .vcmpeq h o => Sys2Proof.Machine.execVcmpeq h o s
  | .vcmpne h o => Sys2Proof.Machine.execVcmpne h o s
  | .vcmplt h o => Sys2Proof.Machine.execVcmplt h o s
  | .vcmple h o => Sys2Proof.Machine.execVcmple h o s
  | .vcmpgt h o => Sys2Proof.Machine.execVcmpgt h o s
  | .vcmpge h o => Sys2Proof.Machine.execVcmpge h o s
  | .vcmpltu h o => Sys2Proof.Machine.execVcmpltu h o s
  | .vcmpleu h o => Sys2Proof.Machine.execVcmpleu h o s
  | .vcmpgtu h o => Sys2Proof.Machine.execVcmpgtu h o s
  | .vcmpgeu h o => Sys2Proof.Machine.execVcmpgeu h o s
  | .mand h o => Sys2Proof.Machine.execMand h o s
  | .mor h o => Sys2Proof.Machine.execMor h o s
  | .mxor h o => Sys2Proof.Machine.execMxor h o s
  | .mandn h o => Sys2Proof.Machine.execMandn h o s
  | .mnot h o => Sys2Proof.Machine.execMnot h o s
  | .mmov h o => Sys2Proof.Machine.execMmov h o s
  | .vmac h o => Sys2Proof.Machine.execVmac h o s
  | .vmsu h o => Sys2Proof.Machine.execVmsu h o s
  | .vaclr h o => Sys2Proof.Machine.execVaclr h o s
  | .vard h o => Sys2Proof.Machine.execVard h o s
  | .vamov h o => Sys2Proof.Machine.execVamov h o s
  | .vast h o => Sys2Proof.Machine.execVast h o s
  | .vcmul h o => Sys2Proof.Machine.execVcmul h o s
  | .vcmac h o => Sys2Proof.Machine.execVcmac h o s
  | .vbperm h o => Sys2Proof.Machine.execVbperm h o s
  | .vsld h o => Sys2Proof.Machine.execVsld h o s
  | .vsel h o => Sys2Proof.Machine.execVsel h o s
  | .vwiden h o => Sys2Proof.Machine.execVwiden h o s
  | .vnarrow h o => Sys2Proof.Machine.execVnarrow h o s
  | .vcvt h o => Sys2Proof.Machine.execVcvt h o s
  | .vbcst h o => Sys2Proof.Machine.execVbcst h o s
  | .vins h o => Sys2Proof.Machine.execVins h o s
  | .vext h o => Sys2Proof.Machine.execVext h o s
  | .mpop h o => Sys2Proof.Machine.execMpop h o s
  | .vld h o => Sys2Proof.Machine.execVld h o s
  | .vst h o => Sys2Proof.Machine.execVst h o s
  | .vectorIdleGate t => Sys2Proof.Machine.execVectorIdleGate t s
  | .vectorWake w => Sys2Proof.Machine.execVectorWake w s
  | .vectorWakeDone t => Sys2Proof.Machine.execVectorWakeDone t s
  | .acfg h sel ds => Sys2Proof.Machine.execAcfg h sel ds s
  | .awld h an => Sys2Proof.Machine.execAwld h an s
  | .astr h an dn dr acc swp ntf => Sys2Proof.Machine.execAstr h an dn dr acc swp ntf s
  | .aswp h => Sys2Proof.Machine.execAswp h s
  | .afree h => Sys2Proof.Machine.execAfree h s
  | .arrayCommandBegin t => Sys2Proof.Machine.execArrayCommandBegin t s
  | .weightLoadDone t => Sys2Proof.Machine.execWeightLoadDone t s
  | .arrayLineRead t => Sys2Proof.Machine.execArrayLineRead t s
  | .aamRowUpdate t errs => Sys2Proof.Machine.execAamRowUpdate t errs s
  | .arrayJobComplete t bad => Sys2Proof.Machine.execArrayJobComplete t bad s
  | .djob h prof an dr dn ntf wa => Sys2Proof.Machine.execDjob h prof an dr dn ntf wa s
  | .drainJobBegin t => Sys2Proof.Machine.execDrainJobBegin t s
  | .drainRowRead t errs => Sys2Proof.Machine.execDrainRowRead t errs s
  | .drainPieceWrite t => Sys2Proof.Machine.execDrainPieceWrite t s
  | .drainJobComplete t => Sys2Proof.Machine.execDrainJobComplete t s
  | .pcmtNow w => Sys2Proof.Machine.execPcmtNow w s
  | .pcmtArm w => Sys2Proof.Machine.execPcmtArm w s
  | .dpdAccess w read => Sys2Proof.Machine.execDpdAccess w read s
  | .dmaj h eng an => Sys2Proof.Machine.execDmaj h eng an s
  | .tdnew h an di => Sys2Proof.Machine.execTdnew h an di s
  | .tdinv h di all => Sys2Proof.Machine.execTdinv h di all s
  | .otinv h an dn all => Sys2Proof.Machine.execOtinv h an dn all s
  | .tdnewComplete k => Sys2Proof.Machine.execTdnewComplete k s
  | .invalidateComplete k => Sys2Proof.Machine.execInvalidateComplete k s
  | .dmaJobAccept e parS parD => Sys2Proof.Machine.execDmaJobAccept e parS parD s
  | .dmaJobSlotGrant e => Sys2Proof.Machine.execDmaJobSlotGrant e s
  | .dmaBurstIssue e => Sys2Proof.Machine.execDmaBurstIssue e s
  | .dmaJobComplete e => Sys2Proof.Machine.execDmaJobComplete e s
  | .lineMoveComplete e => Sys2Proof.Machine.execLineMoveComplete e s
  | .lineMoveEnable w => Sys2Proof.Machine.execLineMoveEnable w s
  | .creditWaitTimeout e => Sys2Proof.Machine.execCreditWaitTimeout e s
  | .creditTake => Sys2Proof.Machine.execCreditTake s
  | .lsmp h an am ntf ctx => Sys2Proof.Machine.execLsmp h an am ntf ctx s
  | .lrew h an ntf ctx => Sys2Proof.Machine.execLrew h an ntf ctx s
  | .epochEndUpdate => Sys2Proof.Machine.execEpochEndUpdate s
  | .plasticCommit => Sys2Proof.Machine.execPlasticCommit s
  | .plasticCommitDone bad => Sys2Proof.Machine.execPlasticCommitDone bad s
  | .loadLayer w => Sys2Proof.Machine.execLoadLayer w s
  | .erase w => Sys2Proof.Machine.execErase w s
  | .importImg w => Sys2Proof.Machine.execImportImg w s
  | .exportImg w => Sys2Proof.Machine.execExportImg w s
  | .epend w => Sys2Proof.Machine.execEpend w s
  | .lrnEnable w => Sys2Proof.Machine.execLrnEnable w s
  | .lrnOperationDone errs => Sys2Proof.Machine.execLrnOperationDone errs s
  | .plasticRecordSelect => Sys2Proof.Machine.execPlasticRecordSelect s
  | .linkLock l => Sys2Proof.Machine.execLinkLock l s
  | .cameraHeartbeat l => Sys2Proof.Machine.execCameraHeartbeat l s
  | .heartbeatTimeout l => Sys2Proof.Machine.execHeartbeatTimeout l s
  | .hostHeartbeatSend => Sys2Proof.Machine.execHostHeartbeatSend s
  | .streamPacket g p => Sys2Proof.Machine.execStreamPacket g p s
  | .eventPacket l => Sys2Proof.Machine.execEventPacket l s
  | .lineWindowClose g => Sys2Proof.Machine.execLineWindowClose g s
  | .lineLanded g => Sys2Proof.Machine.execLineLanded g s
  | .lineDeadline g => Sys2Proof.Machine.execLineDeadline g s
  | .imageTrigger w => Sys2Proof.Machine.execImageTrigger w s
  | .imageLanded g => Sys2Proof.Machine.execImageLanded g s
  | .mailboxSend w => Sys2Proof.Machine.execMailboxSend w s
  | .mailboxAck tag crcOk data => Sys2Proof.Machine.execMailboxAck tag crcOk data s
  | .mailboxTimeout => Sys2Proof.Machine.execMailboxTimeout s
  | .linkSpeedWrite w => Sys2Proof.Machine.execLinkSpeedWrite w s
  | .groupEnable w => Sys2Proof.Machine.execGroupEnable w s
  | .groupDisable w => Sys2Proof.Machine.execGroupDisable w s
  | .portEnable w => Sys2Proof.Machine.execPortEnable w s
  | .portStateAdvance p => Sys2Proof.Machine.execPortStateAdvance p s
  | .handshakeReceived p h => Sys2Proof.Machine.execHandshakeReceived p h s
  | .frameReceived p f => Sys2Proof.Machine.execFrameReceived p f s
  | .nakReceived p f => Sys2Proof.Machine.execNakReceived p f s
  | .replayTimeout p => Sys2Proof.Machine.execReplayTimeout p s
  | .retrainBegin p => Sys2Proof.Machine.execRetrainBegin p s
  | .retrainComplete p => Sys2Proof.Machine.execRetrainComplete p s
  | .portLost p => Sys2Proof.Machine.execPortLost p s
  | .lostHoldExpiry p => Sys2Proof.Machine.execLostHoldExpiry p s
  | .rdreq p => Sys2Proof.Machine.execRdreq p s
  | .wrreq p => Sys2Proof.Machine.execWrreq p s
  | .stwr p => Sys2Proof.Machine.execStwr p s
  | .regrd p => Sys2Proof.Machine.execRegrd p s
  | .regwr p => Sys2Proof.Machine.execRegwr p s
  | .rdrsp p => Sys2Proof.Machine.execRdrsp p s
  | .wrack p => Sys2Proof.Machine.execWrack p s
  | .ctlm p => Sys2Proof.Machine.execCtlm p s
  | .recf p => Sys2Proof.Machine.execRecf p s
  | .remoteTimeout => Sys2Proof.Machine.execRemoteTimeout s
  | .beatToken => Sys2Proof.Machine.execBeatToken s
  | .heelTokenReceived p bytes fecc fecu => Sys2Proof.Machine.execHeelTokenReceived p bytes fecc fecu s
  | .cascadeTimeAction => Sys2Proof.Machine.execCascadeTimeAction s
  | .listenTimeout => Sys2Proof.Machine.execListenTimeout s
  | .heelLoss => Sys2Proof.Machine.execHeelLoss s
  | .pingSend p => Sys2Proof.Machine.execPingSend p s
  | .pingReceived p f => Sys2Proof.Machine.execPingReceived p f s
  | .echoReceived p f rtt => Sys2Proof.Machine.execEchoReceived p f rtt s
  | .cascadeConfigWrite w => Sys2Proof.Machine.execCascadeConfigWrite w s
  | .pcieMemoryRequest q => Sys2Proof.Machine.execPcieMemoryRequest q s
  | .rconsWrite fn v => Sys2Proof.Machine.execRconsWrite fn v s
  | .cprodWrite fn v => Sys2Proof.Machine.execCprodWrite fn v s
  | .commandFetch fn entry => Sys2Proof.Machine.execCommandFetch fn entry s
  | .egressPoll => Sys2Proof.Machine.execEgressPoll s
  | .resultInterruptTimer fn => Sys2Proof.Machine.execResultInterruptTimer fn s
  | .datagramLingerExpiry p k => Sys2Proof.Machine.execDatagramLingerExpiry p k s
  | .ethFrameReceived p f => Sys2Proof.Machine.execEthFrameReceived p f s
  | .timestampRead w => Sys2Proof.Machine.execTimestampRead w s
  | .gtimeStep w => Sys2Proof.Machine.execGtimeStep w s
  | .functionLevelReset fn => Sys2Proof.Machine.execFunctionLevelReset fn s
  | .hostAccessError fn => Sys2Proof.Machine.execHostAccessError fn s
  | .pcieLinkChange up speed width => Sys2Proof.Machine.execPcieLinkChange up speed width s
  | .ethLinkChange p up => Sys2Proof.Machine.execEthLinkChange p up s
  | .hostRingEnable w => Sys2Proof.Machine.execHostRingEnable w s
  | .kennelDeferral k => Sys2Proof.Machine.execKennelDeferral k s
  | .muzzleWindow => Sys2Proof.Machine.execMuzzleWindow s
  | .ledgerRound => Sys2Proof.Machine.execLedgerRound s
  | .pmbusPoll rs => Sys2Proof.Machine.execPmbusPoll rs s
  | .pmbAlert sw => Sys2Proof.Machine.execPmbAlert sw s
  | .calibrationCheck => Sys2Proof.Machine.execCalibrationCheck s
  | .ledgerConfigWrite w => Sys2Proof.Machine.execLedgerConfigWrite w s
  | .powerOnReset smba => Sys2Proof.Machine.execPowerOnReset smba s
  | .fuseLoadDone => Sys2Proof.Machine.execFuseLoadDone s
  | .pwrgoodRise => Sys2Proof.Machine.execPwrgoodRise s
  | .pwrgoodFall => Sys2Proof.Machine.execPwrgoodFall s
  | .resetNAssert => Sys2Proof.Machine.execResetNAssert s
  | .resetNRelease => Sys2Proof.Machine.execResetNRelease s
  | .resetHeldLimit => Sys2Proof.Machine.execResetHeldLimit s
  | .refclkLoss => Sys2Proof.Machine.execRefclkLoss s
  | .refclkReturn => Sys2Proof.Machine.execRefclkReturn s
  | .swrst w => Sys2Proof.Machine.execSwrst w s
  | .coreDomainRelease mgr => Sys2Proof.Machine.execCoreDomainRelease mgr s
  | .selfTestDone unit ok => Sys2Proof.Machine.execSelfTestDone unit ok s
  | .imageAuthenticated flash => Sys2Proof.Machine.execImageAuthenticated flash s
  | .imageEntry => Sys2Proof.Machine.execImageEntry s
  | .readySet w => Sys2Proof.Machine.execReadySet w s
  | .junctionTempRead tj thbm => Sys2Proof.Machine.execJunctionTempRead tj thbm s
  | .napRequest w => Sys2Proof.Machine.execNapRequest w s
  | .napExitRequest w => Sys2Proof.Machine.execNapExitRequest w s
  | .napExitDone t => Sys2Proof.Machine.execNapExitDone t s
  | .deepRequest w => Sys2Proof.Machine.execDeepRequest w s
  | .deepEntryDone => Sys2Proof.Machine.execDeepEntryDone s
  | .deepWake by_ => Sys2Proof.Machine.execDeepWake by_ s
  | .deepExitDone => Sys2Proof.Machine.execDeepExitDone s
  | .wdtService w => Sys2Proof.Machine.execWdtService w s
  | .wdtExpiry ch => Sys2Proof.Machine.execWdtExpiry ch s
  | .wdtHardTimerExpiry ch => Sys2Proof.Machine.execWdtHardTimerExpiry ch s
  | .swdService w => Sys2Proof.Machine.execSwdService w s
  | .swdExpiry => Sys2Proof.Machine.execSwdExpiry s
  | .wdoPulseEnd => Sys2Proof.Machine.execWdoPulseEnd s
  | .swdEnable w => Sys2Proof.Machine.execSwdEnable w s
  | .watchdogConfigWrite w => Sys2Proof.Machine.execWatchdogConfigWrite w s
  | .dapacc addr wr data => Sys2Proof.Machine.execDapacc addr wr data s
  | .dapstat => Sys2Proof.Machine.execDapstat s
  | .extest => Sys2Proof.Machine.execExtest s
  | .samplePreload => Sys2Proof.Machine.execSamplePreload s
  | .idcode => Sys2Proof.Machine.execIdcode s
  | .bypass => Sys2Proof.Machine.execBypass s
  | .tapReset => Sys2Proof.Machine.execTapReset s
  | .tokenVerify w => Sys2Proof.Machine.execTokenVerify w s
  | .tokenVerifyDone keyOk sigOk => Sys2Proof.Machine.execTokenVerifyDone keyOk sigOk s
  | .dlock w => Sys2Proof.Machine.execDlock w s
  | .testModeWrite w => Sys2Proof.Machine.execTestModeWrite w s
  | .haltRequest w => Sys2Proof.Machine.execHaltRequest w s
  | .coreHalted k => Sys2Proof.Machine.execCoreHalted k s
  | .breakpointHit k => Sys2Proof.Machine.execBreakpointHit k s
  | .haltResume w => Sys2Proof.Machine.execHaltResume w s
  | .haltStep w => Sys2Proof.Machine.execHaltStep w s
  | .debugRegisterAccess w read => Sys2Proof.Machine.execDebugRegisterAccess w read s
  | .tracePacketWrite u => Sys2Proof.Machine.execTracePacketWrite u s
  | .traceSyncTimer u => Sys2Proof.Machine.execTraceSyncTimer u s
  | .traceMark w => Sys2Proof.Machine.execTraceMark w s
  | .traceConfigWrite w => Sys2Proof.Machine.execTraceConfigWrite w s
  | .eventRingWrite => Sys2Proof.Machine.execEventRingWrite s
  | .eventRingRead w => Sys2Proof.Machine.execEventRingRead w s
  | .errEntryClose => Sys2Proof.Machine.execErrEntryClose s
  | .errLogRead w => Sys2Proof.Machine.execErrLogRead w s
  | .faultClear w => Sys2Proof.Machine.execFaultClear w s
  | .floorAssessment => Sys2Proof.Machine.execFloorAssessment s
  | .firmwareUpdatePoll => Sys2Proof.Machine.execFirmwareUpdatePoll s
  | .firmwareUpdate keyOk sigOk hashOk flashOk => Sys2Proof.Machine.execFirmwareUpdate keyOk sigOk hashOk flashOk s
  | .behaviourLevelWrite w => Sys2Proof.Machine.execBehaviourLevelWrite w s
  | .smbusWrite cmd count ofs data badPec => Sys2Proof.Machine.execSmbusWrite cmd count ofs data badPec s
  | .smbusRead cmd count ofs => Sys2Proof.Machine.execSmbusRead cmd count ofs s
  | .smbusTimeout => Sys2Proof.Machine.execSmbusTimeout s
  | .cxcmd h o => Sys2Proof.Machine.execCxcmd h o s
  | .cxfence h rcf ctx => Sys2Proof.Machine.execCxfence h rcf ctx s
  | .customerCmdSend t => Sys2Proof.Machine.execCustomerCmdSend t s
  | .customerRd tag addr len cr => Sys2Proof.Machine.execCustomerRd tag addr len cr s
  | .customerWr tag addr data cr => Sys2Proof.Machine.execCustomerWr tag addr data cr s
  | .customerDone tag code cr => Sys2Proof.Machine.execCustomerDone tag code cr s
  | .customerNop cr retry => Sys2Proof.Machine.execCustomerNop cr retry s
  | .customerBadMessage ndat cr => Sys2Proof.Machine.execCustomerBadMessage ndat cr s
  | .customerCmdTimeout t => Sys2Proof.Machine.execCustomerCmdTimeout t s
  | .customerPortUp rate => Sys2Proof.Machine.execCustomerPortUp rate s
  | .customerPortDown => Sys2Proof.Machine.execCustomerPortDown s
  | .customerPortEnable w => Sys2Proof.Machine.execCustomerPortEnable w s
  | .cxpLinkLockLoss l cerr => Sys2Proof.Machine.execCxpLinkLockLoss l cerr s
  | .pmbAlertRelease => Sys2Proof.Machine.execPmbAlertRelease s
  | .vddAonLoss => Sys2Proof.Machine.execVddAonLoss s
  | .epochEndUpdateDone => Sys2Proof.Machine.execEpochEndUpdateDone s
  | .hbmSrefExitDone st => Sys2Proof.Machine.execHbmSrefExitDone st s

end Sys2Proof.Machine
end

