-- ==== Sys2Proof/Safety.lean ====
section
/-!
DEFINITION. The terms in which claims speak: what a safe step is, when a core is about to issue one bundle and nothing else
happens, and what a bundle that completes leaves alone.
-/
namespace Sys2Proof

/-- A step that ends in a next state. -/
def Safe (s : Machine.State) : Prop := ∃ t, Machine.step s = .next t

/-- The encoding has no second source (R372). -/
def AluOp.oneSource (o : AluOp) : Bool := o.b == .reg 0

/-- A shift count is a register, or an immediate below 32 (R371). -/
def AluOp.shiftOk (o : AluOp) : Bool :=
  match o.b with
  | .reg _ => true
  | .imm i => decide (i.toNat < 32)

/-- The destination of a compare is a predicate below 8, or a data register (R375). -/
def CmpOp.dstOk (o : CmpOp) : Bool := o.dk || decide (o.dst.toNat < 8)

namespace Machine

/-- A command runs on a state and answers a next state whose device meets `post`; the queue stays as it is. -/
def Runs (i : Instr) (s : State) (post : Chip → Prop) : Prop :=
  ∃ t, exec i s = .next t ∧ t.pending = s.pending ∧ post t.chip

/-- A core with its issue bookkeeping blanked: the bundle being put together, and the cycles that its next issue waits
for (R430 to R443). Every register of R296 and R353, the pc, the branch in flight, and the loads and stores under way
remain. -/
def Core.arch (x : Core) : Core :=
  { x with bundle := [], held := false, bpPast := false, issued := 0, ready := 0, vBeat := 0, vPort := 0, waits := [],
           idleAt := 0 }

/-- The core domain runs, and core `k` stands at a bundle boundary of its program with nothing else due: no bundle, load,
store, bus error, loop-back or branch is in flight; no freeze, stop, halt, step or breakpoint is due; its vector unit is
on; no repeat level is active; and no other core and no customer command waits. -/
def Chip.quiet (c : Chip) (k : Nat) : Bool :=
  let x := c.core k
  c.coreUp && c.pwr.deep == 0 && (k == 16 || c.surv k) && c.cores.length == 17 && c.inProgram k x.pc
    && x.run == .run && x.bundle.isEmpty && x.loads.isEmpty && x.posted.isEmpty && x.busErrs.isEmpty && x.badPar.isEmpty
    && !x.loopDue && !x.stopReq && !x.takenBr && !x.inString && x.target.isNone && x.repst == 0
    && !c.coreFrz k && c.haltCause k == 0 && !c.dbg.stepping.contains k && c.rf (R.TRC.TCFG k) 1 0 != 2
    && (k == 16 || c.vOn k)
    && (List.range 17).all (fun j => !(c.core j).held)
    && (List.range 16).all (fun t => (c.custSt t).queue.isEmpty && (c.custSt t).ntf.isEmpty)

/-- A syllable that is the whole of its bundle, in one of its slots, with no reserved bit set and a guard that is true
(R299 to R301, R364). -/
def Chip.alone (c : Chip) (h : Syl) (slots : List Slot) : Bool :=
  c.quiet h.core.val && slots.contains h.slot && !h.rsv && h.last && h.upset.isEmpty && !(h.guard == 0 && h.sense)
    && ((c.core h.core.val).P h.guard.toNat != h.sense)

/-- From `c` to `d` a bundle of core `k` completes: `f` gives the core's registers; every other core, all memory, every
register of the register window and all else the device holds stay, but for the time, the energy meters and the counts of
the watchdogs. -/
structure Completes (c d : Chip) (k : Nat) (f : Core → Core) : Prop where
  core : (d.core k).arch = (f (c.core k)).arch
  others : ∀ j, j ≠ k → d.core j = c.core j
  rest : { d with cores := c.cores, now := c.now, elg := c.elg, wdt := c.wdt } = c

/-- The pc moves on to the next bundle (R295); a repeat level that is active at its end bundle is due to loop back, and on a
quiet core none is. -/
def Core.next (x : Core) : Core := { x with pc := x.pc + 24 }

/-- A register, or an immediate sign-extended to 24 bits (R365, R370). -/
def Core.sextSrc (x : Core) (b : Src) : BitVec 24 :=
  match b with
  | .reg r => x.D r.toNat
  | .imm i => i.signExtend 24

/-- A register, or an immediate zero-extended to 24 bits (R370). -/
def Core.zextSrc (x : Core) (b : Src) : BitVec 24 :=
  match b with
  | .reg r => x.D r.toNat
  | .imm i => i.setWidth 24

/-- An ALU syllable writes `v`; with F its N, Z, C and V; and SAT when it saturated (R298, R370, R373). -/
def Core.alu (x : Core) (o : AluOp) (v : BitVec 24) (c ov sat : Bool) : Core :=
  let y := x.setD o.rd.toNat v
  let fl := if o.f then (x.fl &&& 16) ||| BitVec.ofNat 5 (b2n v.msb + 2 * b2n (v == 0) + 4 * b2n c + 8 * b2n ov) else x.fl
  { y with fl := if sat then fl ||| 16 else fl, pc := x.pc + 24 }

/-- A compare writes its result to a predicate, or as 1 or 0 to a data register (R375). -/
def Core.compared (x : Core) (o : CmpOp) (r : Bool) : Core :=
  (if o.dk then x.setD o.dst.toNat (BitVec.ofNat 24 (b2n r)) else x.setP o.dst.toNat r).next

/-- A signed number lies outside the 24-bit range (R298). -/
def out24 (n : Int) : Bool := decide (n < -8388608) || decide (8388607 < n)

/-- A signed number clamped to the 24-bit range (R365). -/
def clamp24 (n : Int) : BitVec 24 := BitVec.ofInt 24 (max (-8388608) (min 8388607 n))

/-! ### What a command leaves alone -/

/-- The core domain is out of reset and not in DEEP (R139, R909). -/
def Chip.awake (c : Chip) : Bool := c.coreUp && c.pwr.deep == 0

/-- No core holds a bundle and no customer command waits: nothing is tried again when a command ends (R215, R332, R411). -/
def Chip.noneWaits (c : Chip) : Bool :=
  (List.range 17).all (fun j => !(c.core j).held)
    && (List.range 16).all (fun t => (c.custSt t).queue.isEmpty && (c.custSt t).ntf.isEmpty)

/-- The core domain runs, and nothing waits. -/
def Chip.calm (c : Chip) : Bool := c.awake && c.noneWaits

/-- A requester that can send: an enabled virtual function, or any other (R139, R804). -/
def Chip.canSend (c : Chip) (who : Who) : Bool :=
  c.awake && c.pwr.porDone && (match who with | .vf n => c.rb (R.PCI.VFMAP1 + 4 * n.val) 8 | _ => true)

/-- A register write is performed: nothing in R140 or R924 refuses it, and nothing else waits. -/
def Chip.takes (c : Chip) (w : RegWr) : Bool :=
  c.canSend w.who && c.noneWaits && (c.writeRefusal w.who w.ofs.toNat false).isNone

/-- A register read is performed: nothing in R140 refuses it. -/
def Chip.gives (c : Chip) (w : RegRd) : Bool :=
  c.canSend w.who && (c.regRefusal w.who w.ofs.toNat false false).isNone

/-- A register that the reporting of a code writes: one of a page header (R109 to R112, R121), ERR.ESTAT and ELOST (R984),
AON.FSRC and EVLOST (R966, R1001), or a trace unit's TLOST (R963). -/
def reportKey (key : Nat) : Bool :=
  decide (key % 0x1000 < 0x40) || key == R.ERR.ESTAT || key == R.ERR.ELOST || key == R.AON.FSRC || key == R.AON.EVLOST ||
    (decide (0x710C ≤ key) && decide (key < 0x7300) && key % 16 == 12)

/-- The registers of a list. -/
def keys (l : List Nat) : Nat → Bool := fun k => l.contains k

/-- The registers of a page. -/
def page (slot : Nat) : Nat → Bool := fun k => k / 0x1000 == slot

/-- Put back what a command leaves behind beside its effect: the time, the pauses of the watchdogs' counts, and the halves
and sequences that a requester's next access uses up (R99, R100, R115). -/
def Chip.plain (c d : Chip) : Chip :=
  { d with now := c.now, wdt := c.wdt
           bus := { d.bus with cap := c.bus.cap, held := c.bus.held, unlk := c.bus.unlk } }

/-- From `c` to `d` nothing differs but the registers for which `own` holds and the parts that `un` puts back. -/
structure Only (c d : Chip) (own : Nat → Bool) (un : Chip → Chip) : Prop where
  rest : { c.plain (un d) with regs := c.regs } = c
  regs : ∀ key, own key = false → d.r key = c.r key

/-- From `c` to `d` nothing differs but the registers for which `own` holds, the parts that `un` puts back, and what the
reporting of a code writes: registers of `reportKey`, the error aggregator, the AON event ring, the trace FIFOs, pending
interrupts and messages to the host, and records for the egress (R109, R966, R975, R982 to R988). -/
structure Within (c d : Chip) (own : Nat → Bool) (un : Chip → Chip) : Prop where
  rest : { c.plain (un d) with
             regs := c.regs, err := c.err, ev := c.ev, trace := c.trace, netEv := c.netEv, msixTab := c.msixTab, out := c.out
             bus := { (c.plain (un d)).bus with once := c.bus.once } } = c
  regs : ∀ key, own key = false → reportKey key = false → d.r key = c.r key

/-! ### What a bundle or an exception does beyond its registers -/

/-- From `c` to `d` core `k` changes as `f` says, every other core stays, and beside the energy meters only the registers for
which `own` holds and the parts that `un` puts back differ. -/
structure Issued (c d : Chip) (k : Nat) (f : Core → Core) (own : Nat → Bool) (un : Chip → Chip) : Prop where
  core : (d.core k).arch = (f (c.core k)).arch
  others : ∀ j, j ≠ k → d.core j = c.core j
  within : Within c d own fun d => { un d with cores := c.cores, elg := c.elg }

/-- A quiet core meets a syllable that is the whole of its bundle, whatever its slot, guard and reserved bits. -/
def Chip.bare (c : Chip) (h : Syl) : Bool := c.quiet h.core.val && h.last && h.upset.isEmpty

/-- The status word that an entry saves (R319, R353): FL, P1 to P7, PRIV, IE and BD. -/
def Core.status (x : Core) : BitVec 16 :=
  BitVec.ofNat 16 (x.fl.toNat + x.p.toNat / 2 * 32 + b2n x.priv * 4096 + b2n x.ie * 8192 + b2n x.target.isSome * 16384)

/-- What every entry does (R319, R323, R326, R327): supervisor privilege, interrupts off, the branch in flight saved, and the
pc at a vector, 96 bytes apart. -/
def Core.enter (x : Core) (vec : Nat) : Core :=
  { x with ebt := x.target.getD x.ebt, priv := true, ie := false, pc := x.ivb + BitVec.ofNat 48 (96 * vec), target := none
           takenBr := false, inString := false, strData := [] }

/-- Entry of an exception (R319): EPC, ECAUSE with the slot, EADDR where there is an address, ESTAT, and EXL. -/
def Core.entry (x : Core) (code slot vec : Nat) (addr : Option (BitVec 48)) (epc : BitVec 48) : Core :=
  { x.enter vec with epc := epc, ecause := BitVec.ofNat 20 (code + slot * 2 ^ 16), eaddr := addr.getD x.eaddr, estat := x.status
                     exl := true }

/-- The registers that mirror the cause and address of a core's last exception (R355). -/
def mirrorKeys (k : Nat) : List Nat :=
  if k = 16 then [R.CC.LCAUSE, R.CC.EPCM_LO, R.CC.EPCM_LO + 4] else [R.TILE.LCAUSE k, R.TILE.EPCM_LO k, R.TILE.EPCM_LO k + 4]

/-- An exception of a core is taken by the core itself: no double exception, and no kennel fault under XKF (R324, R325). -/
def Chip.takesExc (c : Chip) (k : Nat) : Bool :=
  !(c.core k).exl && (k == 16 || !c.rb (R.TILE.CCTL k) 2)

/-- `n` bytes from an address of this device lie in core `k`'s own scratchpad, in lines that the bank map gives to the
vector port; the scratchpad is there; no unit of memory holds an error; and no access of the core waits on a ring. -/
def Chip.plainSp (c : Chip) (k a n : Nat) : Bool :=
  decide (k < 16) && c.ownWindow a n == a && c.regionOf a n == .sp k && (c.unavailable (.sp k) a n).isNone && c.ecc.isEmpty
    && (Chip.linesOf (a - spBase k) n).all (fun l => c.lineSay k 1 l == some none)
    && (List.range 16).all (fun x => (c.ring k x).stalls.isEmpty)

/-- The same through another port: 2 for the array and drain, 3 for DMA (R189, R190). -/
def Chip.portSp (c : Chip) (k p a n : Nat) : Bool :=
  decide (k < 16) && c.ownWindow a n == a && c.regionOf a n == .sp k && (c.unavailable (.sp k) a n).isNone && c.ecc.isEmpty
    && (Chip.linesOf (a - spBase k) n).all (fun l => c.lineSay k p l == some none)
    && (List.range 16).all (fun x => (c.ring k x).stalls.isEmpty)

/-- `n` bytes from an address of this device lie in the control core's memory, and no unit of memory holds an error. -/
def Chip.plainCc (c : Chip) (a n : Nat) : Bool := c.ownWindow a n == a && c.regionOf a n == .ccMem && c.ecc.isEmpty

/-- The bytes from an address of a region on are `bs`, and no other byte of memory has changed (R92). -/
def Chip.Stored (c d : Chip) (g : Region) (a : Nat) (bs : List (BitVec 8)) : Prop :=
  (∀ i, i < bs.length → d.getByte g (a + i) = nth 0 bs i) ∧
    ∀ j, (∀ i, i < bs.length → c.locOf g (a + i) ≠ j) → d.mem.byte j = c.mem.byte j

/-! ### What the learning engine works on -/

/-- The learning engine reaches every byte of HBM from `lo` to `hi` (R148, R698). -/
def Chip.lrnReaches (c : Chip) (lo hi : Nat) : Prop :=
  ∀ a n wr, 0 < n → lo ≤ a → a + n ≤ hi →
    c.ownWindow a n = a ∧ c.regionOf a n = .hbm ∧ c.fence c.lrnk .hbm a n wr = none ∧ c.unavailable .hbm a n = none

/-- The exponent and mantissas of each block of a row of `nb` BS8 blocks in HBM (R488, R489). -/
def Chip.blocks (c : Chip) (a nb : Nat) : List (Nat × List (BitVec 8)) :=
  (List.range nb).map fun i => ((c.getByte .hbm (a + i / 64 * 2112 + i % 64)).toNat, c.getBytes .hbm (a + i / 64 * 2112 + 64 + 32 * (i % 64)) 32)

/-- Weight, trace and gradient rows as real values, and a prototype's row of the work area (R487, R674, R698). -/
def Chip.wVals (c : Chip) (p : Nat) : List Fv := rowVals (sw24 (c.rf R.LRN.WSCL 23 0)) (c.blocks (c.wRow p) (c.nin / 32))
def Chip.eVals (c : Chip) (p : Nat) : List Fv := rowVals (sw24 (c.rf R.LRN.TSCL 23 0)) (c.blocks (c.eRow p) (c.nin / 32))
def Chip.gVals (c : Chip) (p : Nat) : List Fv := rowVals (sw24 (c.rf R.LRN.GSCL 23 0)) (c.blocks (c.gRow p) (c.nin / 32))

/-- The engine is READY with EN, holds nothing, and can take a command; its layer has a legal geometry (R672, R697). -/
def Chip.lrnFree (c : Chip) : Bool :=
  c.lstate == 2 && c.rb R.LRN.LCTL 0 && c.lrn.queue.isEmpty && !c.lrnHeld && c.ecc.isEmpty && Chip.geoOk c.nin c.nproto && c.lwbase % 0x100000 == 0

/-! ### What a vector bundle does -/

/-- From `c` to `d` a vector bundle of tile core `k` completes: the V, VA and M registers for which `v`, `va` and `m` hold may change,
FL.SAT is set with `sat`, and nothing else changes. -/
structure Chip.Vectored (c d : Chip) (k : Nat) (sat : Bool) (v va m : Nat → Bool) : Prop where
  done : Completes c d k fun x =>
    { x with v := (d.core k).v, va := (d.core k).va, m := (d.core k).m, fl := if sat then x.fl ||| 16 else x.fl, pc := x.pc + 24 }
  vs : ∀ r, v r = false → (d.core k).V r = (c.core k).V r
  vas : ∀ r, va r = false → (d.core k).VA r = (c.core k).VA r
  ms : ∀ r, m r = false → (d.core k).M r = (c.core k).M r

/-- A register of a group (R425). -/
def inGroup (r : BitVec 5) (n : Nat) : Nat → Bool := fun j => decide (r.toNat ≤ j) && decide (j < r.toNat + n)

/-- Each active lane of the `n` registers from `vd` on, `w` bytes wide, takes the low bits of `f`, and each other lane stays; FL.SAT is
set when an active lane saturated (R424 to R428). -/
structure Chip.Lanes (c d : Chip) (k w : Nat) (vd : BitVec 5) (n : Nat) (m : BitVec 384) (f : Nat → Nat → Nat × Bool) : Prop where
  lanes : ∀ r i, r < n → i < 384 / w → laneAt ((d.core k).V (vd.toNat + r)).toNat (8 * w) i =
    if active m w i then (f r i).1 % 2 ^ (8 * w) else laneAt ((c.core k).V (vd.toNat + r)).toNat (8 * w) i
  frame : Chip.Vectored c d k ((List.range n).any fun r => (List.range (384 / w)).any fun i => active m w i && (f r i).2) (inGroup vd n)
    (fun _ => false) (fun _ => false)

/-- The same of the double-width lanes of one VA register (R426, R457). -/
structure Chip.AccLanes (c d : Chip) (k w : Nat) (vd : BitVec 5) (m : BitVec 384) (f : Nat → Nat × Bool) : Prop where
  lanes : ∀ i, i < 384 / w → laneAt ((d.core k).VA vd.toNat).toNat (16 * w) i =
    if active m w i then (f i).1 % 2 ^ (16 * w) else laneAt ((c.core k).VA vd.toNat).toNat (16 * w) i
  frame : Chip.Vectored c d k ((List.range (384 / w)).any fun i => active m w i && (f i).2) (fun _ => false) (fun j => j == vd.toNat)
    (fun _ => false)

/-- A core's vector registers are all there. -/
def Core.vecWf (x : Core) : Bool := x.v.length == 32 && x.m.length == 8 && x.va.length == 4

end Machine

open Machine

/-- The lane type, destination, group length and mask of an integer vector ALU syllable, and its operands as integers (R451). -/
def VAlu.ty (o : VAlu) : LaneTy := match o with | .reg o => laneOr o.t | .imm o => laneOr o.t
def VAlu.vd (o : VAlu) : BitVec 5 := match o with | .reg o => o.vd | .imm o => o.vd
def VAlu.n (o : VAlu) : Nat := match o with | .reg o => 2 ^ o.g.toNat | .imm _ => 1
def VAlu.mask (o : VAlu) : BitVec 3 := match o with | .reg o => o.mask | .imm o => o.mask
def VAlu.a (o : VAlu) (x : Core) (r i : Nat) : Int :=
  let va := match o with | .reg o => o.va.toNat + r | .imm o => o.va.toNat
  intOf o.ty.signed o.ty.bits (laneAt (x.V va).toNat o.ty.bits i)
def VAlu.b (o : VAlu) (x : Core) (r i : Nat) : Int :=
  match o with
  | .reg p => intOf o.ty.signed o.ty.bits (laneAt (x.V (p.vb.toNat + r)).toNat o.ty.bits i)
  | .imm p => if p.t = 0 ∨ p.t = 2 then p.imm.toNat else p.imm.toInt

/-- A group field and register are legal (R297, R448). -/
def grouped (g : BitVec 2) (r : BitVec 5) : Bool := decide (g.toNat < 3) && r.toNat % 2 ^ g.toNat == 0

/-- The encoding of an integer vector ALU syllable is legal: an integer type, aligned groups, and an immediate that the type holds, or
a shift count up to 31 (R448, R451). -/
def VAlu.legal (o : VAlu) (one shift : Bool) : Bool :=
  match o with
  | .reg o => decide (o.t.toNat < 5) && o.x == 0 && grouped o.g o.vd && grouped o.g o.va
      && (if one then o.vb == 0 else grouped o.g o.vb)
  | .imm p => decide (p.t.toNat < 5) && !one && (if shift then decide (p.imm.toNat ≤ 31)
      else decide (intLo o.ty.signed o.ty.bits ≤ o.b { } 0 0) && decide (o.b { } 0 0 ≤ intHi o.ty.signed o.ty.bits))

end Sys2Proof
end

