-- ==== Sys2Proof/Certificates/Slice0/Obligations.lean ====
section
/-!
DEFINITION. The statements for the provers.
-/
open Sys2Proof Sys2Proof.Machine

/-- A step runs the command at the front of the queue on the state with the queue's rest. With no command waiting one MCLK cycle (five sixths of
a nanosecond, R11) passes and nothing else changes: that an empty queue passes a cycle is the model's choice (log entry 1). -/
def Obligations.StepRunsTheFrontCommandOrPassesACycle : Prop :=
  (∀ (i : Instr) (s : State), Machine.step { s with pending := i :: s.pending } = exec i s) ∧
    ∀ s : State, s.pending = [] → Machine.step s = .next { s with chip := { s.chip with now := s.chip.now + 5 } }

/-- R15: after power-on reset every register of the register window holds the reset value of its table row, the memories hold nothing,
no command waits, and no core runs: the tile cores are STOPPED (R349), the control core's pc is the boot ROM (R361). The core
domain is in reset (R890).
The part and its fuses (log entry 7), empty memories that read 0 (entry 4) and the reset values of internal state that the spec does not give (entry 8) are the model's choice. -/
def Obligations.ResetLeavesEveryRegisterAtItsResetValue : Prop :=
  let c := State.reset.chip
  (∀ key, c.r key = resetOf key) ∧ (∀ a, c.mem.byte a = 0) ∧ c.mem.wf = true ∧ State.reset.pending = [] ∧ c.coreUp = false ∧
    (∀ k, k < 17 → (c.core k).run = .stopped ∧ (c.core k).priv = true ∧ (c.core k).P 0 = true ∧ (∀ r, (c.core k).D r = 0)) ∧
    (c.core 16).pc = 0x80000000 ∧ (∀ k, k < 8 → c.r (R.TICK.KSLOT k) = 0x4B000) ∧ c.fnum = 0 ∧
    (∀ slot, slot < 0x130 → (pageOf slot).isSome = true → c.rb (R.H.POWN slot) 3 = true)

/-- R5, R14: every step of every state ends in a next state: no command is refused and none stops the device. No step changes the fuse block, so
the part, its step and its scratchpad size stay legal ones; and a step takes just the front command from the queue. -/
def Obligations.EveryStepAnswersANextStateAndKeepsTheFuseBlock : Prop :=
  (∀ s : State, Safe s) ∧
  ∀ s t : State, Machine.step s = .next t →
    t.chip.fuse = s.chip.fuse ∧ t.pending = s.pending.tail ∧
    ((s.chip.tiles = 8 ∨ s.chip.tiles = 16) ∧ t.chip.tiles = s.chip.tiles ∧ t.chip.stackCnt = s.chip.stackCnt ∧
      t.chip.spSize = s.chip.spSize)

/-- R921, R922, R928, R945: every step keeps the pauses of the watchdogs' counts in line with what their cores do: a channel whose count runs is paused
just when the state of its core, tile or device says so. -/
def Obligations.EveryStepKeepsTheWatchdogPausesInLine : Prop :=
  ∀ s t : State,
    (∀ i, i < 18 → (nth {} s.chip.wdt i).running = true → (nth {} s.chip.wdt i).paused = s.chip.wdtPaused i) →
    Machine.step s = .next t →
    ∀ i, i < 18 → (nth {} t.chip.wdt i).running = true → (nth {} t.chip.wdt i).paused = t.chip.wdtPaused i

/-- The invariants hold at reset: the part is one of R1's, and no watchdog counts. -/
def Obligations.TheInvariantsHoldAtReset : Prop :=
  (∀ i, i < 18 → (nth {} State.reset.chip.wdt i).running = true →
    (nth {} State.reset.chip.wdt i).paused = State.reset.chip.wdtPaused i) ∧ State.reset.chip.tiles = 16


/-- R370, R371, R374: the sums, logic, shifts, minima, maxima and moves of the ALU, with the carry, overflow and saturation they
give. On a quiet core a bundle of one of them writes D[RD] and, with F, N, Z, C and V; SAT only when it saturates; and nothing else.
A shift by 24 or more gives 0, or 24 copies of bit 23 for SAR; C is the last bit shifted out, 0 for a count of 0, and beyond 24
bit 23 for SAR and 0 for the others. -/
def Obligations.AluSyllablesWriteResultAndFlags : Prop :=
  ∀ (s : State) (h : Syl) (o : AluOp), s.chip.alone h [.s, .m] = true →
    let k := h.core.val
    let x := s.chip.core k
    let a := x.D o.ra.toNat
    let b := x.sextSrc o.b
    let u := x.zextSrc o.b
    let n := u.toNat
    let ci := b2n (x.fl.getLsbD 2)
    let plain (i : Instr) (v : BitVec 24) : Prop := Runs i s fun d => Completes s.chip d k fun x => x.alu o v false false false
    (Runs (.add h o) s fun d => Completes s.chip d k fun x =>
      x.alu o (a + b) (decide (2 ^ 24 ≤ a.toNat + b.toNat)) (out24 (a.toInt + b.toInt)) false) ∧
    (Runs (.sub h o) s fun d => Completes s.chip d k fun x =>
      x.alu o (a - b) (decide (b.toNat ≤ a.toNat)) (out24 (a.toInt - b.toInt)) false) ∧
    (Runs (.addc h o) s fun d => Completes s.chip d k fun x =>
      x.alu o (a + b + BitVec.ofNat 24 ci) (decide (2 ^ 24 ≤ a.toNat + b.toNat + ci)) (out24 (a.toInt + b.toInt + ci)) false) ∧
    (Runs (.subc h o) s fun d => Completes s.chip d k fun x =>
      x.alu o (a - b - BitVec.ofNat 24 (1 - ci)) (decide (b.toNat + (1 - ci) ≤ a.toNat))
        (out24 (a.toInt - b.toInt - (1 - ci : Nat))) false) ∧
    (Runs (.adds h o) s fun d => Completes s.chip d k fun x =>
      x.alu o (clamp24 (a.toInt + b.toInt)) false (out24 (a.toInt + b.toInt)) (out24 (a.toInt + b.toInt))) ∧
    (Runs (.subs h o) s fun d => Completes s.chip d k fun x =>
      x.alu o (clamp24 (a.toInt - b.toInt)) false (out24 (a.toInt - b.toInt)) (out24 (a.toInt - b.toInt))) ∧
    (o.oneSource = true → Runs (.abs h o) s fun d => Completes s.chip d k fun x =>
      x.alu o (clamp24 a.toInt.natAbs) false (out24 a.toInt.natAbs) (out24 a.toInt.natAbs)) ∧
    (o.oneSource = true → Runs (.neg h o) s fun d => Completes s.chip d k fun x =>
      x.alu o (-a) (a == 0) (out24 (-a.toInt)) false) ∧
    plain (.andD h o) (a &&& u) ∧ plain (.orD h o) (a ||| u) ∧ plain (.xorD h o) (a ^^^ u) ∧ plain (.andn h o) (a &&& ~~~ u) ∧
    plain (.minD h o) (if a.slt b then a else b) ∧ plain (.maxD h o) (if a.slt b then b else a) ∧
    plain (.minu h o) (if a.ult u then a else u) ∧ plain (.maxu h o) (if a.ult u then u else a) ∧
    (o.oneSource = true → plain (.mov h o) a) ∧
    (o.shiftOk = true →
      (Runs (.shl h o) s fun d => Completes s.chip d k fun x =>
        x.alu o (BitVec.ofNat 24 (a.toNat * 2 ^ n)) (decide (0 < n ∧ n ≤ 24) && a.getLsbD (24 - n)) false false) ∧
      (Runs (.shr h o) s fun d => Completes s.chip d k fun x =>
        x.alu o (BitVec.ofNat 24 (a.toNat / 2 ^ n)) (decide (0 < n ∧ n ≤ 24) && a.getLsbD (n - 1)) false false) ∧
      (Runs (.sar h o) s fun d => Completes s.chip d k fun x =>
        x.alu o (BitVec.ofInt 24 (a.toInt / 2 ^ n)) (decide (0 < n) && a.getLsbD (min n 24 - 1)) false false)) ∧
    (∀ p : ImmOp, Runs (.movi h p) s fun d => Completes s.chip d k fun x => (x.setD p.rd.toNat p.imm).next)

/-- R375, R376, R296: a compare writes its condition to a predicate, or as 1 or 0 to a data register; predicate logic writes PD; a
write to P0 is discarded and P0 reads 1. FL never changes. -/
def Obligations.ComparesAndPredicatesWriteTheirCondition : Prop :=
  ∀ (s : State) (h : Syl), s.chip.alone h [.s] = true →
    let k := h.core.val
    let x := s.chip.core k
    (∀ o : CmpOp, o.dstOk = true →
      let a := x.D o.ra.toNat
      let b := x.sextSrc o.b
      let u := x.zextSrc o.b
      let cmp (i : Instr) (r : Bool) : Prop := Runs i s fun d => Completes s.chip d k fun x => x.compared o r
      cmp (.cmpeq h o) (a == b) ∧ cmp (.cmpne h o) (a != b) ∧
      cmp (.cmplt h o) (a.slt b) ∧ cmp (.cmple h o) (a.sle b) ∧ cmp (.cmpgt h o) (b.slt a) ∧ cmp (.cmpge h o) (b.sle a) ∧
      cmp (.cmpltu h o) (a.ult u) ∧ cmp (.cmpleu h o) (a.ule u) ∧ cmp (.cmpgtu h o) (u.ult a) ∧ cmp (.cmpgeu h o) (u.ule a)) ∧
    (∀ o : PlgOp,
      let a := x.P o.pa.toNat
      let b := x.P o.pb.toNat
      let log (i : Instr) (r : Bool) : Prop := Runs i s fun d => Completes s.chip d k fun x => (x.setP o.pd.toNat r).next
      log (.pand h o) (a && b) ∧ log (.por h o) (a || b) ∧ log (.pxor h o) (xor a b) ∧ log (.pandn h o) (a && !b) ∧
      (o.pb = 0 → log (.pnot h o) (!a) ∧ log (.pmov h o) a)) ∧
    x.P 0 = true ∧ ∀ r, x.setP 0 r = x

/-- R377 to R379: products, multiply-accumulate modulo 2^72, and the reads, writes, saturation and rounding of an accumulator. FL
does not change but for SAT, which XSAT and XRND set when the shifted value lies outside the 24-bit range. -/
def Obligations.MultipliesUpdateDataRegistersAndAccumulators : Prop :=
  ∀ (s : State) (h : Syl) (rd ra rb : BitVec 5) (xd xa : BitVec 5) (sh : BitVec 6) (part : BitVec 2),
    s.chip.alone h [.s] = true → xd.toNat < 8 → xa.toNat < 8 → sh.toNat ≤ 48 → part.toNat < 3 →
    let k := h.core.val
    let x := s.chip.core k
    let a := x.D ra.toNat
    let b := x.D rb.toNat
    let p := 24 * part.toNat
    let wd (i : Instr) (v : BitVec 24) : Prop := Runs i s fun d => Completes s.chip d k fun x => (x.setD rd.toNat v).next
    let wx (i : Instr) (v : BitVec 72) : Prop := Runs i s fun d => Completes s.chip d k fun x => (x.setX xd.toNat v).next
    let sat (i : Instr) (n : Int) : Prop := Runs i s fun d => Completes s.chip d k fun x =>
      ({ x.setD rd.toNat (clamp24 n) with fl := if out24 n then x.fl ||| 16 else x.fl } : Core).next
    let v := (x.X xa.toNat).toInt
    wd (.mul h { rd := rd, ra := ra, rb := rb }) (a * b) ∧
    wd (.mulh h { rd := rd, ra := ra, rb := rb }) (BitVec.ofInt 24 (a.toInt * b.toInt / 2 ^ 24)) ∧
    wd (.mulhu h { rd := rd, ra := ra, rb := rb }) (BitVec.ofNat 24 (a.toNat * b.toNat / 2 ^ 24)) ∧
    wx (.mac h { rd := xd, ra := ra, rb := rb }) (x.X xd.toNat + BitVec.ofInt 72 (a.toInt * b.toInt)) ∧
    wx (.macu h { rd := xd, ra := ra, rb := rb }) (x.X xd.toNat + BitVec.ofNat 72 (a.toNat * b.toNat)) ∧
    wx (.msu h { rd := xd, ra := ra, rb := rb }) (x.X xd.toNat - BitVec.ofInt 72 (a.toInt * b.toInt)) ∧
    wx (.xclr h { rd := xd, ra := 0, rb := 0 }) 0 ∧
    wd (.xrd h { rd := rd, ra := xa, rb := 0, part := part }) ((x.X xa.toNat).extractLsb' p 24) ∧
    (Runs (.xwr h { rd := xd, ra := ra, rb := 0, part := part }) s fun d => Completes s.chip d k fun x =>
      (x.setX xd.toNat (BitVec.ofNat 72 ((x.X xd.toNat).toNat / 2 ^ (p + 24) * 2 ^ (p + 24) + a.toNat * 2 ^ p
        + (x.X xd.toNat).toNat % 2 ^ p))).next) ∧
    sat (.xsat h { rd := rd, ra := xa, rb := 0, sh := sh }) (v / 2 ^ sh.toNat) ∧
    sat (.xrnd h { rd := rd, ra := xa, rb := 0, sh := sh }) ((if sh = 0 then v else v + 2 ^ (sh.toNat - 1)) / 2 ^ sh.toNat)

/-- R380 to R382: field extraction and insertion, the leading zeros of a word, and the byte permutation. FL does not change. -/
def Obligations.BitFieldsWriteTheirDestination : Prop :=
  ∀ (s : State) (h : Syl) (rd ra rb pos lenm1 : BitVec 5) (sel : BitVec 9),
    s.chip.alone h [.s] = true → pos.toNat + lenm1.toNat < 24 →
    let k := h.core.val
    let x := s.chip.core k
    let a := x.D ra.toNat
    let b := x.D rb.toNat
    let len := lenm1.toNat + 1
    let f := a.toNat / 2 ^ pos.toNat % 2 ^ len
    let src (i : Nat) : Nat := ([a.toNat % 256, a.toNat / 256 % 256, a.toNat / 65536, b.toNat % 256, b.toNat / 256 % 256,
      b.toNat / 65536, 0, 255]).getD i 0
    let pick (i : Nat) : Nat := src (sel.toNat / 8 ^ i % 8)
    let wd (i : Instr) (v : BitVec 24) : Prop := Runs i s fun d => Completes s.chip d k fun x => (x.setD rd.toNat v).next
    wd (.fext h { rd := rd, ra := ra, pos := pos, lenm1 := lenm1 }) (BitVec.ofNat 24 f) ∧
    wd (.fexts h { rd := rd, ra := ra, pos := pos, lenm1 := lenm1 })
      (BitVec.ofInt 24 (if f < 2 ^ lenm1.toNat then (f : Int) else f - 2 ^ len)) ∧
    (∃ v : BitVec 24, wd (.fins h { rd := rd, ra := ra, pos := pos, lenm1 := lenm1 }) v ∧
      ∀ i, v.getLsbD i = if pos.toNat ≤ i ∧ i < pos.toNat + len then a.getLsbD (i - pos.toNat) else (x.D rd.toNat).getLsbD i) ∧
    (∃ v : BitVec 24, wd (.clz h { rd := rd, ra := ra }) v ∧ v.toNat ≤ 24 ∧ a.toNat < 2 ^ (24 - v.toNat) ∧
      (v.toNat < 24 → 2 ^ (23 - v.toNat) ≤ a.toNat)) ∧
    wd (.bperm h { rd := rd, ra := ra, rb := rb, sel := sel }) (BitVec.ofNat 24 (pick 0 + 256 * pick 1 + 65536 * pick 2))

/-- R391: the address syllables; sums are modulo 2^48 and D sources are sign-extended. -/
def Obligations.AddressSyllablesWriteTheirRegister : Prop :=
  ∀ (s : State) (h : Syl) (ad rs : BitVec 4) (rd dm : BitVec 5) (imm : BitVec 17) (imm24 : BitVec 24) (sc : Fin 5),
    s.chip.alone h [.m] = true →
    let k := h.core.val
    let x := s.chip.core k
    let d5 := ad.setWidth 5
    let r5 := rs.setWidth 5
    let a := x.A rs.toNat
    let dv := (x.D dm.toNat).signExtend 48
    let scale : Nat := [1, 2, 3, 4, 8].getD sc.val 1
    let wa (i : Instr) (v : BitVec 48) : Prop := Runs i s fun d => Completes s.chip d k fun x => (x.setA ad.toNat v).next
    let wd (i : Instr) (v : BitVec 24) : Prop := Runs i s fun d => Completes s.chip d k fun x => (x.setD rd.toNat v).next
    wa (.mova h { rd := d5, rs := r5 }) a ∧
    wa (.adda h { rd := d5, rs := r5, imm := imm }) (a + imm.signExtend 48) ∧
    wa (.addad h { rd := d5, rs := r5, dm := dm }) (a + dv) ∧
    wa (.subad h { rd := d5, rs := r5, dm := dm }) (a - dv) ∧
    wa (.moval h { rd := d5, imm := imm24 }) (imm24.setWidth 48) ∧
    wa (.movau h { rd := d5, imm := imm24 }) (imm24 ++ (x.A ad.toNat).setWidth 24) ∧
    wa (.movda h { rd := d5, rs := dm }) dv ∧
    wd (.movad h { rd := rd, rs := r5 }) (a.setWidth 24) ∧
    wd (.movah h { rd := rd, rs := r5 }) (a.extractLsb' 24 24) ∧
    wa (.lea h { rd := d5, rs := r5, dm := dm, imm := BitVec.ofNat 17 sc.val }) (a + dv * BitVec.ofNat 48 scale)

/-- R393 to R395, R310, R312, R398: a taken branch waits for its delay bundle with its target, CALL and CALLR write the address of the
bundle after that; REPB sets up its level, or with a count of 0 skips its block. -/
def Obligations.BranchesAndRepeatsSetUpControlFlow : Prop :=
  ∀ (s : State) (h : Syl) (al at_ : BitVec 4) (ofs : BitVec 24) (lvl : Bool) (lenm1 : BitVec 12) (n : BitVec 24) (cr : BitVec 5),
    s.chip.alone h [.s] = true →
    let k := h.core.val
    let x := s.chip.core k
    let rel := x.pc + ofs.signExtend 48 * 24
    let taken (x : Core) (t : BitVec 48) : Core := { x with pc := x.pc + 24, target := some t, takenBr := true, brPc := x.pc }
    let arm (x : Core) (n : BitVec 24) : Core :=
      if n = 0 then { x with pc := x.pc + BitVec.ofNat 48 (24 * (lenm1.toNat + 2)) }
      else ({ x with ls := x.ls.set (b2n lvl) (x.pc + 24), le := x.le.set (b2n lvl) (x.pc + BitVec.ofNat 48 (24 * (lenm1.toNat + 1))),
                     lc := x.lc.set (b2n lvl) n, repst := x.repst ||| BitVec.ofNat 2 (2 ^ b2n lvl),
                     pc := x.pc + 24, loopDue := false } : Core)
    (Runs (.bra h { al := 0, ofs := ofs }) s fun d => Completes s.chip d k fun x => taken x rel) ∧
    (Runs (.call h { al := al, ofs := ofs }) s fun d => Completes s.chip d k fun x => taken (x.setA al.toNat (x.pc + 48)) rel) ∧
    (Runs (.br h { al := 0, at_ := at_ }) s fun d => Completes s.chip d k fun y => taken y (x.A at_.toNat)) ∧
    (Runs (.callr h { al := al, at_ := at_ }) s fun d => Completes s.chip d k fun y =>
      taken (y.setA al.toNat (y.pc + 48)) (x.A at_.toNat)) ∧
    (x.ls.length = 2 → x.le.length = 2 → x.lc.length = 2 →
      (Runs (.repb h { lvl := lvl, cs := false, lenm1 := lenm1, count := n }) s fun d => Completes s.chip d k fun x => arm x n) ∧
      (Runs (.repb h { lvl := lvl, cs := true, lenm1 := lenm1, count := cr.setWidth 24 }) s fun d =>
        Completes s.chip d k fun y => arm y (x.D cr.toNat)))


/-- R300 to R302: a syllable whose guard is false has no effect but the pc's advance; the two syllables of a bundle read the registers as they
were before it; NOP does nothing.
What a false guard suppresses is the model's reading (log entry 10). -/
def Obligations.BundlesReadOldValuesAndGuardsSelect : Prop :=
  ∀ (s : State) (h h' : Syl) (o o' : AluOp),
    let c := s.chip
    let k := h.core.val
    (c.bare h = true → Runs (.nop h) s fun d => Completes c d k Core.next) ∧
    (c.bare h = true → [Slot.s, .m].contains h.slot = true → h.rsv = false → ((c.core k).P h.guard.toNat != h.sense) = false →
      ¬(h.guard = 0 ∧ h.sense = true) → Runs (.add h o) s fun d => Completes c d k Core.next) ∧
    (c.quiet k = true → h'.core = h.core → h.slot = .s → h'.slot = .m → h.last = false → h'.last = true → h.rsv = false → h'.rsv = false →
      h.upset = [] → h'.upset = [] → h.guard = 0 → h.sense = false → h'.guard = 0 → h'.sense = false →
      o.oneSource = true → o'.oneSource = true → o.f = false → o'.f = false → o.rd ≠ o'.rd →
      ∃ t, exec (.mov h o) s = .next t ∧ Runs (.mov h' o') t fun d => Completes c d k fun x =>
        ((x.setD o.rd.toNat (x.D o.ra.toNat)).setD o'.rd.toNat (x.D o'.ra.toNat)).next)

/-- R346, R353, R412 to R414: MFC reads every control register zero-extended to 48 bits; MTC writes it at its width, RO registers ignore it; CYC
counts MCLK cycles since the last tick release. -/
def Obligations.ControlRegistersAreReadAndWritten : Prop :=
  ∀ (s : State) (h : Syl) (an : BitVec 4),
    let c := s.chip
    let k := h.core.val
    let x := c.core k
    let v := x.A an.toNat
    let mfc (n : BitVec 5) (r : Nat) : Prop :=
      Runs (.mfc h { crn := n, an := an }) s fun d => Completes c d k fun x => (x.setA an.toNat (BitVec.ofNat 48 r)).next
    let mtc (n : BitVec 5) (f : Core → Core) : Prop :=
      Runs (.mtc h { crn := n, an := an }) s fun d => Completes c d k fun x => (f x).next
    c.alone h [.s] = true →
    (mfc 0x00 x.fl.toNat ∧ mfc 0x01 (x.p ||| 1).toNat ∧ mfc 0x02 (if k = 16 then 0x11F else k + 32 * c.owner k) ∧
     mfc 0x03 (b2n x.ie + 2 * b2n x.priv + 4 * b2n x.exl + 8 * b2n x.nxl) ∧ mfc 0x04 x.epc.toNat ∧ mfc 0x05 x.estat.toNat ∧
     mfc 0x06 x.ecause.toNat ∧ mfc 0x07 x.eaddr.toNat ∧ mfc 0x08 x.ebt.toNat ∧ mfc 0x09 x.ebnd.toNat ∧ mfc 0x0A x.ivb.toNat ∧
     mfc 0x0B x.ien.toNat ∧ mfc 0x0C (c.ipend k).toNat ∧ mfc 0x0D x.nepc.toNat ∧ mfc 0x0E x.nestat.toNat ∧
     mfc 0x10 (nth 0 x.lc 0).toNat ∧ mfc 0x11 (nth 0 x.ls 0).toNat ∧ mfc 0x12 (nth 0 x.le 0).toNat ∧ mfc 0x13 (nth 0 x.lc 1).toNat ∧
     mfc 0x14 (nth 0 x.ls 1).toNat ∧ mfc 0x15 (nth 0 x.le 1).toNat ∧ mfc 0x16 x.repst.toNat ∧ mfc 0x17 x.scnt.toNat ∧
     mfc 0x18 x.sdir.toNat ∧ mfc 0x1A x.fnum.toNat ∧
     (∀ i : Fin 4, mfc (BitVec.ofNat 5 (0x1C + i.val)) (nth 0 x.sscr i.val).toNat) ∧
     (∃ n, c.cycle ≤ n ∧ mfc 0x19 (n - x.relAt / 5))) ∧
    (mtc 0x00 (fun x => { x with fl := v.setWidth 5 }) ∧ mtc 0x01 (fun x => { x with p := v.setWidth 8 ||| 1 }) ∧
     mtc 0x10 (fun x => { x with lc := x.lc.set 0 (v.setWidth 24) }) ∧ mtc 0x11 (fun x => { x with ls := x.ls.set 0 v }) ∧
     mtc 0x12 (fun x => { x with le := x.le.set 0 v }) ∧ mtc 0x13 (fun x => { x with lc := x.lc.set 1 (v.setWidth 24) }) ∧
     mtc 0x14 (fun x => { x with ls := x.ls.set 1 v }) ∧ mtc 0x15 (fun x => { x with le := x.le.set 1 v }) ∧
     (v.setWidth 2 = (0 : BitVec 2) → mtc 0x16 id) ∧
     mtc 0x17 (fun x => { x with scnt := v.setWidth 24 }) ∧ mtc 0x18 (fun x => { x with sdir := v.setWidth 3 }) ∧
     (∀ i : Fin 4, mtc (BitVec.ofNat 5 (0x1C + i.val)) (fun x => { x with sscr := x.sscr.set i.val v })) ∧
     mtc 0x02 id ∧ mtc 0x0C id ∧ mtc 0x19 id ∧ mtc 0x1A id) ∧
    (x.priv = true →
     mtc 0x03 (fun x => { x with ie := bit v 0, priv := bit v 1, exl := bit v 2, nxl := bit v 3 }) ∧
     mtc 0x04 (fun x => { x with epc := v }) ∧
     (bit v 14 = false → mtc 0x05 (fun x => { x with estat := v.setWidth 16 &&& 0x7FFF })) ∧
     mtc 0x06 (fun x => { x with ecause := v.setWidth 20 }) ∧ mtc 0x07 (fun x => { x with eaddr := v }) ∧
     mtc 0x08 (fun x => { x with ebt := v }) ∧ mtc 0x09 (fun x => { x with ebnd := v }) ∧
     mtc 0x0A (fun x => { x with ivb := v &&& ~~~ 7 }) ∧ mtc 0x0B (fun x => { x with ien := v.setWidth 16 }) ∧
     mtc 0x0D (fun x => { x with nepc := v }) ∧ mtc 0x0E (fun x => { x with nestat := v.setWidth 16 &&& 0x7FFF }))

/-- R321, R344, R411, R415, R417, R418: the returns restore the status and the pc they saved, with a branch in flight if there was one; WAITT consumes a
release or waits for one; MSYNC completes when no posted store is outstanding, and else its bundle is held; MTCC clears software interrupts. -/
def Obligations.ReturnsAndWaitsAct : Prop :=
  ∀ (s : State) (h : Syl) (an : BitVec 4),
    let c := s.chip
    let k := h.core.val
    let swi := if k = 16 then R.CC.SWI else R.TILE.SWI k
    let restored (x : Core) (v : BitVec 16) : Core :=
      { x with fl := v.setWidth 5, p := BitVec.ofNat 8 (v.toNat / 32 % 128 * 2 + 1), priv := v.getLsbD 12, ie := v.getLsbD 13
               takenBr := false, brPc := x.pc }
    (c.alone h [.s] = true → (c.core k).priv = true →
      (Runs (.eret h 0) s fun d => Completes c d k fun x =>
        { restored x x.estat with exl := false, pc := x.epc, target := if x.estat.getLsbD 14 then some x.ebt else none }) ∧
      (Runs (.nret h 0) s fun d => Completes c d k fun x =>
        { restored x x.nestat with nxl := false, pc := x.nepc, target := none }) ∧
      (k ≠ 16 → (c.core k).relPend = true → Runs (.waitt h 0) s fun d => Completes c d k fun x => { x.next with relPend := false }) ∧
      (k ≠ 16 → (c.core k).relPend = false → Runs (.waitt h 0) s fun d => Completes c d k fun x => { x.next with run := .waitt }) ∧
      (Runs (.mtcc h { crn := 0x0C, an := an }) s fun d =>
        d.r swi = (c.r swi &&& ~~~ ((((c.core k).A an.toNat).setWidth 16).setWidth 32)) ∧ Issued c d k Core.next (keys [swi]) id)) ∧
    (c.alone h [.m] = true → Runs (.msync h) s fun d => Completes c d k Core.next) ∧
    ((c.core k).posted ≠ [] → (c.modCore k fun x => { x with posted := [] }).alone h [.m] = true →
      Runs (.msync h) s fun d => (d.core k).held = true ∧ (d.core k).run = .stalled ∧ (d.core k).pc = (c.core k).pc ∧
        (d.core k).posted = (c.core k).posted ∧ (d.core k).d = (c.core k).d ∧ d.mem = c.mem)

/-- R319, R320, R323, R324, R330, R364, R389: what raises an exception and what its entry saves and sets; with EXL already set it is a double exception.
What EADDR and ESTAT hold where there is no address, and the cycle of the entry, are the model's reading (log entries 9, 11). -/
def Obligations.ExceptionsSaveTheirContextAndEnterTheirVector : Prop :=
  ∀ (s : State) (h : Syl) (o : AluOp) (l : LdsOp) (code : BitVec 16),
    let c := s.chip
    let k := h.core.val
    let x := c.core k
    let ken := c.owner k
    (c.takesExc k = true →
      (c.bare h = true → h.rsv = true → Runs (.add h o) s fun d =>
        Issued c d k (fun x => x.entry 0x0B01 (slotNum h.slot) 1 none x.pc) (keys (mirrorKeys k)) id ∧
        d.rf (if k = 16 then R.CC.LCAUSE else R.TILE.LCAUSE k) 15 0 = 0x0B01) ∧
      (c.alone h [.s] = true → x.priv = false → Runs (.eret h 0) s fun d =>
        Issued c d k (fun x => x.entry 0x0B04 0 4 none x.pc) (keys (mirrorKeys k)) id) ∧
      (c.alone h [.m] = true → k < 16 → l.md = 0 → l.dm = 0 →
        let ea := x.A l.ab.toNat + l.imm.signExtend 48
        c.ownWindow ea.toNat 1 = ea.toNat → c.regionOf ea.toNat 1 = .ccMem → Runs (.ldbu h l) s fun d =>
          Issued c d k (fun x => x.entry 0x0B03 1 3 (some ea) x.pc) (keys (mirrorKeys k)) id)) ∧
    (c.alone h [.s] = true → x.exl = false → Runs (.trap h code) s fun d =>
      Issued c d k (fun x => x.next.entry 0x0B09 0 7 (some (code.setWidth 48)) (x.pc + 24)) (keys (mirrorKeys k)) id) ∧
    (c.bare h = true → h.rsv = true → k < 16 → c.rb (R.KMAP.KSTAT ken) 3 = false →
      (c.rb (R.TILE.CCTL k) 2 = true → Runs (.add h o) s fun d =>
        d.rb (R.KMAP.KSTAT ken) 3 = true ∧ d.rf (R.KMAP.KSTAT ken) 31 16 = 0x0B01 ∧ (d.core k).epc = x.pc ∧
        (d.core k).d = x.d ∧ (d.core k).pc = x.pc ∧ d.mem = c.mem) ∧
      (c.rb (R.TILE.CCTL k) 2 = false → x.exl = true → Runs (.add h o) s fun d =>
        d.rb (R.KMAP.KSTAT ken) 3 = true ∧ d.rf (R.KMAP.KSTAT ken) 31 16 = 0x0B07 ∧ (d.core k).epc = x.epc ∧ d.mem = c.mem)) ∧
    (c.bare h = true → h.rsv = true → k = 16 → x.exl = true → Runs (.add h o) s fun d =>
      (d.core 16).run = .stopped ∧ d.rb R.AON.FSRC 7 = true ∧ (d.core 16).epc = x.epc ∧ d.mem = c.mem)

/-- R313, R322, R326, R327: what a boundary takes: a loop-back, a bus error, the lowest pending and enabled interrupt line, an NMI.
The cycle at which the handler begins is the model's reading (log entry 11). -/
def Obligations.BoundariesTakeEvents : Prop :=
  ∀ (s : State) (k : CoreId) (n : Nat),
    let c := s.chip
    let x := c.core k.val
    (c.quiet k.val = true → c.irqLine k.val = some n → c.irqOk k.val = true → x.nmi = false →
      Runs (.interruptAccept k) s fun d =>
        Issued c d k.val (fun x => { x.enter (16 + n) with epc := x.pc, estat := x.status, exl := true }) (keys []) id) ∧
    (c.quiet k.val = true → x.nmi = true → x.nxl = false → Runs (.nmiAccept k) s fun d =>
      Issued c d k.val (fun x => { x.enter 8 with nepc := x.pc, nestat := x.status, nxl := true, nmi := false }) (keys []) id ∧
      d.rb (R.H.PIRQS (Chip.corePage k.val)) 29 = true) ∧
    (c.quiet k.val = true → x.nmi = true → x.nxl = true → Runs (.nmiAccept k) s fun d =>
      Issued c d k.val (fun x => { x with nmi := false }) (keys []) id) ∧
    (∀ (e : BusErr) (rest : List BusErr), c.awake = true → c.cores.length = 17 → x.run = .run → x.bundle = [] → x.loopDue = false →
      x.loads = [] → x.busErrs = e :: rest → c.takesExc k.val = true → Runs (.busError k) s fun d =>
        Issued c d k.val (fun x => ({ x with busErrs := rest, ebnd := BitVec.ofNat 48 e.bundle } : Core).entry 0x0B03 1 3
          (some (BitVec.ofNat 48 e.addr)) x.pc) (keys (mirrorKeys k.val)) id) ∧
    (∀ l : Fin 2, c.awake = true → c.cores.length = 17 → x.loopDue = true → x.repst = BitVec.ofNat 2 (2 ^ l.val) →
      x.LE l.val = (x.pc - 24).toNat → x.lc.length = 2 → Runs (.repeatLoopBack k) s fun d =>
        Issued c d k.val (fun x =>
          if 1 < (nth 0 x.lc l.val).toNat then
            { x with loopDue := false, lc := x.lc.set l.val (nth 0 x.lc l.val - 1), pc := nth 0 x.ls l.val }
          else { x with loopDue := false, repst := 0 }) (keys []) id)

/-- R304 to R306, R383 to R387, R92: a load from the core's own scratchpad takes its bytes at once, zero- or sign-extended, and is outstanding
for two bundles; on any other path of this device it is outstanding until its data return. A base register updates. Nothing else changes. -/
def Obligations.LoadsReadTheirBytes : Prop :=
  ∀ (s : State) (h : Syl) (o : LdsOp),
    let c := s.chip
    let k := h.core.val
    let x := c.core k
    let upd (size : Nat) (y : Core) : Core :=
      match (scalarAddr x o size).2.2 with | some v => y.setA o.ab.toNat v | none => y
    let ea (size : Nat) : Nat := (scalarAddr x o size).2.1.toNat
    let word (size : Nat) : Nat := natLE (c.getBytes (.sp k) (ea size) size)
    let load (i : Instr) (dest : LoadDest) (size : Nat) (sext : Bool) (v : Nat) : Prop :=
      (scalarAddr x o size).1 = true →
      (c.plainSp k (ea size) size = true → Runs i s fun d => Completes c d k fun y =>
        { upd size y with loads := [⟨dest, 2, some v, ea size, size, sext, y.pc.toNat, 0, none, y.accSeq⟩], accSeq := y.accSeq + 1
                          pc := y.pc + 24 }) ∧
      (c.ownSp k (ea size) size = false → c.isRemote (ea size) size = false → reachBad c k x (scalarAddr x o size).2.1 size = none →
        Runs i s fun d => Completes c d k fun y =>
          { upd size y with loads := [⟨dest, 2, none, ea size, size, sext, y.pc.toNat, 0, none, y.accSeq⟩], accSeq := y.accSeq + 1
                            pc := y.pc + 24 })
    c.alone h [.m] = true →
    load (.ldbu h o) (.d o.rt.toNat) 1 false (word 1) ∧
    load (.ldb h o) (.d o.rt.toNat) 1 true (if word 1 < 128 then word 1 else word 1 + (2 ^ 24 - 256)) ∧
    load (.ldhu h o) (.d o.rt.toNat) 2 false (word 2) ∧
    load (.ldh h o) (.d o.rt.toNat) 2 true (if word 2 < 32768 then word 2 else word 2 + (2 ^ 24 - 65536)) ∧
    load (.ld h o) (.d o.rt.toNat) 3 false (word 3) ∧
    (o.rt.toNat < 16 → load (.lda h o) (.a o.rt.toNat) 6 false (word 6) ∧ load (.ldq h o) (.a o.rt.toNat) 4 false (word 4))

/-- R304 to R306, R383 to R387, R92: a store to the core's own scratchpad writes the low bytes of its register at once; on any other path of this
device it is posted. A base register updates. No other byte of memory changes. -/
def Obligations.StoresWriteTheirBytes : Prop :=
  ∀ (s : State) (h : Syl) (o : LdsOp),
    let c := s.chip
    let k := h.core.val
    let x := c.core k
    let upd (size : Nat) (y : Core) : Core :=
      match (scalarAddr x o size).2.2 with | some v => y.setA o.ab.toNat v | none => y
    let ea (size : Nat) : Nat := (scalarAddr x o size).2.1.toNat
    let store (i : Instr) (size v : Nat) : Prop :=
      (scalarAddr x o size).1 = true →
      (c.plainSp k (ea size) size = true → Runs i s fun d =>
        c.Stored d (.sp k) (ea size) (bytesLE size v) ∧
        Issued c d k (fun y => (upd size y).next) (keys []) fun d => { d with mem := c.mem }) ∧
      (c.ownSp k (ea size) size = false → c.isRemote (ea size) size = false → reachBad c k x (scalarAddr x o size).2.1 size = none →
        Runs i s fun d => Completes c d k fun y =>
          { upd size y with posted := [⟨ea size, bytesLE size v, y.pc.toNat, none, y.accSeq⟩], accSeq := y.accSeq + 1, pc := y.pc + 24 })
    c.alone h [.m] = true →
    store (.stb h o) 1 (x.D o.rt.toNat).toNat ∧ store (.sth h o) 2 (x.D o.rt.toNat).toNat ∧ store (.st h o) 3 (x.D o.rt.toNat).toNat ∧
    (o.rt.toNat < 16 → store (.sta h o) 6 (x.A o.rt.toNat).toNat ∧ store (.stq h o) 4 (x.A o.rt.toNat).toNat)

/-- R306, R308: a load delivers at the end of the second bundle after its own; a load and a store of the control core to its memory are performed
when the path answers, in the order issued, and no other byte of memory changes.
The order of posted stores and loads is the model's reading (log entry 12). -/
def Obligations.LoadsDeliverAndPostedStoresArrive : Prop :=
  ∀ (s : State) (h : Syl),
    let c := s.chip
    let k := h.core.val
    let x := c.core k
    (∀ (l : Load) (v : Nat), x.loads = [l] → l.val = some v → (c.modCore k fun x => { x with loads := [] }).bare h = true →
      (l.age = 2 → Runs (.nop h) s fun d => (d.core k).loads = [{ l with age := 1 }] ∧ (d.core k).d = x.d ∧ (d.core k).pc = x.pc + 24) ∧
      (l.age = 1 → Runs (.nop h) s fun d => (d.core k).loads = [] ∧ (d.core k).pc = x.pc + 24 ∧
        (∀ r, l.dest = .d r → (d.core k).d = x.d.set r (BitVec.ofNat 24 v) ∧ (d.core k).a = x.a) ∧
        (∀ r, l.dest = .a r → (d.core k).a = x.a.set r (BitVec.ofNat 48 v) ∧ (d.core k).d = x.d))) ∧
    (∀ l : Load, k = 16 → c.calm = true → c.cores.length = 17 → x.run = .run → x.stopReq = false → x.loads = [l] → x.posted = [] →
      l.val = none → l.tag = none → 0 < l.age → l.sext = false → c.plainCc l.addr l.size = true →
      Runs (.loadDataReturn h.core) s fun d =>
        Issued c d 16 (fun x => { x with loads := [{ l with val := some (natLE (c.getBytes .ccMem l.addr l.size)) }] }) (keys []) id) ∧
    (∀ p : Posted, k = 16 → c.calm = true → c.cores.length = 17 → x.loads = [] → x.posted = [p] → p.tag = none →
      c.plainCc p.addr p.bytes.length = true → Runs (.postedStoreDone h.core) s fun d =>
        c.Stored d .ccMem p.addr p.bytes ∧ Issued c d 16 (fun x => { x with posted := [] }) (keys []) fun d => { d with mem := c.mem })

/-- R402 to R406: one issue of a string syllable moves, fills or compares at most 24 bytes of whole elements, from A12 to A13, upward or downward, and
counts SCNT down; it issues again until SCNT is 0, or a compare has found a difference. -/
def Obligations.StringsMoveFillAndCompare : Prop :=
  ∀ (s : State) (h : Syl) (src : BitVec 5),
    let c := s.chip
    let k := h.core.val
    let x := c.core k
    let e := ([1, 2, 3, 6] : List Nat).getD (x.sdir.toNat % 4) 6
    let down := x.sdir.getLsbD 2
    let n := min x.scnt.toNat (24 / e)
    let low (a : BitVec 48) : Nat := if down then (a - BitVec.ofNat 48 (e * (n - 1))).toNat else a.toNat
    let at_ (a : BitVec 48) (i : Nat) : Nat := low a + e * (if down then n - 1 - i else i)
    let elem (a : BitVec 48) (i : Nat) : List (BitVec 8) := c.getBytes (.sp k) (at_ a i) e
    let step (a : BitVec 48) (m : Nat) : BitVec 48 := if down then a - BitVec.ofNat 48 (e * m) else a + BitVec.ofNat 48 (e * m)
    let moved (y : Core) (m : Nat) (both done : Bool) : Core :=
      let y := if both then y.setA 12 (step (x.A 12) m) else y
      let y := { y.setA 13 (step (x.A 13) m) with scnt := y.scnt - BitVec.ofNat 24 m, strData := [], inString := !done }
      if done then y.next else y
    c.alone h [.s] = true →
    (x.scnt = 0 →
      (Runs (.movs h { src := 0, rk := false }) s fun d => Completes c d k fun x => { x with strData := [] : Core }.next) ∧
      (src.toNat < 8 → Runs (.cmps h { src := src, rk := false }) s fun d =>
        Completes c d k fun x => { x.setP src.toNat true with strData := [] : Core }.next)) ∧
    (0 < n → c.plainSp k (low (x.A 13)) (n * e) = true →
      (∀ rk : Bool, rk = (e == 6) → (rk = true → src.toNat < 16) → Runs (.fills h { src := src, rk := rk }) s fun d =>
        let one := bytesLE e (if rk then (x.A src.toNat).toNat else (x.D src.toNat).toNat)
        c.Stored d (.sp k) (low (x.A 13)) ((List.range n).flatMap fun _ => one) ∧
        Issued c d k (fun y => moved y n false (decide (x.scnt.toNat = n))) (keys []) fun d => { d with mem := c.mem }) ∧
      (c.plainSp k (low (x.A 12)) (n * e) = true →
        (Runs (.movs h { src := 0, rk := false }) s fun d =>
          (∀ i, i < n → d.getBytes (.sp k) (at_ (x.A 13) i) e = elem (x.A 12) i) ∧
          (∀ j, (∀ i, i < n * e → c.locOf (.sp k) (low (x.A 13) + i) ≠ j) → d.mem.byte j = c.mem.byte j) ∧
          Issued c d k (fun y => moved y n true (decide (x.scnt.toNat = n))) (keys []) fun d => { d with mem := c.mem }) ∧
        (∀ m, src.toNat < 8 → m ≤ n → (∀ i, i < m → elem (x.A 12) i = elem (x.A 13) i) →
          (m < n → elem (x.A 12) m ≠ elem (x.A 13) m) → Runs (.cmps h { src := src, rk := false }) s fun d =>
          let done := decide (m < n) || decide (x.scnt.toNat = n)
          Completes c d k fun y =>
            let y := moved y m true done
            if done then y.setP src.toNat (decide (m = n)) else y)))

/-- R211 to R216: PUT fills the slot at the producer's position and FREE empties the one at the consumer's, and the position moves on; a PUT to a full
slot, or a FREE of an empty one, of a tagged ring waits. -/
def Obligations.RingSyllablesMoveTheRing : Prop :=
  ∀ (s : State) (h : Syl) (ctx : BitVec 4),
    let c := s.chip
    let k := h.core.val
    let x := ctx.toNat
    let r := c.ring k x
    let own (j : Nat) : Bool := (keys [R.TILE.RPOS k x]) j
    c.alone h [.m] = true → k < 16 → (∀ y, y < 16 → (c.ring k y).stalls = []) → (c.scratch k).rings.length = 16 → c.sp.length = 16 →
    r.active = true → r.adv = false → 2 ≤ r.nslot → r.nslot ≤ 16 → r.gen.length = 16 → c.pp k x < r.nslot → c.cp k x < r.nslot →
    (r.pside = 1 →
      (c.full k x (c.pp k x) = false → Runs (.rput h ctx) s fun d =>
        d.full k x (c.pp k x) = true ∧ d.pp k x = (c.pp k x + 1) % r.nslot ∧ d.cp k x = c.cp k x ∧
        (∀ j, j < 16 → j ≠ c.pp k x → d.full k x j = c.full k x j) ∧
        nth 0 (d.ring k x).gen (c.pp k x) = (nth 0 r.gen (c.pp k x) + 1) % 0x10000 ∧
        Issued c d k Core.next own fun d => { d with sp := c.sp }) ∧
      (c.full k x (c.pp k x) = true → r.tag = true → Runs (.rput h ctx) s fun d =>
        (d.core k).held = true ∧ (d.core k).run = .stalled ∧ (d.core k).pc = (c.core k).pc ∧ (d.ring k x).stalls = [(.core k, c.now)] ∧
        d.rb (R.TILE.RST k x) 1 = true ∧ d.r (R.TILE.RPOS k x) = c.r (R.TILE.RPOS k x) ∧ d.mem = c.mem)) ∧
    (r.cside = 1 →
      (c.full k x (c.cp k x) = true → Runs (.rfree h ctx) s fun d =>
        d.full k x (c.cp k x) = false ∧ d.cp k x = (c.cp k x + 1) % r.nslot ∧ d.pp k x = c.pp k x ∧
        (∀ j, j < 16 → j ≠ c.cp k x → d.full k x j = c.full k x j) ∧
        Issued c d k Core.next own fun d => { d with sp := c.sp }) ∧
      (c.full k x (c.cp k x) = false → r.tag = true → Runs (.rfree h ctx) s fun d =>
        (d.core k).held = true ∧ (d.core k).run = .stalled ∧ (d.core k).pc = (c.core k).pc ∧ (d.ring k x).stalls = [(.core k, c.now)] ∧
        d.r (R.TILE.RPOS k x) = c.r (R.TILE.RPOS k x) ∧ d.mem = c.mem))

/-- R424 to R431, R451, R452: the integer vector ALU syllables compute each active lane of their group from the lanes of their sources, wrapping
or saturating; inactive lanes stay, SAT is set when an active lane saturated, and nothing else changes. -/
def Obligations.VectorIntegerLanesCompute : Prop :=
  ∀ (s : State) (h : Syl) (o : VAlu),
    let c := s.chip
    let k := h.core.val
    let x := c.core k
    let t := o.ty
    let lanes (i : Instr) (f : Nat → Nat → Nat × Bool) : Prop :=
      Runs i s fun d => c.Lanes d k t.w o.vd o.n (maskOf x o.mask) f
    let wrap (f : Int → Int → Int) (r i : Nat) : Nat × Bool := (wrapN t.bits (f (o.a x r i) (o.b x r i)), false)
    let sat (f : Int → Int → Int) (r i : Nat) : Nat × Bool :=
      let z := f (o.a x r i) (o.b x r i)
      let y := max (intLo t.signed t.bits) (min (intHi t.signed t.bits) z)
      (wrapN t.bits y, y != z)
    let bits (f : Nat → Nat → Nat) (r i : Nat) : Nat × Bool := (f (wrapN t.bits (o.a x r i)) (wrapN t.bits (o.b x r i)), false)
    c.alone h [.v] = true → k < 16 → x.vecWf = true →
    (o.legal false false = true →
      lanes (.vadd h o) (wrap fun a b => a + b) ∧ lanes (.vsub h o) (wrap fun a b => a - b) ∧
      lanes (.vadds h o) (sat fun a b => a + b) ∧ lanes (.vsubs h o) (sat fun a b => a - b) ∧
      lanes (.vand h o) (bits fun a b => a &&& b) ∧ lanes (.vor h o) (bits fun a b => a ||| b) ∧
      lanes (.vxor h o) (bits fun a b => a ^^^ b) ∧ lanes (.vandn h o) (bits fun a b => a &&& (b ^^^ (2 ^ t.bits - 1))) ∧
      lanes (.vmin h o) (wrap fun a b => min a b) ∧ lanes (.vmax h o) (wrap fun a b => max a b) ∧
      lanes (.vmul h o) (wrap fun a b => a * b) ∧ lanes (.vmulh h o) (wrap fun a b => a * b / (2 ^ t.bits : Nat)) ∧
      lanes (.vabsd h o) (sat fun a b => max (a - b) (b - a)) ∧ lanes (.vavg h o) (wrap fun a b => (a + b + 1) / 2)) ∧
    (o.legal false true = true →
      lanes (.vshl h o) (bits fun a n => if n < t.bits then a * 2 ^ n else 0) ∧ lanes (.vshr h o) (bits fun a n => a / 2 ^ n) ∧
      lanes (.vsar h o) (fun r i =>
        (wrapN t.bits (sInt t.bits (wrapN t.bits (o.a x r i)) / (2 ^ wrapN t.bits (o.b x r i) : Nat)), false))) ∧
    (∀ p : VrOp, o = .reg p → o.legal true false = true →
      lanes (.vmov h p) (wrap fun a _ => a) ∧
      (t.signed = true → lanes (.vabs h o) (sat fun a _ => max a (-a)) ∧ lanes (.vneg h o) (sat fun a _ => -a))) ∧
    (∀ p : ViOp, o = .imm p → o.legal false false = true → p.va = 0 → lanes (.vmovi h p) (wrap fun _ b => b))

/-- R446, R447, R454: the float vector syllables round the exact result once into the lane's format; VFMIN and VFMAX answer one operand; VFABS
and VFNEG change the sign bit alone. -/
def Obligations.VectorFloatLanesCompute : Prop :=
  ∀ (s : State) (h : Syl) (o : VrOp),
    let c := s.chip
    let k := h.core.val
    let x := c.core k
    let t := laneOr o.t
    let a (r i : Nat) : Nat := laneAt (x.V (o.va.toNat + r)).toNat 16 i
    let b (r i : Nat) : Nat := laneAt (x.V (o.vb.toNat + r)).toNat 16 i
    let lanes (i : Instr) (f : Nat → Nat → Nat × Bool) : Prop :=
      Runs i s fun d => c.Lanes d k 2 o.vd (2 ^ o.g.toNat) (maskOf x o.mask) f
    c.alone h [.v] = true → k < 16 → x.vecWf = true → (o.t = 5 ∨ o.t = 6) → o.x = 0 → grouped o.g o.vd = true → grouped o.g o.va = true →
    (grouped o.g o.vb = true →
      lanes (.vfadd h o) (fun r i => t.fmt.encode ((t.fmt.decode (a r i)).add (t.fmt.decode (b r i)))) ∧
      lanes (.vfsub h o) (fun r i => t.fmt.encode ((t.fmt.decode (a r i)).add (t.fmt.decode (b r i)).neg)) ∧
      lanes (.vfmul h o) (fun r i => t.fmt.encode ((t.fmt.decode (a r i)).mul (t.fmt.decode (b r i)))) ∧
      lanes (.vfmin h o) (fun r i => (fminmax false t.fmt (a r i) (b r i), false)) ∧
      lanes (.vfmax h o) (fun r i => (fminmax true t.fmt (a r i) (b r i), false))) ∧
    (o.vb = 0 →
      lanes (.vfabs h o) (fun r i => (a r i % 2 ^ 15, false)) ∧
      lanes (.vfneg h o) (fun r i => ((a r i + 2 ^ 15) % 2 ^ 16, false)))

/-- R447, R455, R456: a vector compare writes one bit a byte to a mask register, in its active lanes; the mask syllables combine whole masks;
M0 reads as all ones and discards writes.
The condition of each compare is the model's reading (log entry 18). -/
def Obligations.VectorComparesAndMasksWriteMasks : Prop :=
  ∀ (s : State) (h : Syl) (o : VrOp) (q : VkOp),
    let c := s.chip
    let k := h.core.val
    let x := c.core k
    let t := laneOr o.t
    let m := maskOf x o.mask
    let u (v : BitVec 5) (i : Nat) : Nat := laneAt (x.V v.toNat).toNat t.bits i
    let cmp (i : Instr) (uns : Bool) (nan : Bool) (p : Int → Bool) : Prop :=
      let res (i : Nat) : Bool :=
        if t.isInt then p (intOf (!uns) t.bits (u o.va i) - intOf (!uns) t.bits (u o.vb i))
        else if (t.fmt.decode (u o.va i)).isNan || (t.fmt.decode (u o.vb i)).isNan then nan
        else p ((t.fmt.decode (u o.va i)).cmp (t.fmt.decode (u o.vb i)))
      Runs i s fun d => c.Vectored d k false (fun _ => false) (fun _ => false) (fun r => r != 0 && r == o.vd.toNat) ∧
        (o.vd ≠ 0 → ∀ i j, i < 384 / t.w → j < t.w → ((d.core k).M o.vd.toNat).getLsbD (t.w * i + j) =
          if active m t.w i then res i else (x.M o.vd.toNat).getLsbD (t.w * i + j))
    let mask (i : Instr) (f : BitVec 384 → BitVec 384 → BitVec 384) : Prop :=
      Runs i s fun d => c.Vectored d k false (fun _ => false) (fun _ => false) (fun r => r != 0 && r == q.md.toNat) ∧
        (q.md ≠ 0 → (d.core k).M q.md.toNat = f (maskOf x q.ma) (maskOf x q.mb))
    c.alone h [.v] = true → k < 16 → x.vecWf = true →
    (o.t ≠ 7 → o.vd.toNat < 8 → o.g = 0 → o.x = 0 →
      cmp (.vcmpeq h o) false false (fun d => d == 0) ∧ cmp (.vcmpne h o) false true (fun d => d != 0) ∧
      cmp (.vcmplt h o) false false (fun d => decide (d < 0)) ∧ cmp (.vcmple h o) false false (fun d => decide (d ≤ 0)) ∧
      cmp (.vcmpgt h o) false false (fun d => decide (0 < d)) ∧ cmp (.vcmpge h o) false false (fun d => decide (0 ≤ d)) ∧
      (t.isInt = true →
        cmp (.vcmpltu h o) true false (fun d => decide (d < 0)) ∧ cmp (.vcmpleu h o) true false (fun d => decide (d ≤ 0)) ∧
        cmp (.vcmpgtu h o) true false (fun d => decide (0 < d)) ∧ cmp (.vcmpgeu h o) true false (fun d => decide (0 ≤ d)))) ∧
    (mask (.mand h q) (· &&& ·) ∧ mask (.mor h q) (· ||| ·) ∧ mask (.mxor h q) (· ^^^ ·) ∧ mask (.mandn h q) (fun a b => a &&& ~~~ b) ∧
      (q.mb = 0 → mask (.mnot h q) (fun a _ => ~~~ a) ∧ mask (.mmov h q) (fun a _ => a)))

/-- R457 to R459: the accumulator syllables: multiply-accumulate saturating or with one rounding into FP32, clear, read with a rounding shift,
move and store; complex products by pairs of lanes. -/
def Obligations.VectorAccumulatorsAccumulate : Prop :=
  ∀ (s : State) (h : Syl) (o : VrOp),
    let c := s.chip
    let k := h.core.val
    let x := c.core k
    let t := laneOr o.t
    let m := maskOf x o.mask
    let sh := o.x.toNat % 64
    let acc (r : BitVec 5) (i : Nat) : Nat := laneAt (x.VA r.toNat).toNat (16 * t.w) i
    let addI (i : Nat) (v : Int) : Nat × Bool :=
      let z := intOf t.signed (16 * t.w) (acc o.vd i) + v
      let y := max (intLo t.signed (16 * t.w)) (min (intHi t.signed (16 * t.w)) z)
      (wrapN (16 * t.w) y, y != z)
    let addF (i : Nat) (v : Fv) : Nat × Bool := fp32.encode ((fp32.decode (acc o.vd i)).add v)
    let narrow (z : Int) : Nat × Bool :=
      let z := if sh = 0 then z else (z + (2 ^ (sh - 1) : Nat)) / (2 ^ sh : Nat)
      let y := max (intLo t.signed t.bits) (min (intHi t.signed t.bits) z)
      (wrapN t.bits y, y != z)
    let prodF (i : Nat) : Fv := (laneF x t o.va i).mul (laneF x t o.vb i)
    let prodI (i : Nat) : Int := laneI x t o.va i * laneI x t o.vb i
    c.alone h [.v] = true → k < 16 → x.vecWf = true → o.t ≠ 7 → o.g = 0 →
    (o.vd.toNat < 4 → o.x = 0 →
      (Runs (.vmac h o) s fun d => c.AccLanes d k t.w o.vd m fun i => if t.isInt then addI i (prodI i) else addF i (prodF i)) ∧
      (Runs (.vmsu h o) s fun d => c.AccLanes d k t.w o.vd m fun i => if t.isInt then addI i (- prodI i) else addF i (prodF i).neg) ∧
      (o.va = 0 → o.vb = 0 → Runs (.vaclr h o) s fun d => c.AccLanes d k t.w o.vd m fun _ => (0, false))) ∧
    (o.va.toNat < 4 → o.vb = 0 → o.x.toNat < 64 → (t.isInt = true → sh < 16 * t.w) → (t.isInt = false → sh = 0) →
      Runs (.vard h o) s fun d => c.Lanes d k t.w o.vd 1 m fun _ i =>
        if t.isInt then narrow (intOf t.signed (16 * t.w) (acc o.va i)) else t.fmt.encode (fp32.decode (acc o.va i))) ∧
    (o.t = 0 → o.mask = 0 → o.x = 0 → o.vb = 0 →
      (o.vd.toNat < 4 → o.va.toNat % 2 = 0 → Runs (.vamov h o) s fun d =>
        c.Vectored d k false (fun _ => false) (fun r => r == o.vd.toNat) (fun _ => false) ∧
        (d.core k).VA o.vd.toNat = BitVec.ofNat 6144 ((x.V o.va.toNat).toNat + 2 ^ 3072 * (x.V (o.va.toNat + 1)).toNat)) ∧
      (o.va.toNat < 4 → o.vd.toNat % 2 = 0 → Runs (.vast h o) s fun d =>
        c.Vectored d k false (inGroup o.vd 2) (fun _ => false) (fun _ => false) ∧
        (d.core k).V o.vd.toNat = BitVec.ofNat 3072 (x.VA o.va.toNat).toNat ∧
        (d.core k).V (o.vd.toNat + 1) = BitVec.ofNat 3072 ((x.VA o.va.toNat).toNat / 2 ^ 3072))) ∧
    (3 ≤ o.t.toNat → o.x.toNat / 64 % 4 = 0 →
      ((t.isInt = true → sh < 16 * t.w) → (t.isInt = false → sh = 0) → Runs (.vcmul h o) s fun d =>
        c.Lanes d k t.w o.vd 1 (pairMask m t.w) fun _ i => if t.isInt then narrow (cplxI x t o i) else t.fmt.encode (cplxF x t o i)) ∧
      (sh = 0 → o.vd.toNat < 4 → Runs (.vcmac h o) s fun d =>
        c.AccLanes d k t.w o.vd (pairMask m t.w) fun i => if t.isInt then addI i (cplxI x t o i) else addF i (cplxF x t o i)))

/-- R460 to R463: byte permutes, the slide, the select by mask, widening, narrowing, conversion, and the exchange of lanes with scalar registers. -/
def Obligations.VectorPermutesConvertsAndExchanges : Prop :=
  ∀ (s : State) (h : Syl) (o : VrOp) (q : VxOp),
    let c := s.chip
    let k := h.core.val
    let x := c.core k
    let m := maskOf x o.mask
    let byte (v : Nat) (i : Nat) : Nat := v / 2 ^ (8 * i) % 256
    let V (r : Nat) : Nat := (x.V r).toNat
    let t := laneOr q.t
    let l := q.lane.toNat
    c.alone h [.v] = true → k < 16 → x.vecWf = true →
    (o.t = 0 → o.g = 0 →
      (o.x = 0 → o.vb.toNat % 2 = 0 → Runs (.vbperm h o) s fun d => c.Lanes d k 1 o.vd 1 m fun _ i =>
        let j := (V o.vb.toNat + 2 ^ 3072 * V (o.vb.toNat + 1)) / 2 ^ (16 * i) % 512
        (if j < 384 then byte (V o.va.toNat) j else 0, false)) ∧
      (o.x.toNat ≤ 383 → Runs (.vsld h o) s fun d => c.Lanes d k 1 o.vd 1 m fun _ i =>
        (byte (V o.va.toNat + 2 ^ 3072 * V o.vb.toNat) (o.x.toNat + i), false)) ∧
      (o.x = 0 → Runs (.vsel h o) s fun d => c.Lanes d k 1 o.vd 1 (BitVec.allOnes 384) fun _ i =>
        (byte (V (if m.getLsbD i then o.va.toNat else o.vb.toNat)) i, false))) ∧
    (o.t.toNat ≤ 1 → o.g = 0 → o.vb = 0 →
      (o.x = 0 → o.vd.toNat % 2 = 0 → Runs (.vwiden h o) s fun d => c.Lanes d k 2 o.vd 2 m fun r i =>
        (wrapN 16 (intOf (o.t == 1) 8 (byte (V o.va.toNat) (192 * r + i))), false)) ∧
      (o.x.toNat < 16 → o.va.toNat % 2 = 0 → Runs (.vnarrow h o) s fun d => c.Lanes d k 1 o.vd 1 m fun _ i =>
        narrowTo (o.t == 1) 8 (sInt 16 (laneAt (V (o.va.toNat + i / 192)) 16 (i % 192))) o.x.toNat)) ∧
    (o.t ≠ 7 → o.t ≠ 4 → o.x.toNat % 64 = 0 → o.x.toNat / 64 < 7 → (laneOr (BitVec.ofNat 3 (o.x.toNat / 64))).w = (laneOr o.t).w → o.vb = 0 →
      grouped o.g o.vd = true → grouped o.g o.va = true → Runs (.vcvt h o) s fun d =>
        c.Lanes d k (laneOr o.t).w o.vd (2 ^ o.g.toNat) m fun r i =>
          convLane (laneOr o.t) (laneOr (BitVec.ofNat 3 (o.x.toNat / 64))) (laneAt (V (o.va.toNat + r)) (laneOr o.t).bits i)) ∧
    (q.t ≠ 7 →
      (l = 0 → Runs (.vbcst h q) s fun d => c.Lanes d k t.w q.rd 1 (maskOf x q.mask) fun _ _ => ((x.D q.rs.toNat).toNat, false)) ∧
      (l < 384 / t.w → Runs (.vins h q) s fun d =>
        c.Lanes d k t.w q.rd 1 (if active (maskOf x q.mask) t.w l then BitVec.ofNat 384 (2 ^ (t.w * l)) else 0)
          fun _ _ => ((x.D q.rs.toNat).toNat, false)) ∧
      (l < 384 / t.w → q.mask = 0 → Runs (.vext h q) s fun d => Completes c d k fun x =>
        (x.setD q.rd.toNat (BitVec.ofInt 24 (intOf t.signed t.bits (laneAt (V q.rs.toNat) t.bits l)))).next)) ∧
    (q.rs.toNat < 8 → q.mask = 0 → q.t = 0 → l = 0 → Runs (.mpop h q) s fun d => Completes c d k fun x =>
      (x.setD q.rd.toNat (BitVec.ofNat 24 ((List.range 384).countP fun i => (maskOf x (q.rs.setWidth 3)).getLsbD i))).next)

/-- R428, R429, R435, R464: a vector load reads whole registers of a group from the core's own scratchpad, outstanding for four bundles; a vector
store writes the bytes that its mask selects; a base register updates. -/
def Obligations.VectorLoadsAndStoresMoveGroups : Prop :=
  ∀ (s : State) (h : Syl) (o : VsOp) (upd : Option (BitVec 48)) (a : BitVec 48),
    let c := s.chip
    let k := h.core.val
    let x := c.core k
    let n := 2 ^ o.g.toNat
    let m := maskOf x o.mask
    let based (y : Core) : Core := match upd with | some v => y.setA o.ab.toNat v | none => y
    c.alone h [.v] = true → x.vecWf = true → grouped o.g o.vr = true →
    ((o.md = 0 ∧ o.dm = 0 ∧ a = x.A o.ab.toNat + o.imm.signExtend 48 ∧ upd = none) ∨
     (o.md = 1 ∧ o.dm = 0 ∧ a = x.A o.ab.toNat ∧ upd = some (a + o.imm.signExtend 48)) ∨
     (o.md = 2 ∧ o.imm = 0 ∧ a = x.A o.ab.toNat ∧ upd = some (a + (x.D o.dm.toNat).signExtend 48))) →
    c.plainSp k a.toNat (384 * n) = true →
    (Runs (.vld h o) s fun d => ∃ b, Completes c d k fun y =>
      { based y with
          loads := (List.range n).map fun i =>
            ⟨.v (o.vr.toNat + i) m, 4, some (natLE (c.getBytes (.sp k) (a.toNat + 384 * i) 384)), a.toNat + 384 * i, 384, false,
              y.pc.toNat, b, none, y.accSeq + i⟩
          accSeq := y.accSeq + n, pc := y.pc + 24 }) ∧
    (Runs (.vst h o) s fun d =>
      (∀ i j, i < n → j < 384 → d.getByte (.sp k) (a.toNat + 384 * i + j) =
        if m.getLsbD j then BitVec.ofNat 8 ((x.V (o.vr.toNat + i)).toNat / 2 ^ (8 * j)) else c.getByte (.sp k) (a.toNat + 384 * i + j)) ∧
      (∀ l, (∀ i, i < 384 * n → c.locOf (.sp k) (a.toNat + i) ≠ l) → d.mem.byte l = c.mem.byte l) ∧
      Issued c d k (fun y => (based y).next) (keys []) fun d => { d with mem := c.mem })

/-- R441 to R444, R465, R466: an idle vector unit is gated when its timer runs out; a write of VCTL.WAKE begins a wake, which is counted, and which ends 240
cycles later. -/
def Obligations.VectorUnitsSleepAndWake : Prop :=
  ∀ (s : State) (t : TileId) (w : RegWr),
    let c := s.chip
    let k := t.val
    (c.awake = true → c.vOn k = true → c.rf (R.TILE.VCTL k) 9 0 ≠ 0 → c.rb (R.TILE.CCTL k) 1 = false → c.napped k = false → c.surv k = true →
      Runs (.vectorIdleGate t) s fun d => d.rf (R.TILE.VSTAT k) 1 0 = 2 ∧ (∀ j, 2 ≤ j → bit (d.r (R.TILE.VSTAT k)) j = bit (c.r (R.TILE.VSTAT k)) j) ∧
        (c.core k).idleAt * 5 + 320 * c.rf (R.TILE.VCTL k) 9 0 ≤ d.now ∧ Only c d (keys [R.TILE.VSTAT k]) id) ∧
    (c.takes w = true → w.ofs.toNat = R.TILE.VCTL k → bit w.val 16 = true → c.rf (R.TILE.VSTAT k) 1 0 = 2 → c.cores.length = 17 →
      Runs (.vectorWake w) s fun d => d.rf (R.TILE.VSTAT k) 1 0 = 1 ∧ (d.core k).wakeEnd = some (c.cycle + 240) ∧
        d.rf (R.TILE.VWAKE k) 15 0 = min 65535 (c.rf (R.TILE.VWAKE k) 15 0 + 1) ∧
        d.rf (R.TILE.VCTL k) 9 0 = fld w.val 9 0 ∧ (d.core k).d = (c.core k).d ∧
        Within c d (keys [R.TILE.VSTAT k, R.TILE.VWAKE k, R.TILE.VCTL k]) fun d => { d with cores := c.cores, elg := c.elg }) ∧
    (∀ e, c.awake = true → c.cores.length = 17 → (c.core k).wakeEnd = some e → Runs (.vectorWakeDone t) s fun d =>
      d.rf (R.TILE.VSTAT k) 1 0 = 0 ∧ (d.core k).wakeEnd = none ∧ (d.core k).idleAt = e ∧
      Only c d (keys [R.TILE.VSTAT k]) fun d => { d with cores := c.cores })

/-- R332, R335, R522, R533 to R535, R551, R564, R613 to R615: an N-slot command enters the queue of its unit with its operands' values, and its record
where it has one; the status register shows it; with the queue full the bundle is held and nothing enters. -/
def Obligations.AttachedCommandsEnterTheirQueues : Prop :=
  ∀ (s : State) (h : Syl) (an : BitVec 4) (dn dr : BitVec 5) (acc swp ntf wa : Bool) (sel : BitVec 2) (prof eng : BitVec 3),
    let c := s.chip
    let k := h.core.val
    let x := c.core k
    let A := (x.A an.toNat).toNat
    let ary (i : Instr) (a : Attach) : Prop :=
      let u := nth {} c.ary k
      k < 16 → c.ary.length = 16 →
      (u.queue.length < 8 → Runs i s fun d =>
        (∃ t, d.ary = c.ary.set k { u with queue := u.queue ++ [⟨a, x.pc.toNat, t, u.seq⟩], seq := u.seq + 1 }) ∧
        d.rf (R.ARY.ASTAT k) 4 1 = u.queue.length + 1 ∧ d.rb (R.ARY.ASTAT k) 0 = true ∧
        Issued c d k Core.next (keys [R.ARY.ASTAT k]) fun d => { d with ary := c.ary }) ∧
      (u.queue.length = 8 → Runs i s fun d =>
        (d.core k).held = true ∧ (d.core k).run = .stalled ∧ (d.core k).pc = x.pc ∧ d.ary = c.ary ∧ d.mem = c.mem ∧ d.regs = c.regs)
    let port (i : Instr) (a : Attach) (own : List Nat) : Prop :=
      let u := nth {} c.ports k
      let tq := if k = 16 then R.CC.TQST else R.TILE.TQST k
      c.ports.length = 17 → u.queue.length < 8 → Runs i s fun d =>
        d.ports = c.ports.set k { u with queue := u.queue ++ [⟨a, x.pc.toNat, none⟩] } ∧ d.rf tq 3 0 = u.queue.length + 1 ∧
        Issued c d k Core.next (keys (tq :: own)) fun d => { d with ports := c.ports }
    c.alone h [.n] = true →
    (ary (.acfg h sel dn) (.acfg sel.toNat (x.D dn.toNat)) ∧ ary (.awld h an) (.awld A) ∧
     ary (.astr h an dn dr acc swp ntf) (.astr A (x.D dn.toNat).toNat (x.D dr.toNat).toNat acc swp ntf) ∧
     ary (.aswp h) .aswp ∧ ary (.afree h) .afree) ∧
    (let u := nth {} c.drn k
     k < 16 → c.drn.length = 16 → u.queue.length < 8 → Runs (.djob h prof an dr dn ntf wa) s fun d =>
      (∃ t, d.drn = c.drn.set k { u with queue := u.queue ++
        [⟨.djob prof.toNat A (x.D dr.toNat).toNat (x.D dn.toNat).toNat ntf wa
            ((List.range 13).map fun i => c.r (R.DRN.LIVE_PCFG k prof.toNat + 4 * i)) (nth {} c.ary k).seq, x.pc.toNat, t⟩] }) ∧
      d.rf (R.DRN.DSTAT k) 4 1 = u.queue.length + 1 ∧ d.rb (R.DRN.DSTAT k) 0 = true ∧
      Issued c d k Core.next (keys [R.DRN.DSTAT k]) fun d => { d with drn := c.drn }) ∧
    ((acc = true → dn = 0) → port (.tdinv h dn acc) (.tdinv (x.D dn.toNat).toNat acc) []) ∧
    ((acc = true → an = 0 ∧ dn = 0) → port (.otinv h an dn acc) (.otinv A ((x.D dn.toNat).toNat % 65536) acc) []) ∧
    (k < 16 → A % 64 = 0 → c.plainSp k A 64 = true →
      let bs := c.getBytes (.sp k) A 64
      port (.dmaj h eng an) (.dmaj eng.toNat A bs) [] ∧
      port (.tdnew h an dn) (.tdnew (x.D dn.toNat).toNat A bs) [R.TILE.TDRES k, R.TILE.TDRIX k]) ∧
    (k = 16 → c.plainCc A 64 = true →
      let bs := c.getBytes .ccMem A 64
      port (.dmaj h eng an) (.dmaj eng.toNat A bs) [] ∧
      port (.tdnew h an dn) (.tdnew (x.D dn.toNat).toNat A bs) [R.CC.TDRES, R.CC.TDRIX])

/-- R332, R335, R339, R343: a customer command of a UZV-781 enters its tile's queue with its record's bytes and its operands; a fence that no
earlier command precedes performs its ring command at once. -/
def Obligations.CustomerCommandsEnterTheirQueue : Prop :=
  ∀ (s : State) (h : Syl) (o : CxOp) (rcf : Bool) (ctx : BitVec 4),
    let c := s.chip
    let k := h.core.val
    let x := c.core k
    let A := (x.A o.an.toNat).toNat
    let y := ctx.toNat
    let r := c.ring k y
    let own := keys [R.TILE.CXST k, R.CC.CPST, R.TILE.RPOS k y]
    c.alone h [.n] = true → k < 16 → c.hasCust = true → c.cust.length = 16 →
    (c.custUp = true → A % 64 = 0 → c.plainSp k A 64 = true → Runs (.cxcmd h o) s fun d =>
      (∃ t, (d.custSt k).queue =
        [⟨.cxcmd o.fn.toNat (x.D o.da.toNat).toNat (x.D o.db.toNat).toNat o.ntf o.rcf o.ctx.toNat A (c.getBytes (.sp k) A 64), x.pc.toNat, 0,
          false, t, c.owner k⟩]) ∧
      d.rf (R.TILE.CXST k) 3 0 = 1 ∧ Issued c d k Core.next own fun d => { d with cust := c.cust }) ∧
    ((∀ z, z < 16 → (c.ring k z).stalls = []) → (c.scratch k).rings.length = 16 → c.sp.length = 16 →
      r.active = true → r.adv = false → 2 ≤ r.nslot → r.nslot ≤ 16 → r.gen.length = 16 → c.pp k y < r.nslot → c.cp k y < r.nslot →
      (rcf = false → r.pside = 3 → c.full k y (c.pp k y) = false → Runs (.cxfence h rcf ctx) s fun d =>
        (d.custSt k).queue = [] ∧ d.full k y (c.pp k y) = true ∧ d.pp k y = (c.pp k y + 1) % r.nslot ∧ d.cp k y = c.cp k y ∧
        Issued c d k Core.next own fun d => { d with cust := c.cust, sp := c.sp }) ∧
      (rcf = true → r.cside = 3 → c.full k y (c.cp k y) = true → Runs (.cxfence h rcf ctx) s fun d =>
        (d.custSt k).queue = [] ∧ d.full k y (c.cp k y) = false ∧ d.cp k y = (c.cp k y + 1) % r.nslot ∧ d.pp k y = c.pp k y ∧
        Issued c d k Core.next own fun d => { d with cust := c.cust, sp := c.sp }))

/-- R14, R16, R117, R118: a performed write of a register sets its fields by access code: RW fields take the value, RWL fields do when the page
is unlocked by the requester, a 1 clears a W1C bit and sets a W1S bit, and every other bit stays. Said of the KMAP staging
registers and of every register whose page gives its write no further effect.
Corner cases of requesters are the model's reading (log entries 16, 17). -/
def Obligations.RegisterWritesSetFieldsByAccessCode : Prop :=
  ∀ (s : State) (w : RegWr) (k : PageKind) (i : Nat) (r : RegRow),
    let c := s.chip
    let key := w.ofs.toNat
    let ok := c.rwlOk w.who (key / 0x1000)
    c.takes w = true → pageOf (key / 0x1000) = some (k, i) → rowOf key = some r → 0x040 ≤ key % 0x1000 → Chip.loHi k i (key % 0x1000) = none →
    (k = .ary ∨ (k = .kmap ∧ key % 0x1000 < 0x200) ∨ (k = .pwm ∧ key ≠ R.PWM.TNAP ∧ key ≠ R.PWM.DEEPC)) →
    Runs (.registerWrite w) s fun d =>
      (∀ j, j < 32 → bit (d.r key) j =
        ((((if r.rw.testBit j || (r.rwl.testBit j && ok) then bit w.val j else bit (c.r key) j)
          && !(bit w.val j && r.w1c.testBit j)) || (bit w.val j && r.w1s.testBit j)))) ∧
      (r.rwl ≠ 0 → ok = false → d.rb (R.H.PSTAT (key / 0x1000)) 5 = true) ∧
      (w.val &&& r.reserved ≠ 0 → d.rb (R.H.PSTAT (key / 0x1000)) 4 = true) ∧
      Within c d (keys [key]) id

/-- R14, R136, R137: a performed read returns what the register reads as to its requester, and clears its RC fields to their reset value;
nothing else changes. Said of every 32-bit register whose page gives its read no further effect.
Corner cases of requesters are the model's reading (log entries 16, 17). -/
def Obligations.RegisterReadsReturnTheValueAndClearRcFields : Prop :=
  ∀ (s : State) (w : RegRd) (k : PageKind) (i : Nat) (r : RegRow),
    let c := s.chip
    let key := w.ofs.toNat
    c.gives w = true → pageOf (key / 0x1000) = some (k, i) → c.slotEmpty (key / 0x1000) = false → rowOf key = some r →
    Chip.loHi k i (key % 0x1000) = none →
    c.pagePwr (key / 0x1000) = 0 → c.inSrst (key / 0x1000) = false → [PageKind.aon, .err, .dbg, .drn, .tile, .eth].contains k = false →
    Runs (.readClearRegister w) s fun d =>
      d.out = .read w.who key (c.peek key) :: c.out ∧
      (∀ j, j < 32 → bit (d.r key) j = if r.rc.testBit j then bit (resetOf key) j else bit (c.r key) j) ∧
      Only c d (keys [key]) fun d => { d with out := c.out }

/-- R99, R100: a read of a LO word captures the upper half for its requester, whose next read of the HI word returns it; a write of a LO word is held
and changes no register; the HI write sets both halves in one cycle, and one with no held half changes nothing. -/
def Obligations.SixtyFourBitRegistersMoveInOneCycle : Prop :=
  ∀ (s : State) (who : Who) (ofs : BitVec 24) (val : BitVec 32) (k : PageKind) (i : Nat),
    let c := s.chip
    let key := ofs.toNat
    let slot := key / 0x1000
    pageOf slot = some (k, i) → c.slotEmpty slot = false → c.pagePwr slot = 0 → c.inSrst slot = false →
    ([PageKind.tick, .hbm, .pci, .vxl].contains k = true →
      c.gives { who := who, ofs := ofs } = true →
      (Chip.loHi k i (key % 0x1000) = some false →
        Runs (.reg64LoRead { who := who, ofs := ofs }) s fun d =>
          d.out = .read who key (c.peek key) :: c.out ∧ (slot, who, key + 4, c.peek (key + 4)) ∈ d.bus.cap ∧
          (∀ x ∈ d.bus.cap, x.1 = slot → x.2.1 = who → x = (slot, who, key + 4, c.peek (key + 4)))) ∧
      (∀ cap, Chip.loHi k i (key % 0x1000) = some true →
        c.bus.cap.find? (fun x => x.1 == slot && x.2.1 == who && x.2.2.1 == key) = some cap →
        Runs (.readClearRegister { who := who, ofs := ofs }) s fun d => d.out = .read who key cap.2.2.2 :: c.out)) ∧
    (c.takes { who := who, ofs := ofs, val := val } = true →
      (Chip.pairWord k i (key % 0x1000) = some false →
        Runs (.reg64LoWrite { who := who, ofs := ofs, val := val }) s fun d =>
          d.heldLo who (key + 4) = some val ∧ Only c d (keys []) id) ∧
      (Chip.pairWord k i (key % 0x1000) = some true →
        (c.heldLo who key = none →
          Runs (.reg64HiWrite { who := who, ofs := ofs, val := val }) s fun d => Only c d (keys []) id) ∧
        (∀ (lo : BitVec 32) (rl rh : RegRow), k = .pci → c.heldLo who key = some lo → rowOf (key - 4) = some rl → rowOf key = some rh →
          rl.w1c = 0 → rl.w1s = 0 → rl.rwl = 0 → rh.w1c = 0 → rh.w1s = 0 → rh.rwl = 0 →
          Runs (.reg64HiWrite { who := who, ofs := ofs, val := val }) s fun d =>
            (∀ j, j < 32 → bit (d.r (key - 4)) j = if rl.rw.testBit j then bit lo j else bit (c.r (key - 4)) j) ∧
            (∀ j, j < 32 → bit (d.r key) j = if rh.rw.testBit j then bit val j else bit (c.r key) j) ∧
            d.heldLo who key = none ∧ Within c d (keys [key - 4, key]) id)))

/-- R114 to R116: the two words of the unlock sequence, written by one requester, unlock a page for it; the lock word locks it. No other
register changes. -/
def Obligations.PkeyLocksAndUnlocksThePage : Prop :=
  ∀ (s : State) (w : RegWr) (k : PageKind) (i : Nat),
    let c := s.chip
    let slot := w.ofs.toNat / 0x1000
    c.takes w = true → w.ofs.toNat % 0x1000 = 0x03C → pageOf slot = some (k, i) → k.lockable = true →
    (w.val = 0x554E4C4B → Runs (.pkeyUnlock w) s fun d => (slot, w.who) ∈ d.bus.unlk ∧ Only c d (keys []) id) ∧
    (w.val = 0xAAB1B3B4 → (slot, w.who) ∈ c.bus.unlk → Runs (.pkeyUnlock w) s fun d =>
      d.rb (R.H.POWN slot) 3 = false ∧ d.rf (R.H.POWN slot) 7 4 = (c.req w.who).path ∧ d.rf (R.H.POWN slot) 10 8 = (c.req w.who).ken ∧
      Only c d (keys [R.H.POWN slot]) id) ∧
    (w.val = 0xAAB1B3B4 → (slot, w.who) ∉ c.bus.unlk → Runs (.pkeyUnlock w) s fun d => Only c d (keys []) id) ∧
    (w.val = 0x4C4F434B → Runs (.pkeyLock w) s fun d => d.rb (R.H.POWN slot) 3 = true ∧ Only c d (keys [R.H.POWN slot]) id)

/-- R107, R108, R110, R124: the header commands of a page: SRST resets a page's registers, clears PIRQS and locks it, and BUSY stands until it is
done; FRZ asks the block to stop, which FRZD then shows; CLR clears the capture; PIRQF sets the sources a page has. -/
def Obligations.PageHeadersResetFreezeAndForceInterrupts : Prop :=
  ∀ (s : State) (w : RegWr) (k : PageKind) (i : Nat) (slot12 : BitVec 12),
    let c := s.chip
    let slot := w.ofs.toNat / 0x1000
    let ofs := w.ofs.toNat % 0x1000
    pageOf slot = some (k, i) →
    (c.takes w = true →
      (ofs = 0x010 → (k = .ary ∨ k = .drn) → bit w.val 1 = true →
        Runs (.softReset w) s fun d =>
          slot ∈ d.bus.srst ∧ d.r (R.H.PIRQS slot) = 0 ∧ d.rb (R.H.POWN slot) 3 = true ∧
          (∀ o, 0x040 ≤ o → o < 0x1000 → d.r (slot * 0x1000 + o) = resetOf (slot * 0x1000 + o))) ∧
      (ofs = 0x010 → k.hasFrz = true → k ≠ .tile → bit w.val 1 = false →
        (bit w.val 2 = true → c.rb (R.H.PCTL slot) 2 = false →
          Runs (.blockFreeze w) s fun d => d.rb (R.H.PCTL slot) 2 = true ∧ slot ∈ d.bus.frzing ∧
            Within c d (keys []) fun d => { d with bus := c.bus }) ∧
        (bit w.val 2 = false → c.rb (R.H.PCTL slot) 2 = true → c.pageBusy slot = false →
          Runs (.blockUnfreeze w) s fun d => d.rb (R.H.PCTL slot) 2 = false ∧ d.rb (R.H.PSTAT slot) 6 = false ∧ slot ∉ d.bus.frzing ∧
            Within c d (keys []) fun d => { d with bus := c.bus }) ∧
        (bit w.val 2 = false → c.rb (R.H.PCTL slot) 2 = true → c.pageBusy slot = true →
          Runs (.blockUnfreeze w) s fun d => d.rb (R.H.PCTL slot) 2 = true ∧ slot ∈ d.bus.unfrz)) ∧
      (ofs = 0x024 → bit w.val 31 = true →
        Runs (.perrcClear w) s fun d => d.r (R.H.PERRC slot) = 0 ∧ d.r64 (R.H.PERRA_LO slot) = 0 ∧ d.rb (R.H.PSTAT slot) 1 = false ∧
          Only c d (keys [R.H.PERRC slot, R.H.PERRA_LO slot, R.H.PERRA_LO slot + 4, R.H.PSTAT slot]) id) ∧
      (ofs = 0x020 → w.val &&& BitVec.ofNat 32 k.irqMask ≠ 0 →
        Runs (.pirqfWrite w) s fun d =>
          d.r (R.H.PIRQS slot) = (c.r (R.H.PIRQS slot) ||| (w.val &&& BitVec.ofNat 32 k.irqMask)) ∧
          d.r (R.H.PTICK slot) = BitVec.ofNat 32 c.fnum ∧ Within c d (keys []) id)) ∧
    (c.awake = true → slot12.toNat ∈ c.bus.srst → slot12.toNat ∉ c.bus.unfrz →
      Runs (.softResetDone slot12) s fun d => slot12.toNat ∉ d.bus.srst ∧ Only c d (keys []) fun d => { d with bus := c.bus }) ∧
    (c.awake = true → slot12.toNat = slot → k = .dma → c.rb (R.H.PCTL slot) 2 = true → c.rb (R.H.PSTAT slot) 6 = false →
      Runs (.blockFrozen slot12) s fun d => d.rb (R.H.PSTAT slot) 6 = true ∧ slot ∉ d.bus.frzing ∧
        Only c d (keys [R.H.PSTAT slot]) fun d => { d with bus := c.bus })

/-- R38, R40 to R45: a level on an encoder pin is noted; an accepted edge of A or B moves the position by one and sets the direction, and a pitch
multiple that it passes puts a line tick 6 cycles and the filter time later; both at once are a quadrature error; a rising index edge is checked
against the count per revolution.
Details of counting are the model's reading (log entry 26). -/
def Obligations.EncoderEdgesMoveThePosition : Prop :=
  ∀ (s : State) (pin : Fin 3) (level : Bool) (pins : BitVec 3),
    let c := s.chip
    let t := c.tick
    let filt := 8 * c.rf R.TICK.TCFG 10 6
    let moved (i : Nat) : Bool := bit pins i && (bit t.raw i != bit t.acc i)
    let a := if moved 0 then bit t.raw 0 else bit t.acc 0
    let b := if moved 1 then bit t.raw 1 else bit t.acc 1
    (bit t.raw pin.val ≠ level → t.since.length = 3 → Runs (.encoderLevelChange pin level) s fun d =>
      (∀ i : Fin 3, bit d.tick.raw i.val = if i = pin then level else bit t.raw i.val) ∧
      d.tick = { t with raw := d.tick.raw, since := t.since.set pin.val c.now } ∧ Only c d (keys []) fun d => { d with tick := t }) ∧
    (c.awake = true → c.src ≠ 2 →
      (∀ fwd : Bool, c.rf R.TICK.TCFG 3 2 = 2 → moved 2 = false → (moved 0 = true ∧ moved 1 = false ∨ moved 0 = false ∧ moved 1 = true) →
        fwd = ((if moved 0 then a != b else a == b) != c.rb R.TICK.TCFG 4) →
        -(2 : Int) ^ 47 < c.posNow → c.posNow < 2 ^ 47 - 1 → Runs (.encoderFilterAccept pins) s fun d =>
          d.posNow = c.posNow + (if fwd then 1 else -1) ∧ d.rb R.TICK.TSTAT 2 = fwd ∧ bit d.tick.acc 0 = a ∧ bit d.tick.acc 1 = b ∧
          (let due := (if moved 0 then nth 0 t.since 0 else nth 0 t.since 1) + cyc (6 + filt)
           d.tick.lineDue = if c.src = 1 ∧ c.tstate ≠ 0 ∧ t.origin + t.nextIx * c.pitch ≤ d.posNow * 65536 then t.lineDue ++ [due] else t.lineDue) ∧
          Within c d (keys [R.TICK.POS_LO, R.TICK.POS_LO + 4, R.TICK.TSTAT]) fun d => { d with tick := t }) ∧
      (moved 0 = true → moved 1 = true → moved 2 = false → Runs (.encoderFilterAccept pins) s fun d =>
        d.rf R.TICK.QERR 15 0 = min 65535 (c.rf R.TICK.QERR 15 0 + 1) ∧ d.posNow = c.posNow ∧
        Within c d (keys [R.TICK.QERR]) fun d => { d with tick := t }) ∧
      (moved 0 = false → moved 1 = false → moved 2 = true → bit t.raw 2 = true → c.rb R.TICK.TCFG 5 = true →
        Runs (.encoderFilterAccept pins) s fun d => d.tick.zPos = some c.posNow ∧ d.posNow = c.posNow ∧
          (∀ z, t.zPos = some z → d.rf R.TICK.QERR 31 16 =
            if (c.rf R.TICK.ZCPR 31 24 : Int) < (((c.posNow - z).natAbs : Int) - c.rf R.TICK.ZCPR 23 0).natAbs
            then min 65535 (c.rf R.TICK.QERR 31 16 + 1) else c.rf R.TICK.QERR 31 16) ∧
          Within c d (keys [R.TICK.QERR]) fun d => { d with tick := t }))

/-- R44, R47, R49, R50, R59, R61, R65, R344, R596: a line tick of a unit in RUN counts rows and opens a frame with its edge pending after FDLY; the edge begins tick T;
the head sweep empties the caches; a release reaches a kennel's tiles.
Details of the encoder and of releases are the model's reading (log entries 26, 27). -/
def Obligations.LineTicksOpenFramesAndEdgesBeginTicks : Prop :=
  ∀ (s : State) (k : Fin 8),
    let c := s.chip
    let t := c.tick
    let line (d : Chip) (at_ : Nat) : Prop :=
      let bnd := !t.opened || decide (c.rf R.TICK.NDIV 10 0 ≤ t.row + 1)
      d.tick.frame = (if bnd then t.nextF else t.frame) ∧ d.tick.row = (if bnd then 0 else t.row + 1) ∧ d.tick.opened = true ∧
      d.tick.nextF = (if bnd then t.nextF + 1 else t.nextF) ∧ d.tick.lineAt = some (max c.now at_) ∧
      d.tick.pend = (if bnd then t.pend ++ [(max c.now at_ + ns (c.rf R.TICK.FDLY 14 0), t.nextF)] else t.pend) ∧
      (∀ l, t.lineAt = some l → d.rf R.TICK.LPER 23 0 = min 0xFFFFFF ((max c.now at_ - l) / 6)) ∧
      ((∀ g, g < 8 → c.rb (R.LST.LRCFG g) 31 = false) → Within c d (keys [R.TICK.LPER]) fun d => { d with tick := t })
    (c.awake = true → c.tstate = 1 → c.decState ≠ 2 → c.croleOf = 0 →
      (∀ due rest, t.lineDue = due :: rest → c.src = 1 → Runs .lineTick s fun d => line d due ∧ d.tick.lineDue = rest) ∧
      (c.src = 3 → Runs .testLineTick s fun d => line d (t.testAt + ns (fld t.test 19 0)) ∧ d.tick.testAt = d.now)) ∧
    (∀ due f rest, c.calm = true → t.pend = (due, f) :: rest → f < 2 ^ 64 → Runs .frameTickEdge s fun d =>
      d.fnum = f ∧ d.r64 R.TICK.EDGE_LO = (c.waitTo due).gtime ∧ d.tick.pend = rest ∧ d.tick.edgeAt = some (max c.now due) ∧
      d.tick.released = [] ∧ d.tick.flushTick = false ∧ d.tick.swept = false ∧ d.rb R.TBL.TSTAT 0 = true ∧
      (∀ j, j < 8 → nth 0 d.tick.kslot j = d.r (R.TICK.KSLOT j) ∧ d.r (R.TICK.KSLOT j) = c.r (R.TICK.KSLOT j)) ∧
      (∀ e, t.edgeAt = some e → t.lastFlush = false → t.leftAt ≤ e →
        d.r R.TICK.PERIOD = BitVec.ofNat 32 (min 0xFFFFFFFF ((max c.now due - e) / 5)))) ∧
    (∀ e, c.awake = true → t.edgeAt = some e → t.swept = false → Runs .tickHeadSweep s fun d =>
      d.tick.swept = true ∧ d.rb R.TBL.TSTAT 0 = false ∧ e + cyc 256 ≤ d.now ∧ (∀ x ∈ d.ports, x.cache = []) ∧ (∀ x ∈ d.engines, x.cache = []) ∧
      d.cores = c.cores ∧ d.mem = c.mem ∧ d.fnum = c.fnum) ∧
    (∀ e, c.awake = true → c.cores.length = 17 → t.edgeAt = some e → c.kmode k.val = 1 → k.val ∉ t.released → k.val ∉ t.noRel →
      t.reserved = true → nth false c.elg.rsv k.val = true → t.flushLeft = 0 → (c.fnum = 0 ∨ c.flushFrame (c.fnum - 1) = false) →
      (let due := e + cyc (fld (nth 0 t.kslot k.val) 31 8)
       (∀ p ∈ t.pend, due < p.1) → Runs (.kennelRelease k) s fun d =>
        due ≤ d.now ∧ d.tick.released = t.released ++ [k.val] ∧
        (∀ j, j ∈ c.tilesOf k.val → d.rb R.TICK.TDONE j = false ∧
          (c.napped j = false → (c.core j).run = .waitt → (d.core j).run = .run ∧ (d.core j).relPend = (c.core j).relPend) ∧
          (c.napped j = true ∨ (c.core j).run ≠ .waitt → (d.core j).relPend = true ∧ (d.core j).run = (c.core j).run) ∧
          (d.core j).pc = (c.core j).pc ∧ (d.core j).d = (c.core j).d) ∧
        (∀ j, j ∉ c.tilesOf k.val → d.core j = c.core j ∧ (j < 16 → d.rb R.TICK.TDONE j = c.rb R.TICK.TDONE j)) ∧ d.mem = c.mem))

/-- R42, R49, R63, R66, R72 to R74, R80 to R82: with no edge for HOLDTO the unit flushes its open frame with three edges and enters HOLD 40 µs
after the last; the registers of the tick unit take legal values, the timing ones in OFF and HOLD alone, and otherwise show CFGERR.
Details are the model's reading (log entries 26, 27). -/
def Obligations.FlushesAndHoldsAndTickRegistersTakeEffect : Prop :=
  ∀ (s : State) (w : RegWr),
    let c := s.chip
    let t := c.tick
    let key := w.ofs.toNat
    let still := c.tstate = 0 ∨ c.tstate = 3
    (c.awake = true → c.tstate = 1 → c.decState ≠ 2 → t.pend = [] → c.arole ≠ 1 →
      (t.opened = true → Runs .holdTimeout s fun d =>
        d.tstate = 2 ∧ d.tick.flushLeft = 3 ∧ d.tick.flushFrom = some (t.frame + 1) ∧ d.tick.nextF = t.frame + 4 ∧ d.tick.opened = false ∧
        d.tick.flushPer = c.flushNs ∧ max (t.edgeAt.getD 0) t.leftAt + us t.holdto ≤ d.now ∧
        Within c d (keys [R.TICK.TSTAT]) fun d => { d with tick := t }) ∧
      (t.opened = false → t.toOff = false → c.src ≠ 0 → Runs .holdTimeout s fun d =>
        d.tstate = 3 ∧ Within c d (keys [R.TICK.TSTAT]) fun d => { d with tick := t })) ∧
    (∀ a, c.calm = true → c.tstate = 2 → t.pend = [] → t.flushFrom = some a → 0 < t.flushLeft → t.flushLeft ≤ 3 → a + 3 < 2 ^ 64 →
      Runs .flushEdge s fun d => d.fnum = a + (3 - t.flushLeft) ∧ d.tick.flushLeft = t.flushLeft - 1 ∧ d.tick.flushTick = true ∧
        d.now = max c.now t.flushAt ∧ d.tick.edgeAt = some d.now ∧ d.tick.flushAt = d.now + ns t.flushPer ∧
        d.tick.holdAt = if t.flushLeft = 1 then some (d.now + us 40) else none) ∧
    (∀ h, c.awake = true → c.tstate = 2 → t.holdAt = some h → Runs .holdEntry s fun d =>
      d.tstate = (if t.toOff = true ∨ c.src = 0 then 0 else 3) ∧ h ≤ d.now ∧ d.tick.holdAt = none ∧
      Within c d (keys [R.TICK.TSTAT]) fun d => { d with tick := t }) ∧
    (∀ e, c.awake = true → t.pulseEnd = some e → Runs .tickOutPulseEnd s fun d =>
      d.tick = { t with pulseEnd := none } ∧ e ≤ d.now ∧ Only c d (keys []) fun d => { d with tick := t }) ∧
    (c.takes w = true →
      (∀ (reg hi : Nat) (ok : Prop),
        (reg = R.TICK.NDIV ∧ hi = 10 ∧ (ok ↔ still ∧ 8 ≤ fld w.val 10 0 ∧ fld w.val 10 0 ≤ 1024) ∨
         reg = R.TICK.FDLY ∧ hi = 14 ∧ (ok ↔ still ∧ fld w.val 14 0 ≤ 30000) ∨ reg = R.TICK.ZCPR ∧ hi = 31 ∧ (ok ↔ still)) →
        key = reg →
        (ok → Runs (.tickConfigWrite w) s fun d => d.rf reg hi 0 = fld w.val hi 0 ∧ Within c d (keys [reg]) id) ∧
        (¬ok → Runs (.tickConfigWrite w) s fun d => d.rb R.TICK.TSTAT 4 = true ∧ Within c d (keys [R.TICK.TSTAT]) id)) ∧
      (key = R.TICK.LDIV → fld w.val 31 16 ≠ 0 → still → Runs (.tickConfigWrite w) s fun d =>
        d.r R.TICK.LDIV = w.val ∧ d.tick = (if c.tstate = 3 then { t with origin := t.hwm, nextIx := 1 } else t) ∧
        Within c d (keys [R.TICK.LDIV]) fun d => { d with tick := t }) ∧
      (key = R.TICK.TCFG → c.tstate = 0 → c.src = 0 → fld w.val 1 0 = 1 → fld w.val 3 2 ≠ 3 → Runs (.tickConfigWrite w) s fun d =>
        d.rf R.TICK.TCFG 10 0 = fld w.val 10 0 ∧ d.tstate = 1 ∧ d.tick.opened = false ∧ d.tick.leftAt = d.now ∧
        d.tick.origin = c.posNow * 65536 ∧ d.tick.nextIx = 1 ∧
        Within c d (keys [R.TICK.TCFG, R.TICK.TSTAT]) fun d => { d with tick := t }) ∧
      (∀ j, j < 8 → key = R.TICK.KSLOT j → fld w.val 1 0 ≠ 3 → 1200 ≤ fld w.val 31 8 → Runs (.kslotWrite w) s fun d =>
        d.r (R.TICK.KSLOT j) = w.val &&& 0xFFFFFF07 ∧ Within c d (keys [R.TICK.KSLOT j]) id) ∧
      (∀ j : TileId, key = R.TICK.TDONE → w.who = .tile j → Runs (.tdoneWrite w) s fun d =>
        (∀ i, i < 16 → d.rb R.TICK.TDONE i = (c.rb R.TICK.TDONE i || (decide (i = j.val) && bit w.val i))) ∧
        Within c d (keys [R.TICK.TDONE]) id))

/-- R711, R733 to R736, R738 to R740, R742: links lock and fall, heartbeats keep them up and groups follow their links; the mailbox sends one command and takes its
acknowledgement or times out; a group is enabled and disabled.
Details are the model's reading (log entry 24). -/
def Obligations.LinksGroupsAndTheMailboxFollowTheCameras : Prop :=
  ∀ (s : State) (l : Fin 16) (g : Fin 8) (w : RegWr) (cerr : BitVec 16) (tag : BitVec 8) (data : List (BitVec 8)),
    let c := s.chip
    let m := c.ing
    let key := w.ofs.toNat
    let L := R.ING.LNKST l.val
    let idle : Prop := ∀ j, j < 8 → c.gEn j = false
    let follows (d : Chip) : Prop := ∀ j, j < 8 → d.gEn j = true →
      d.rf (R.ING.GSTAT j) 1 0 = if (Chip.gLinks (d.r (R.ING.GCFG j))).all d.linkUp then 1 else 2
    let link (d : Chip) (lock up : Bool) (own : List Nat) : Prop :=
      d.rb L 0 = lock ∧ d.rb L 1 = up ∧ follows d ∧ (idle → Within c d (keys (L :: own)) fun d => { d with ing := m })
    m.since.length = 16 → m.hb.length = 16 → m.groups.length = 8 → c.awake = true →
    (c.lnkEn l.val = true → c.rb L 0 = false → Runs (.linkLock l) s fun d =>
      nth 0 m.since l.val + ms 1 ≤ d.now ∧ link d true (d.hbFresh l.val) []) ∧
    (c.rb L 0 = true → Runs (.cxpLinkLockLoss l cerr) s fun d =>
      link d false false [R.ING.LNKERR l.val] ∧ nth 0 d.ing.since l.val = c.now ∧
      (idle → d.rf (R.ING.LNKERR l.val) 15 0 = min 65535 (c.rf (R.ING.LNKERR l.val) 15 0 + cerr.toNat))) ∧
    (c.lnkEn l.val = true → Runs (.cameraHeartbeat l) s fun d => nth none d.ing.hb l.val = some c.now ∧
      (c.rb L 0 = true → link d true true []) ∧ (c.rb L 0 = false → Only c d (keys []) fun d => { d with ing := m })) ∧
    (c.linkUp l.val = true → Runs (.heartbeatTimeout l) s fun d =>
      link d (c.rb L 0) false [] ∧ (nth none m.hb l.val).getD 0 + ms (c.rf R.ING.HBTO 15 0) ≤ d.now) ∧
    (c.rb R.ING.ICTL 0 = true → Runs .hostHeartbeatSend s fun d =>
      d.now = max c.now (m.hbAt + ms 100) ∧ d.ing = { m with hbAt := d.now } ∧
      (c.lnkEn l.val = true → (∀ j, j < 8 → c.gEn j = true → l.val ∉ (Chip.gLinks (c.r (R.ING.GCFG j))).drop 1) →
        .cxp l.val 1 (bytesLE 8 d.gtime) ∈ d.out) ∧
      Only c d (keys []) fun d => { d with ing := m, out := c.out }) ∧
    (c.lnkEn l.val = true → Runs (.eventPacket l) s fun d =>
      d.rf (R.ING.LNKERR l.val) 31 24 = min 255 (c.rf (R.ING.LNKERR l.val) 31 24 + 1) ∧ Only c d (keys [R.ING.LNKERR l.val]) id) ∧
    (c.mbBusy = true →
      (tag.toNat = m.tag → Runs (.mailboxAck tag true data) s fun d =>
        d.r R.ING.MBST = BitVec.ofNat 32 (2 + min 256 data.length * 65536) ∧
        (∀ i, i < 64 → d.r (R.ING.MBRSP i) = BitVec.ofNat 32 (natLE (((data ++ List.replicate 256 0).drop (4 * i)).take 4))) ∧
        d.rb (R.H.PIRQS Chip.ingSlot) 16 = true ∧ Within c d (keys (R.ING.MBST :: (List.range 64).map fun i => R.ING.MBRSP i)) id) ∧
      (tag.toNat ≠ m.tag → Runs (.mailboxAck tag true data) s fun d => Only c d (keys []) id) ∧
      (Runs .mailboxTimeout s fun d => d.rf R.ING.MBST 1 0 = 3 ∧ d.rb (R.H.PIRQS Chip.ingSlot) 16 = true ∧ m.mbAt + ms 200 ≤ d.now ∧
        Within c d (keys [R.ING.MBST]) id)) ∧
    (c.takes w = true →
      (key = R.ING.MBCTL → bit w.val 24 = true → c.mbBusy = false → 0 < fld w.val 16 8 → fld w.val 16 8 ≤ 256 → c.lnkEn (fld w.val 3 0) = true →
        Runs (.mailboxSend w) s fun d =>
          d.r R.ING.MBST = 1 ∧ d.ing = { m with tag := (m.tag + 1) % 256, mbAt := c.now } ∧
          d.out = .cxp (fld w.val 3 0) 0 (BitVec.ofNat 8 ((m.tag + 1) % 256) ::
            ((List.range 64).flatMap (fun i => bytesLE 4 (c.r (R.ING.MBCMD i)).toNat)).take (fld w.val 16 8)) :: c.out ∧
          Within c d (keys [R.ING.MBST, R.ING.MBCTL]) fun d => { d with ing := m }) ∧
      (key = R.ING.LNKCTL l.val → l.val < c.cxps → fld w.val 2 0 ≠ 7 → Runs (.linkSpeedWrite w) s fun d =>
        d.rf (R.ING.LNKCTL l.val) 2 0 = fld w.val 2 0 ∧ nth 0 d.ing.since l.val = c.now ∧ link d false false [R.ING.LNKCTL l.val]) ∧
      (key = R.ING.GCFG g.val → bit w.val 0 = true → c.gEn g.val = false → c.gcfgBad g.val w.val = false → Runs (.groupEnable w) s fun d =>
        d.gEn g.val = true ∧ d.gImage g.val = bit w.val 1 ∧ (d.igrp g.val).queue = [] ∧
        d.rf (R.ING.GSTAT g.val) 1 0 = (if (Chip.gLinks w.val).all c.linkUp then 1 else 2) ∧
        Within c d (keys [R.ING.GCFG g.val, R.ING.GSTAT g.val]) fun d => { d with ing := m }) ∧
      (key = R.ING.GCFG g.val → bit w.val 0 = false → c.gEn g.val = true → Runs (.groupDisable w) s fun d =>
        d.gEn g.val = false ∧ d.igrp g.val = {} ∧ d.rf (R.ING.GSTAT g.val) 13 0 = 0 ∧
        ((c.igrp g.val).queue = [] → (c.igrp g.val).img = none →
          Within c d (keys [R.ING.GCFG g.val, R.ING.GSTAT g.val]) fun d => { d with ing := m })))

/-- R717 to R725, R727 to R731: a packet that begins a line pairs with the oldest expected line and its pixels are stored; a line lands with its
metadata, or is lost with the reason; triggers go out when they are due; an image lands with its header.
Details are the model's reading (log entry 24). -/
def Obligations.LinesAndImagesLandOrAreLost : Prop :=
  ∀ (s : State) (g : Fin 8) (p : StreamPkt) (x : ExpLine) (delay : BitVec 8) (w : RegWr),
    let c := s.chip
    let j := g.val
    let u := c.igrp j
    let at_ := c.viewSlot j x.slot
    let sf := c.gSf j
    let n := c.gWidth j
    let un (d : Chip) : Chip := { d with ing := c.ing, mem := c.mem, landing := c.landing, elg := c.elg, tick := c.tick, engines := c.engines }
    let others (d : Chip) (a len : Nat) : Prop := ∀ q, (∀ i, i < len → c.locOf .line (a + i) ≠ q) → d.mem.byte q = c.mem.byte q
    c.ing.groups.length = 8 → c.ecc = [] →
    (c.awake = true → c.gEn j = true → c.rf (R.ING.GSTAT j) 1 0 = 1 → p.link.val ∈ Chip.gLinks (c.r (R.ING.GCFG j)) → c.gImage j = false →
      p.strid.toNat = c.rf (R.ING.GCFG j) 31 24 → p.crcOk = true → p.first = true →
      (u.queue = [x] → x.begun = false → x.dead = false → c.now ≤ x.at_ + ns (c.rf (R.ING.GWIN j) 19 0) → x.npix = 0 →
        p.pfmt = some (BitVec.ofNat 2 (c.gPf j)) → Runs (.streamPacket g p) s fun d =>
          (d.igrp j).queue = [{ x with begun := true, npix := p.pix.length, long := x.long || decide (n < p.pix.length), ended := p.last }] ∧
          (∀ i v, i < n → p.pix[i]? = some v →
            (sf = 0 → d.getByte .line (at_ + 64 + i) = BitVec.ofNat 8 (pixOut (c.gPf j) 0 v)) ∧
            (sf = 2 → d.getBytes .line (at_ + 64 + 2 * i) 2 = bytesLE 2 v.toNat)) ∧
          others d (at_ + 64) (lineBytes sf n) ∧ Within c d (keys [R.ING.LNKERR p.link.val, R.ING.GSTAT j]) un) ∧
      (u.queue = [] → Runs (.streamPacket g p) s fun d =>
        d.rf (R.ING.GCNT j) 31 16 = min 65535 (c.rf (R.ING.GCNT j) 31 16 + 1) ∧ (d.igrp j).queue = [] ∧ (d.igrp j).skip = true ∧ d.mem = c.mem)) ∧
    (c.awake = true → u.queue = [x] →
      (x.dead = false → x.begun = true → x.ended = true → x.npix = n → x.long = false → Runs (.lineLanded g) s fun d =>
        (d.igrp j).queue = [] ∧ d.getBytes .line at_ 64 = c.lineMeta j x 0 ∧ others d at_ 64 ∧
        d.r (R.ING.GCNT j) = c.r (R.ING.GCNT j) ∧ d.cores = c.cores) ∧
      (x.dead = true → Runs (.lineDeadline g) s fun d =>
        (d.igrp j).queue = [] ∧ d.getBytes .line at_ 64 = c.lineMeta j x 2 ∧
        (∀ i, i < lineBytes sf n → d.getByte .line (at_ + 64 + i) = c.gFill j) ∧ others d at_ (64 + lineBytes sf n) ∧
        d.rf (R.ING.GCNT j) 15 0 = min 65535 (c.rf (R.ING.GCNT j) 15 0 + 1) ∧ d.cores = c.cores) ∧
      (x.begun = false → Runs (.lineWindowClose g) s fun d =>
        (d.igrp j).queue = [] ∧ x.at_ + ns (c.rf (R.ING.GWIN j) 19 0) ≤ d.now ∧
        d.getBytes .line at_ 64 = (c.waitTo (x.at_ + ns (c.rf (R.ING.GWIN j) 19 0))).lineMeta j x 1 ∧
        (∀ i, i < lineBytes sf n → d.getByte .line (at_ + 64 + i) = c.gFill j) ∧
        d.rf (R.ING.GCNT j) 15 0 = min 65535 (c.rf (R.ING.GCNT j) 15 0 + 1) ∧ d.cores = c.cores)) ∧
    (∀ y due rest, c.awake = true → u.trig = (y, due) :: rest →
      (Runs (.cameraTrigger g delay false) s fun d => d.out = .trigger j due delay.toNat :: c.out ∧ (d.igrp j).trig = rest ∧ due ≤ d.now ∧
        Only c d (keys [R.ING.GSTAT j]) fun d => { d with ing := c.ing, out := c.out }) ∧
      (Runs (.cameraTrigger g delay true) s fun d => d.rf (R.ING.GCNT2 j) 31 16 = min 65535 (c.rf (R.ING.GCNT2 j) 31 16 + 1) ∧ d.out = c.out ∧
        (d.igrp j).queue = u.queue.map (fun e => if e.n = y then { e with tdrop := true } else e) ∧ (d.igrp j).trig = rest ∧
        Only c d (keys [R.ING.GCNT2 j, R.ING.GSTAT j]) fun d => { d with ing := c.ing })) ∧
    (c.takes w = true → w.ofs.toNat = R.ING.ITRIG → Runs (.imageTrigger w) s fun d =>
      (∀ i, i < 8 → bit w.val i = true → c.gEn i = true → c.gImage i = true → .trigger i c.now 0 ∈ d.out) ∧
      Within c d (keys []) id) ∧
    (∀ e : ImgRx, c.awake = true → u.img = some e → e.ended = true → e.part = false → e.pix = e.xsize * e.ysize → 0 < e.xsize →
      lineBytes sf e.xsize * e.ysize + 64 ≤ c.imgEnd j e - e.base → Runs (.imageLanded g) s fun d =>
        (d.igrp j).img = none ∧ (d.igrp j).seq = u.seq + 1 ∧ d.rf (R.ING.GSTAT j) 31 16 = u.seq % 65536 ∧ d.rb (R.H.PIRQS Chip.ingSlot) j = true ∧
        d.getBytes .line e.base 4 = bytesLE 4 u.seq ∧ d.getBytes .line (e.base + 4) 8 = bytesLE 8 e.fnum ∧
        d.getBytes .line (e.base + 16) 8 = bytesLE 8 e.fgt ∧ d.getBytes .line (e.base + 24) 8 = bytesLE 8 c.gtime ∧
        d.getBytes .line (e.base + 32) 8 = bytesLE 4 e.xsize ++ bytesLE 4 e.ysize ∧ others d e.base 64 ∧
        Within c d (keys [R.ING.GSTAT j]) fun d => { d with ing := c.ing, mem := c.mem })

/-- R849 to R859, R867, R869, R873: from the tick head the ledger forms its budget and reserves each kennel's grant and debt: what is reserved and what is left
in the pool are together what the budget leaves; a fixed kennel that fits first is served; deferral ends for kennels with a new reservation and begins at
a kennel's limit.
Details are the model's reading, and the coefficients of the meters are free (log entries 25, 3). -/
def Obligations.TheLedgerReservesItsBudgetAndDefersKennels : Prop :=
  ∀ (s : State) (k : Fin 8),
    let c := s.chip
    let g := c.elg
    let total (f : Nat → Nat) : Nat := ((List.range 8).map f).sum
    let formed (d : Chip) (T : Nat) : Prop :=
      let tbud := c.rf R.ELG.BUDGET 16 0 * T / 1000000
      let board := c.rf R.ELG.BOARD 17 0
      let der := if c.rb R.ELG.LSTAT 0 then c.rf R.ELG.DERATE 23 0
        else if board ≠ 0 ∧ board < c.pmAvg then (c.pmAvg - board) * T / 1000000 else 0
      d.elg.formed = true ∧ d.tick.reserved = true ∧ d.rf R.ELG.TBUD 23 0 = min tbud 0xFFFFFF ∧ d.rf R.ELG.DERATE 23 0 = min der 0xFFFFFF ∧
      (∀ j, j < 8 → nth 0 d.elg.kgrant j = c.rf (R.ELG.KGRANT j) 23 0 ∧ nth 0 d.elg.kcap j = c.rf (R.ELG.KCAP j) 23 0 ∧
        nth 0 d.elg.kcfg j = c.r (R.ELG.KCFG j) ∧
        nth 0 d.elg.res j = if nth false d.elg.rsv j then c.rf (R.ELG.KGRANT j) 23 0 else 0)
    let kept (d : Chip) (T : Nat) : Prop :=
      let tbud := c.rf R.ELG.BUDGET 16 0 * T / 1000000
      let board := c.rf R.ELG.BOARD 17 0
      let der := if c.rb R.ELG.LSTAT 0 then c.rf R.ELG.DERATE 23 0
        else if board ≠ 0 ∧ board < c.pmAvg then (c.pmAvg - board) * T / 1000000 else 0
      let room := tbud - der - max (c.rf R.ELG.OVHFIX 23 0) g.ovhmet
      (total fun j => if nth false d.elg.rsv j then c.rf (R.ELG.KGRANT j) 23 0 + nth 0 g.debt j else 0) * 1000000 + d.elg.pool = room * 1000000 ∧
      (∀ j, j < 8 → nth 0 d.elg.debt j = if nth false d.elg.rsv j then 0 else nth 0 g.debt j) ∧
      (∀ j, j < 8 → c.reserves j = false → nth false d.elg.rsv j = false) ∧
      (∀ j, j < 8 → c.reserves j = true → c.rb (R.ELG.KCFG j) 0 = true → (∀ i, i < j → c.rb (R.ELG.KCFG i) 0 = false) →
        c.rf (R.ELG.KGRANT j) 23 0 + nth 0 g.debt j ≤ room → nth false d.elg.rsv j = true)
    (∀ e, c.awake = true → c.tick.edgeAt = some e → c.tick.reserved = false → c.tstate = 1 ∨ c.tstate = 2 → g.debt.length = 8 →
      Runs .ledgerReservation s fun d => formed d (c.tickLen false) ∧ kept d (c.tickLen false) ∧ e + cyc 257 ≤ d.now ∧ d.rb R.ELG.LSTAT 2 = false) ∧
    (∀ e, c.calm = true → c.tick.edgeAt = some e → c.tick.reserved = true → Runs .deferralEnd s fun d =>
      (∀ j, j < 8 → d.deferred j = (c.deferred j && !nth false g.newRes j)) ∧ d.elg.newRes = List.replicate 8 false ∧ e + cyc 1023 ≤ d.now ∧
      d.mem = c.mem) ∧
    (c.calm = true → (c.tstate = 0 ∨ c.tstate = 3) → Runs .ledgerRound s fun d =>
      formed d 1000000 ∧ d.elg.roundAt = max c.now (g.roundAt + ms 1) ∧ d.rb R.ELG.LSTAT 2 = true ∧
      (∀ j, j < 8 → nth 0 d.elg.klast j = nth 0 g.chg j / 1000000 ∧ nth 0 d.tick.kslot j = c.r (R.TICK.KSLOT j))) ∧
    (c.calm = true → c.atLimit k.val = true →
      (nth false g.rsv k.val = true → bit (nth 0 g.kcfg k.val) 0 = true → bit (nth 0 g.kcfg k.val) 1 = true → c.rb (R.KMAP.KSTAT k.val) 3 = false →
        Runs (.kennelDeferral k) s fun d => d.rb (R.KMAP.KSTAT k.val) 3 = true ∧ d.rf (R.KMAP.KSTAT k.val) 31 16 = 0x0803 ∧ d.mem = c.mem) ∧
      (c.deferred k.val = false → (nth false g.rsv k.val = false ∨ bit (nth 0 g.kcfg k.val) 0 = false ∨ bit (nth 0 g.kcfg k.val) 1 = false) →
        Runs (.kennelDeferral k) s fun d => d.deferred k.val = true ∧
          d.rf (R.ELG.KECNT k.val) 15 0 = min 65535 (c.rf (R.ELG.KECNT k.val) 15 0 + 1) ∧
          (∀ t, t ∉ c.tilesOf k.val → d.core t = c.core t) ∧
          (∀ t, t ∈ c.tilesOf k.val → c.cores.length = 17 → (c.core t).run = .waitt → (c.core t).stopReq = false → (c.core t).loads = [] →
            c.dbg.stepping = [] → (d.core t).run = .frozen ∧ (d.core t).before = .waitt) ∧
          d.mem = c.mem))

/-- R859 to R864, R871: a muzzle window's energy moves the muzzle level; the regulators' telemetry is summed, averaged and shown; an alert forces level 3;
the calibration check compares meters and telemetry; the ledger's registers take legal values when their page is unlocked.
Details are the model's reading (log entry 25). -/
def Obligations.MuzzleTelemetryAndLedgerRegistersAct : Prop :=
  ∀ (s : State) (rs : List (Option (BitVec 5 × BitVec 16 × BitVec 16))) (sw : List (BitVec 16)) (w : RegWr),
    let c := s.chip
    let g := c.elg
    let n := c.rf R.ELG.PMCFG 11 8
    let meters (d : Chip) : Chip := { d with elg := g }
    (c.awake = true →
      (Runs .muzzleWindow s fun d =>
        d.elg.winAt = max c.now (g.winAt + us (c.rf R.ELG.MUZ 7 0)) ∧ d.elg.winAll = d.elg.all ∧
        d.elg.mlvl = (if c.rb R.ELG.LSTAT 1 then 3
          else if c.rf R.ELG.BUDGET 16 0 * c.rf R.ELG.MUZ 7 0 * c.rf R.ELG.MUZ 15 8 * 10 < d.elg.all - g.winAll then min 3 (g.mlvl + 1)
          else g.mlvl - 1) ∧
        Only c d (keys []) meters) ∧
      (c.rb R.ELG.LSTAT 0 = false → g.tel ≠ 0 → Runs .calibrationCheck s fun d =>
        let m : Int := ((d.elg.all - g.calAll) / 1000000 : Nat)
        d.elg.calErr = max (-32768) (min 32767 ((m - g.tel) * 1000 / g.tel)) ∧ d.elg.tel = 0 ∧ d.elg.calAll = d.elg.all ∧
        d.elg.calAt = max c.now (g.calAt + ms 1024) ∧ Within c d (keys []) meters)) ∧
    (c.coreUp = true →
      (n ≤ 8 → g.last.length = 8 → g.vexp.length = 8 → g.hist.length ≤ 8 →
        (∀ i, i < n → ∃ v vo io, nth none rs i = some (v, vo, io) ∧ nth none g.vexp i = some v) →
        Runs (.pmbusPoll rs) s fun d =>
          (∀ i, i < n → ∀ v vo io, nth none rs i = some (v, vo, io) → nth 0 d.elg.last i = Chip.pmPower v vo io) ∧
          (∀ i, n ≤ i → nth 0 d.elg.last i = nth 0 g.last i) ∧
          d.rf R.ELG.PMPWR 17 0 = min ((d.elg.last.take n).sum) 0x3FFFF ∧ d.elg.fails = 0 ∧ d.rb R.ELG.LSTAT 0 = false ∧
          d.elg.hist.getLast? = some ((d.elg.last.take n).sum) ∧ d.elg.hist.length = min 8 (g.hist.length + 1) ∧
          d.elg.pollAt = max c.now (g.pollAt + ms (c.rf R.ELG.PMCFG 7 0)) ∧ Within c d (keys [R.ELG.PMPWR, R.ELG.LSTAT]) meters) ∧
      (n = 1 → nth none rs 0 = none → Runs (.pmbusPoll rs) s fun d =>
        d.elg.last = g.last ∧ d.elg.fails = g.fails + 1 ∧ d.rb R.ELG.LSTAT 0 = decide (8 ≤ g.fails + 1) ∧
        Within c d (keys [R.ELG.PMPWR, R.ELG.LSTAT]) meters) ∧
      (c.rb R.ELG.LSTAT 1 = false → Runs (.pmbAlert sw) s fun d =>
        d.rb R.ELG.LSTAT 1 = true ∧ d.elg = { g with mlvl := 3 } ∧ Within c d (keys [R.ELG.LSTAT]) meters)) ∧
    (Runs .pmbAlertRelease s fun d => d.rb R.ELG.LSTAT 1 = false ∧ Only c d (keys [R.ELG.LSTAT]) id) ∧
    (c.takes w = true → c.rwlOk w.who 0x00A = true → w.ofs.toNat = R.ELG.BUDGET →
      (1000 ≤ fld w.val 16 0 → fld w.val 16 0 ≤ 120000 → Runs (.ledgerConfigWrite w) s fun d =>
        d.rf R.ELG.BUDGET 16 0 = fld w.val 16 0 ∧ Within c d (keys [R.ELG.BUDGET]) id) ∧
      ((fld w.val 16 0 < 1000 ∨ 120000 < fld w.val 16 0) → Runs (.ledgerConfigWrite w) s fun d =>
        d.rb R.ELG.LSTAT 3 = true ∧ Within c d (keys [R.ELG.LSTAT]) id)) ∧
    (∀ j, j < 8 → c.takes w = true → w.ofs.toNat = R.ELG.KGRANT j →
      (c.rwlOk w.who 0x00A = true → Runs (.ledgerConfigWrite w) s fun d =>
        d.rf (R.ELG.KGRANT j) 23 0 = fld w.val 23 0 ∧ Within c d (keys [R.ELG.KGRANT j]) id) ∧
      (c.rwlOk w.who 0x00A = false → Runs (.ledgerConfigWrite w) s fun d =>
        d.rb (R.H.PSTAT 0x00A) 5 = true ∧ Within c d (keys []) id))

/-- R155, R161, R167 to R171, R174, R175: a legal commit copies the staging map and empties the tiles that change hands; an illegal one is refused with its
reason; kennels freeze, resume and are reset in steps; an allocation entry takes the staged image. -/
def Obligations.TheKennelMapIsCommittedAndKennelsFreezeAndReset : Prop :=
  ∀ (s : State) (w : RegWr) (t : TileId) (k : Fin 8),
    let c := s.chip
    let key := w.ofs.toNat
    let ts := (c.ken k.val).tiles
    let n := k.val
    (c.takes w = true → key = R.KMAP.CMT → bit w.val 0 = true → c.rwlOk w.who 0x00C = true → c.rb R.KMAP.CSTAT 0 = false → c.sp.length = 16 → c.cores.length = 17 →
      (bit w.val 1 = true → Runs (.kmapCommitArm w) s fun d =>
        d.rb R.KMAP.CSTAT 0 = true ∧ Within c d (keys [R.KMAP.CSTAT]) id) ∧
      (bit w.val 1 = false → c.mapWhy = 0 → Runs (.kmapCommitNow w) s fun d =>
        (∀ o, o ∈ [0x040, 0x044, 0x048] ++ (List.range 108).map (fun i => 0x050 + 4 * i) → d.r (0xC400 + o) = c.r (0xC000 + o) ∧
          d.r (0xC000 + o) = c.r (0xC000 + o)) ∧
        (d.r R.KMAP.CSEQ).toNat = ((c.r R.KMAP.CSEQ).toNat + 1) % 2 ^ 32 ∧ d.rb R.KMAP.CSTAT 0 = false ∧
        (∀ j, j < c.tiles → d.owner j = c.stOwner j) ∧
        (∀ j, j < c.tiles → c.stOwner j ≠ c.owner j → (d.scratch j).fillAll = true ∧ (d.core j).run = .stopped) ∧
        (∀ j, j < c.tiles → c.stOwner j = c.owner j → d.core j = c.core j ∧ (d.scratch j).fillAll = (c.scratch j).fillAll) ∧ d.mem = c.mem) ∧
      (bit w.val 1 = false → c.mapWhy ≠ 0 → Runs (.kmapCommitNow w) s fun d =>
        d.rb R.KMAP.CSTAT 1 = true ∧ d.rf R.KMAP.CSTAT 7 4 = c.mapWhy ∧ Within c d (keys [R.KMAP.CSTAT]) id)) ∧
    (c.calm = true → c.sp.length = 16 → (c.scratch t.val).fillAll = true → Runs (.tileZeroFillDone t) s fun d =>
      (∀ a, spBase t.val ≤ a → a < spBase t.val + 0x800000 → d.mem.byte a = 0) ∧
      (∀ a, (a < spBase t.val ∨ spBase t.val + 0x800000 ≤ a) → d.mem.byte a = c.mem.byte a) ∧
      (d.scratch t.val).fillAll = false ∧ slotTile t.val ∉ d.bus.srst ∧ slotAry t.val ∉ d.bus.srst ∧ slotDrn t.val ∉ d.bus.srst) ∧
    (c.takes w = true → key = R.KMAP.KCTL n → c.kens.length = 8 → (∀ j, c.core j = { c.core j with run := .stopped }) →
      (bit w.val 0 = true → bit w.val 1 = false → c.rb (R.KMAP.KCTL n) 0 = false → c.kstate n = 0 → Runs (.kennelFreeze w) s fun d =>
        d.kstate n = 1 ∧ d.rb (R.KMAP.KCTL n) 0 = true ∧ (d.ken n).tiles = c.tilesOf n ∧
        Within c d (keys [R.KMAP.KCTL n, R.KMAP.KSTAT n]) fun d => { d with kens := c.kens }) ∧
      (bit w.val 0 = false → bit w.val 1 = false → c.rb (R.KMAP.KCTL n) 0 = true → c.kstate n = 2 → Runs (.kennelResume w) s fun d =>
        d.kstate n = 0 ∧ d.rb (R.KMAP.KCTL n) 0 = false ∧ Within c d (keys [R.KMAP.KCTL n, R.KMAP.KSTAT n]) id) ∧
      (bit w.val 1 = true → (c.kstate n = 0 ∨ c.kstate n = 2) → Runs (.kennelReset w) s fun d =>
        d.kstate n = (if c.kstate n = 2 then 3 else 1) ∧ (d.ken n).rstSeq = true ∧ (d.ken n).tiles = c.tilesOf n ∧
        Within c d (keys [R.KMAP.KCTL n, R.KMAP.KSTAT n]) fun d => { d with kens := c.kens })) ∧
    (c.calm = true → (∀ j ∈ ts, j < 16 ∧ (c.core j).run = .stopped ∧ (nth {} c.ary j).runs = [] ∧ (nth {} c.drn j).jobs = []) → c.cores.length = 17 → c.sp.length = 16 → c.kens.length = 8 →
      (c.kstate n = 1 → Runs (.kennelFreezeDone k) s fun d =>
        d.kstate n = (if (c.ken n).fltSeq = true ∨ (c.ken n).rstSeq = true then 3 else if c.rb (R.KMAP.KCTL n) 0 then 2 else 0)) ∧
      (c.kstate n = 3 → Runs (.kennelResetDone k) s fun d =>
        d.kstate n = (if c.rb (R.KMAP.KCTL n) 0 then 2 else 0) ∧ d.ken n = {} ∧
        (∀ j ∈ ts, (d.core j).run = .stopped ∧ (d.core j).pc = 0 ∧ (d.core j).d = List.replicate 32 0 ∧ (d.core j).a = List.replicate 16 0 ∧
          (d.scratch j).rings = List.replicate 16 {} ∧ d.r (R.H.PIRQS (slotTile j)) = 0 ∧ d.rb (R.H.POWN (slotTile j)) 3 = true) ∧
        (∀ j, j ∉ ts → d.core j = c.core j) ∧ d.mem = c.mem)) ∧
    (c.takes w = true → key = R.TBL.ARWR → bit w.val 31 = true → c.ecc = [] →
      (let a := 0x2800000000 + fld w.val 10 8 * 0x1000 + 16 * fld w.val 7 0
       Runs (.allocEntryWrite w) s fun d =>
        d.getBytes .table a 16 = (List.range 4).flatMap (fun i => bytesLE 4 (c.r (R.TBL.ARSTG i)).toNat) ∧
        (∀ q, (q < a ∨ a + 16 ≤ q) → d.mem.byte q = c.mem.byte q) ∧ Within c d (keys []) fun d => { d with mem := c.mem }))

/-- R206 to R208, R216, R228 to R231, R234, R236, R239, R347 to R349, R355: a tile's bank map and protection, its zero-fill and scrubber, its rings'
life, its slip log, its program store, and its core's start, stop and software interrupts.
Details are the model's reading (log entry 40). -/
def Obligations.TilesAreConfiguredAndTheirRingsAndCoresStart : Prop :=
  ∀ (s : State) (w : RegWr) (q : RegRd) (t : TileId) (x : Fin 16) (wgt : Bool),
    let c := s.chip
    let k := t.val
    let key := w.ofs.toNat
    let r := c.ring k x.val
    let z := c.spSize / 8
    let code (v : BitVec 32) (i : Nat) : Nat := fld v (3 * i + 2) (3 * i)
    (c.takes w = true → c.sp.length = 16 → c.cores.length = 17 →
      (key = R.TILE.SPBMAP k →
        ((∀ i, i < 8 → code w.val i ≤ 4 ∧ (code w.val i = code (c.r key) i ∨ c.quadRinged k i = false)) → Runs (.scratchpadMapWrite w) s fun d =>
          d.rf key 23 0 = fld w.val 23 0 ∧ Within c d (keys [key]) id) ∧
        (∀ i, i < 8 → 4 < code w.val i → Runs (.scratchpadMapWrite w) s fun d =>
          d.rb (R.TILE.SPSTAT k) 0 = true ∧ Within c d (keys [R.TILE.SPSTAT k]) id)) ∧
      (key = R.TILE.SPPROT k → (∀ i, i < 8 → c.rf (R.TILE.SPBMAP k) (3 * i + 2) (3 * i) = 0) → Runs (.scratchpadMapWrite w) s fun d =>
        d.rf key 7 0 = fld w.val 7 0 ∧
        (∀ i, i ∈ (d.scratch k).zfill ↔ i ∈ (c.scratch k).zfill ∨ (i < 8 ∧ bit w.val i ≠ c.rb key i)) ∧
        Within c d (keys [key]) fun d => { d with sp := c.sp }) ∧
      (key = R.TILE.RACT k → bit w.val 24 = true → bit w.val 25 = false → fld w.val 19 16 = x.val → r.activating = none → c.ports.length = 17 →
        (∀ bs, (c.descCache (.tile k)).find? (fun e => e.1 == fld w.val 15 0) = some (fld w.val 15 0, bs) →
          c.fence (c.owner k) .table (Chip.entryAddr (fld w.val 15 0)) 64 false = none → (c.scratch k).rings.length = 16 →
          Runs (.ringActivate w) s fun d => (d.ring k x.val).activating = some (fld w.val 15 0, bs) ∧ (d.ring k x.val).active = r.active ∧
            Within c d (keys []) fun d => { d with sp := c.sp, ports := c.ports })) ∧
      (key = R.TILE.RACT k → bit w.val 24 = false → bit w.val 25 = true → fld w.val 19 16 = x.val → r.activating = none → r.active = true →
        (c.scratch k).rings.length = 16 → Runs (.ringDeactivate w) s fun d =>
          (d.ring k x.val) = { r with active := false, stalls := [] } ∧ d.rf (R.TILE.RST k x.val) 1 0 = 0 ∧ d.rf (R.TILE.RST k x.val) 31 16 = 0 ∧
          Within c d (keys [R.TILE.RST k x.val]) fun d => { d with sp := c.sp }) ∧
      (key = R.TILE.SWI k → Runs (.softwareInterrupt w) s fun d =>
        (∀ i, i < 16 → d.rb key i = (c.rb key i || bit w.val i)) ∧ Within c d (keys [key]) id) ∧
      (key = R.TILE.PLOAD k → bit w.val 0 = true → (c.core k).run = .stopped → Runs (.programFill w) s fun d =>
        (d.core k).run = .filling ∧ d.r (R.TILE.PFSTAT k) = 1 ∧ (∀ j, j ≠ k → d.core j = c.core j) ∧
        Within c d (keys [R.TILE.PFSTAT k]) fun d => { d with cores := c.cores }) ∧
      (key = R.TILE.CCTL k →
        (bit w.val 0 = true → bit w.val 1 = false → c.rf (R.TILE.PFSTAT k) 1 0 = 2 → (c.core k).run = .stopped → c.coreFrz k = false →
          Runs (.coreRun w) s fun d =>
            (d.core k).run = .run ∧ (d.core k).pc = BitVec.ofNat 48 (c.r64 (R.TILE.ENTRY_LO k)) ∧ (d.core k).priv = true ∧ (d.core k).ie = false ∧
            (d.core k).exl = false ∧ (d.core k).d = (c.core k).d ∧ (∀ j, j ≠ k → d.core j = c.core j) ∧
            Within c d (keys [key]) fun d => { d with cores := c.cores }) ∧
        (bit w.val 0 = true → c.rf (R.TILE.PFSTAT k) 1 0 ≠ 2 → Runs (.coreRun w) s fun d =>
          (d.core k) = { c.core k with cfgErr := true } ∧ Within c d (keys []) fun d => { d with cores := c.cores }) ∧
        (bit w.val 0 = false → bit w.val 1 = false → (c.core k).run = .run → (c.core k).loads = [] → Runs (.coreStop w) s fun d =>
          (d.core k).run = .stopped ∧ (d.core k).pc = (c.core k).pc ∧ (d.core k).d = (c.core k).d ∧ (∀ j, j ≠ k → d.core j = c.core j) ∧
          Within c d (keys [key, R.DBG.HSTAT]) fun d => { d with cores := c.cores }))) ∧
    (c.calm = true → c.sp.length = 16 → c.cores.length = 17 →
      ((∀ i ∈ (c.scratch k).zfill, i < 8) → Runs (.spprotZeroFillDone t) s fun d =>
        (∀ i a, i ∈ (c.scratch k).zfill → spBase k + i * z ≤ a → a < spBase k + (i + 1) * z → d.mem.byte a = 0) ∧
        (∀ a, (∀ i ∈ (c.scratch k).zfill, a < spBase k + i * z ∨ spBase k + (i + 1) * z ≤ a) → d.mem.byte a = c.mem.byte a) ∧
        (d.scratch k).zfill = [] ∧ Only c d (keys []) fun d => { d with sp := c.sp, mem := c.mem, ecc := c.ecc }) ∧
      (∀ i bs, r.activating = some (i, bs) → (c.scratch k).rings.length = 16 → i < 65536 →
        let b := c.modRing k x.val fun r => { r with activating := none, deactDue := false }
        (r.deactDue = false → b.ringWhy k x.val bs = 0 → Runs (.ringActivateDone t x) s fun d =>
          (d.ring k x.val).active = true ∧ (d.ring k x.val).nslot = (Chip.ringOf bs).nslot ∧ (d.ring k x.val).base = (Chip.ringOf bs).base ∧
          (d.ring k x.val).tag = (Chip.ringOf bs).tag ∧ (d.ring k x.val).pside = (Chip.ringOf bs).pside ∧ (d.ring k x.val).cside = (Chip.ringOf bs).cside ∧
          d.rb (R.TILE.RST k x.val) 0 = true ∧ d.rf (R.TILE.RST k x.val) 31 16 = i ∧ d.r (R.TILE.RPOS k x.val) = 0 ∧ d.mem = c.mem) ∧
        (b.ringWhy k x.val bs ≠ 0 → Runs (.ringActivateDone t x) s fun d =>
          d.rf (R.TILE.RST k x.val) 7 4 = b.ringWhy k x.val bs ∧ (d.ring k x.val).active = r.active ∧
          Within c d (keys [R.TILE.RST k x.val]) fun d => { d with sp := c.sp })) ∧
      (∀ ag t0 rest, r.stalls = (ag, t0) :: rest → (c.scratch k).rings.length = 16 → c.rb (R.KMAP.KSTAT (c.owner k)) 3 = false →
        Runs (.ringStallTimeout t x) s fun d =>
          d.rb (R.KMAP.KSTAT (c.owner k)) 3 = true ∧ d.rf (R.KMAP.KSTAT (c.owner k)) 31 16 = 0x0302 ∧ t0 + cyc r.tout ≤ d.now)) ∧
    (c.awake = true → c.sp.length = 16 → c.ecc = [] → c.rb (R.TILE.SPSCRB k) (if wgt then 0 else 1) = true →
      Runs (.scratchpadScrubPass t wgt []) s fun d =>
        (d.scratch k) = (if wgt then { c.scratch k with wScrub := d.now } else { c.scratch k with sScrub := d.now }) ∧
        Only c d (keys []) fun d => { d with sp := c.sp, elg := c.elg }) ∧
    (∀ loc v, c.awake = true → c.sp.length = 16 → c.ecc = [(loc, v)] → spBase k ≤ loc → loc < spBase k + c.spSize →
      c.rb (R.TILE.SPPROT k) ((loc - spBase k) / z) = wgt → c.rb (R.TILE.SPSCRB k) (if wgt then 0 else 1) = true →
      Runs (.scratchpadScrubPass t wgt []) s fun d =>
        d.ecc = (match v with | .ce => [] | .ue => [(loc, .poison)] | v => [(loc, v)]) ∧ d.mem = c.mem) ∧
    (c.gives q = true → q.ofs.toNat = R.TILE.SLOG0 k → c.sp.length = 16 → c.pagePwr (slotTile k) = 0 → c.inSrst (slotTile k) = false →
      c.slotEmpty (slotTile k) = false → Runs (.slipLogRead q) s fun d =>
      d.out = .read q.who q.ofs.toNat (c.slipHead k 0) :: c.out ∧ (d.scratch k).slips = (c.scratch k).slips.drop 1 ∧
      Only c d (keys [R.TILE.SLOGN k]) fun d => { d with sp := c.sp, out := c.out }) ∧
    (c.calm = true → c.sp.length = 16 → c.cores.length = 17 → (c.core k).run = .filling → c.ecc = [] →
      (let n := c.rf (R.TILE.PLEN k) 12 0 * 24
       let a := c.r64 (R.TILE.PBASE_LO k) % 2 ^ 48
       c.ownWindow a n = a → c.regionOf a n = .sp k → c.fence (c.owner k) (.sp k) a n false = none → c.unavailable (.sp k) a n = none →
       Runs (.programFillDone t.castSucc) s fun d =>
        d.r (R.TILE.PFSTAT k) = 2 ∧ (d.core k).run = .stopped ∧
        (∀ i, i < n → d.pstore.byte (k * 0x20000 + i) = c.getByte (.sp k) (a + i)) ∧ d.mem = c.mem))

/-- R260, R268, R271, R274, R279, R283, R284, R288, R290, R636, R643, R1070: a stack's reads return their data to the transfer that
asked for them, its buffered writes retire, its scrubber, temperature, self-refresh, failure and training act as described; a view ring is
set up while it is off, and a ring that cannot be is refused.
Details are the model's reading (log entries 13, 23). -/
def Obligations.TheStacksAndViewRingsActAsCommanded : Prop :=
  ∀ (s : State) (w : RegWr) (st : Fin 4) (v : Fin 8) (i : Nat) (temp : BitVec 8) (ok wrote : Bool) (why : BitVec 4),
    let c := s.chip
    let k := st.val
    let key := w.ofs.toNat
    let q := nth { pch := 0, addr := 0, len := 0, eng := 0, id := 0, ofs := 0 } (c.hbmSt k).rq i
    (∀ (j : Job) (a n o : Nat) (rest : List DmaOp), c.awake = true → c.ecc = [] → c.hbm.length = 4 → c.engines.length = 8 → i < (c.hbmSt k).rq.length →
      q.eng < 8 → (c.eng q.eng).jobs = [j] → (c.eng q.eng).moves = [] → j.x.id = q.id → j.x.ops = .rd a n o :: rest →
      c.ownWindow q.addr q.len = q.addr → c.regionOf q.addr q.len = .hbm → c.fence j.ken .hbm q.addr q.len false = none →
      c.unavailable .hbm q.addr q.len = none → Runs (.hbmReadReturn st i []) s fun d =>
        (d.hbmSt k).rq = (c.hbmSt k).rq.eraseIdx i ∧
        (∃ x, (d.eng q.eng).jobs = [{ j with x := x }] ∧ x.ops = rest ∧ x.busy = false ∧ x.unit = j.x.unit ∧
          (∀ b, b < q.len → x.buf.byte (o + b) = c.getByte .hbm (q.addr + b)) ∧
          (∀ b, (b < o ∨ o + q.len ≤ b) → x.buf.byte b = j.x.buf.byte b)) ∧
        Only c d (keys []) fun d => { d with hbm := c.hbm, engines := c.engines, elg := c.elg }) ∧
    (c.awake = true → c.hbm.length = 4 → Runs (.hbmWriteRetire st i) s fun d =>
      (d.hbmSt k).wbuf = (c.hbmSt k).wbuf.eraseIdx i ∧ (d.hbmSt k).rq = (c.hbmSt k).rq ∧ Only c d (keys []) fun d => { d with hbm := c.hbm }) ∧
    (c.awake = true → c.surv (16 + k) = true → k < c.stackCnt → c.hbm.length = 4 →
      (c.ecc = [] → c.rb (R.HBM.CTL k) 1 = true → c.rf (R.HBM.STAT k) 2 0 = 2 → Runs (.hbmPatrolScrub st []) s fun d =>
        Only c d (keys []) fun d => { d with elg := c.elg }) ∧
      (∀ loc m, c.ecc = [(loc, m)] → c.regionOf loc 1 = .hbm → c.stackOf loc = k → c.rb (R.HBM.CTL k) 1 = true → c.rf (R.HBM.STAT k) 2 0 = 2 →
        Runs (.hbmPatrolScrub st []) s fun d =>
          d.ecc = (match m with | .ce | .odc => [] | _ => [(loc, .poison)]) ∧ d.mem = c.mem ∧
          (m = .ue → d.rf (R.HBM.ECC k) 31 24 = min 255 (c.rf (R.HBM.ECC k) 31 24 + 1)) ∧
          (m = .odc → d.rf (R.HBM.ECC k) 23 12 = min 4095 (c.rf (R.HBM.ECC k) 23 12 + 1))) ∧
      (Runs (.hbmTemperatureRead st temp) s fun d =>
        d.rf (R.HBM.STAT k) 15 8 = temp.toNat ∧ d.rf (R.HBM.STAT k) 2 0 = c.rf (R.HBM.STAT k) 2 0 ∧
        (d.hbmSt k).warm = decide (c.rf (R.HBM.THERM k) 7 0 ≤ temp.toNat) ∧
        (105 ≤ temp.toNat → (d.hbmSt k).hot = true) ∧ (temp.toNat < 100 → (d.hbmSt k).hot = false) ∧
        Within c d (keys [R.HBM.STAT k]) fun d => { d with hbm := c.hbm }) ∧
      (c.rf (R.HBM.STAT k) 2 0 ≠ 4 → Runs (.hbmStackFail st) s fun d =>
        d.rf (R.HBM.STAT k) 2 0 = 4 ∧ d.rf (R.HBM.STAT k) 15 8 = c.rf (R.HBM.STAT k) 15 8 ∧ Within c d (keys [R.HBM.STAT k]) id)) ∧
    (c.takes w = true → key = R.HBM.CTL k → c.rwlOk w.who (slotHbm k) = true → c.rb key 0 = false →
      (bit w.val 0 = true → c.stackMode = true → c.rangeOn k = false → c.rf (R.HBM.STAT k) 2 0 = 2 → Runs (.hbmSelfRefresh w) s fun d =>
        d.rb key 0 = true ∧ d.rf (R.HBM.STAT k) 2 0 = 3 ∧
        Within c d (keys [key, R.HBM.STAT k]) fun d => { d with pwr := { d.pwr with trec := c.pwr.trec } }) ∧
      (bit w.val 0 = true → (c.stackMode = false ∨ c.rangeOn k = true) → Runs (.hbmSelfRefresh w) s fun d => Within c d (keys []) id) ∧
      (bit w.val 0 = false → bit w.val 5 = true → k = 0 → Runs (.trainingInvalidate w) s fun d =>
        d.pwr.trec = false ∧ Within c d (keys [key]) fun d => { d with pwr := { d.pwr with trec := c.pwr.trec } })) ∧
    (c.awake = true → c.rf (R.HBM.STAT k) 2 0 = 3 → c.rb (R.HBM.CTL k) 0 = false → Runs (.hbmSrefExitDone st) s fun d =>
      d.rf (R.HBM.STAT k) 2 0 = 2 ∧ Only c d (keys [R.HBM.STAT k]) id) ∧
    (c.awake = true → c.rf (R.HBM.STAT k) 2 0 = 1 → Runs (.hbmTrainingDone ok wrote why) s fun d =>
      (∀ j, j < 4 → d.rf (R.HBM.STAT j) 2 0 = if c.rf (R.HBM.STAT j) 2 0 = 1 then 2 else c.rf (R.HBM.STAT j) 2 0) ∧
      d.rf (R.HBM.TREC 0) 1 0 = (if c.pwr.trec && ok then 1 else if wrote then 2 else 3) ∧
      d.rf (R.HBM.TREC 0) 11 8 = (if c.pwr.trec && ok then 0 else why.toNat) ∧ d.pwr.trec = (c.pwr.trec && ok || wrote) ∧
      Only c d (keys [R.HBM.STAT 0, R.HBM.STAT 1, R.HBM.STAT 2, R.HBM.STAT 3, R.HBM.TREC 0]) fun d => { d with pwr := { d.pwr with trec := c.pwr.trec } }) ∧
    (c.takes w = true → c.rwlOk w.who 0x00F = true → c.rb (R.LST.LRCFG v) 31 = false →
      (let nl := fld w.val 21 9
       let pitch := c.rf (R.LST.LRPIT v) 12 0
       key = R.LST.LRCFG v → bit w.val 31 = true → c.tickRuns = false →
       (16 ≤ nl → nl ≤ 4096 → 2 ≤ pitch → pitch ≤ 4096 → 65536 * fld w.val 8 0 + nl * pitch * 64 ≤ 384 * 65536 →
          (∀ u, u < 8 → u ≠ v.val → c.rb (R.LST.LRCFG u) 31 = false) → Runs (.viewRingConfigWrite w) s fun d =>
            d.rb key 31 = true ∧ d.rf key 21 0 = fld w.val 21 0 ∧ d.r (R.LST.LRSEQ v) = 0 ∧ d.r (R.LST.LSLOT v) = 0 ∧
            Within c d (keys [key, R.LST.LRSEQ v, R.LST.LSLOT v]) fun d => { d with landing := c.landing }) ∧
       (nl < 16 ∨ 4096 < nl ∨ pitch < 2 ∨ 4096 < pitch ∨ 384 * 65536 < 65536 * fld w.val 8 0 + nl * pitch * 64 → Runs (.viewRingConfigWrite w) s fun d =>
          d.rb R.LST.LSTAT 0 = true ∧ Within c d (keys [R.LST.LSTAT]) id)) ∧
      (key = R.LST.LRPIT v → 2 ≤ fld w.val 12 0 → fld w.val 12 0 ≤ 4096 → Runs (.viewRingConfigWrite w) s fun d =>
        d.rf key 12 0 = fld w.val 12 0 ∧ Within c d (keys [key]) id))

/-- R511, R514, R516, R522, R523, R525, R527, R531 to R536: an array slice begins its commands in order, loads weights line by line, reads the lines
of a stream, adds each position's products to its row of the accumulator memory, and completes; a command that is not legal is refused
with its reason and a kennel fault.
Details are the model's reading (log entry 19). -/
def Obligations.TheArraySliceLoadsWeightsAndAccumulatesStreams : Prop :=
  ∀ (s : State) (t : TileId) (q : AryCmd) (rest : List AryCmd) (bad : List (BitVec 5)),
    let c := s.chip
    let k := t.val
    let u := c.arySt k
    let legal (f : Nat) : Bool := [0, 1, 6, 9, 10, 12, 13].contains f
    let port := u.runs.all fun r => r.lines.length ≤ r.data.length
    c.calm = true → c.ary.length = 16 → c.unitFrz k (slotAry k) = false →
    (u.queue = q :: rest →
      (∀ (sel : Fin 4) v, q.cmd = .acfg sel.val v →
        (let key := nth 0 [R.ARY.AFMT k, R.ARY.AZW k, R.ARY.AZA k, R.ARY.ARING k] sel.val
         let hi := nth 0 [9, 15, 15, 3] sel.val
         ((sel = 0 → legal (fld v 3 0) = true ∧ legal (fld v 7 4) = true ∧ fld v 9 8 ≠ 3 ∧ fld v 23 10 = 0) → (sel = 3 → fld v 23 4 = 0) →
          Runs (.arrayCommandBegin t) s fun d =>
            d.rf key hi 0 = fld v hi 0 ∧ d.arySt k = { u with queue := rest } ∧
            Only c d (keys [key, R.ARY.ASTAT k]) fun d => { d with ary := c.ary }) ∧
         (sel = 0 → legal (fld v 3 0) = false → Runs (.arrayCommandBegin t) s fun d =>
            d.rf (R.ARY.AJERR k) 3 0 = 1 ∧ (d.arySt k).queue = rest ∧ d.r (R.ARY.AFMT k) = c.r (R.ARY.AFMT k) ∧ d.rb (R.KMAP.KSTAT (c.owner k)) 3 = true))) ∧
      (∀ a, q.cmd = .awld a → u.loading = none → port = true → legal (c.rf (R.ARY.AFMT k) 3 0) = true →
        (a % 64 = 0 → within a (imgBytes (c.rf (R.ARY.AFMT k) 3 0)) (spBase k) c.spSize = true → Runs (.arrayCommandBegin t) s fun d =>
          (∃ b, q.at_ + 4 ≤ b ∧ (d.arySt k).loading = some { addr := a, fmt := c.rf (R.ARY.AFMT k) 3 0, beg := b, seq := q.seq, bundle := q.bundle }) ∧
          (d.arySt k).shadow = none ∧ (d.arySt k).active = u.active ∧ (d.arySt k).queue = rest ∧ (d.arySt k).aam = u.aam ∧
          Only c d (keys [R.ARY.ASTAT k]) fun d => { d with ary := c.ary }) ∧
        (a % 64 ≠ 0 → Runs (.arrayCommandBegin t) s fun d =>
          d.rf (R.ARY.AJERR k) 3 0 = 9 ∧ (d.arySt k).queue = rest ∧ (d.arySt k).shadow = u.shadow ∧ d.rb (R.KMAP.KSTAT (c.owner k)) 3 = true)) ∧
      (q.cmd = .aswp → u.loading = none → port = true → Runs (.arrayCommandBegin t) s fun d =>
        (d.arySt k).active = u.shadow ∧ (d.arySt k).shadow = none ∧ (d.arySt k).queue = rest ∧ (d.arySt k).runs = u.runs ∧ (d.arySt k).aam = u.aam ∧
        Only c d (keys [R.ARY.ASTAT k]) fun d => { d with ary := c.ary }) ∧
      (∀ a dn dr acc swp ntf wr, q.cmd = .astr a dn dr acc swp ntf → (if swp then u.shadow else u.active) = some wr → u.loading = none → u.runs = [] →
        c.astrWhy k a dn dr (some wr.fmt) = 0 → Runs (.arrayCommandBegin t) s fun d =>
          (∃ r, (d.arySt k).runs = [r] ∧ r.addr = a ∧ r.npos = dn % 4096 ∧ r.row = dr % 2048 ∧ r.acc = acc ∧ r.ntf = ntf ∧ r.w = wr ∧
            r.af = c.rf (R.ARY.AFMT k) 7 4 ∧ r.zw = sInt 16 (c.rf (R.ARY.AZW k) 15 0) ∧ r.za = sInt 16 (c.rf (R.ARY.AZA k) 15 0) ∧
            r.kind = accKind wr.fmt r.af ∧ r.pos = 0 ∧ r.data = [] ∧ r.lines = runLines r.af a (dn / 4096 % 64) (dn % 4096)) ∧
          (d.arySt k).active = some wr ∧ (d.arySt k).shadow = (if swp then none else u.shadow) ∧ (d.arySt k).queue = rest ∧ (d.arySt k).aam = u.aam ∧
          Only c d (keys [R.ARY.ASTAT k]) fun d => { d with ary := c.ary })) ∧
    (∀ l, u.loading = some l →
      (l.data.length % 64 = 0 → l.data.length < imgBytes l.fmt → c.portSp k 2 (l.addr + l.data.length) 64 = true → Runs (.arrayLineRead t) s fun d =>
        (∃ b, (d.arySt k).loading = some { l with data := l.data ++ c.getBytes (.sp k) (l.addr + l.data.length) 64, beg := b }) ∧
        (d.arySt k).runs = u.runs ∧ (d.arySt k).aam = u.aam ∧ Only c d (keys [R.ARY.ASTAT k]) fun d => { d with ary := c.ary, elg := c.elg }) ∧
      (imgBytes l.fmt ≤ l.data.length → Runs (.weightLoadDone t) s fun d =>
        (d.arySt k).loading = none ∧ (d.arySt k).shadow = some { fmt := l.fmt, img := l.data } ∧ (d.arySt k).active = u.active ∧
        Only c d (keys [R.ARY.ASTAT k]) fun d => { d with ary := c.ary })) ∧
    (∀ r, u.loading = none → u.runs = [r] →
      (r.data.length < r.lines.length → c.portSp k 2 (nth 0 r.lines r.data.length) 64 = true → Runs (.arrayLineRead t) s fun d =>
        (∃ b, (d.arySt k).runs = [{ r with data := r.data ++ [c.getBytes (.sp k) (nth 0 r.lines r.data.length) 64], beg := b }]) ∧
        (d.arySt k).aam = u.aam ∧ Only c d (keys [R.ARY.ASTAT k]) fun d => { d with ary := c.ary, elg := c.elg }) ∧
      (r.pos < r.npos → r.ready r.pos = true → u.aamEcc = [] → r.kind < 3 →
        (let z := 32 * kindBytes r.kind
         let off := z * (r.row + r.pos)
         let old (n : Nat) : Nat := if r.acc then natLE (u.aam.bytes (off + kindBytes r.kind * n) (kindBytes r.kind)) else 0
         let new (d : Chip) (n : Nat) : Nat := natLE ((d.arySt k).aam.bytes (off + kindBytes r.kind * n) (kindBytes r.kind))
         let act := (r.act r.pos).1
         Runs (.aamRowUpdate t []) s fun d =>
          (r.kind = 0 → ∀ n, n < 32 → sInt 32 (new d n) = clampI (-2147483648) 2147483647 (sInt 32 (old n) +
            (dotInt r.af act r.w.fmt (r.w.col n).1 - r.zw * laneSum r.af act - r.za * r.w.cs n + 32 * r.za * r.zw))) ∧
          (r.kind = 1 → ∀ n, n < 32 → new d n = (updBF r act (r.act r.pos).2 n (old n)).1) ∧
          (r.kind = 2 → ∀ n, n < 32 → new d n = (updF32 r act n (old n)).1) ∧
          (∀ i, (i < off ∨ off + z ≤ i) → (d.arySt k).aam.byte i = u.aam.byte i) ∧
          (d.arySt k).runs = [{ r with pos := r.pos + 1 }] ∧
          Only c d (keys [R.ARY.ASTAT k, R.ARY.ASAT k]) fun d => { d with ary := c.ary, elg := c.elg })) ∧
      (r.npos ≤ r.pos → r.ntf = false → bad = [] → r.w.bad = [] → Runs (.arrayJobComplete t bad) s fun d =>
        (d.r (R.ARY.AJCNT k)).toNat = ((c.r (R.ARY.AJCNT k)).toNat + 1) % 2 ^ 32 ∧
        (d.r (R.ARY.ABUSY k)).toNat = min (2 ^ 32 - 1) ((c.r (R.ARY.ABUSY k)).toNat + r.window) ∧ (d.arySt k).runs = [] ∧ (d.arySt k).aam = u.aam ∧
        Only c d (keys [R.ARY.ASTAT k, R.ARY.AJCNT k, R.ARY.ABUSY k]) fun d => { d with ary := c.ary }) ∧
      (r.npos ≤ r.pos → r.ntf = false → bad ≠ [] → Runs (.arrayJobComplete t bad) s fun d =>
        (d.arySt k).runs = [] ∧ d.rb (R.KMAP.KSTAT (c.owner k)) 3 = true))

/-- R551, R560, R564 to R566, R570, R572, R574, R577, R578: a drain unit begins its jobs in order, reads a row each time through its stages, writes its
pieces to the scratchpad, and completes; a job that is not legal is refused with its reason; profiles are committed at once or by
tick; and the drain parameter memory is written and read word by word.
Details are the model's reading (log entry 20). -/
def Obligations.TheDrainUnitReadsRowsAndWritesPieces : Prop :=
  ∀ (s : State) (t : TileId) (w : RegWr) (q : DrnCmd) (rest : List DrnCmd),
    let c := s.chip
    let k := t.val
    let u := c.drnSt k
    let key := w.ofs.toNat
    (c.calm = true → c.drn.length = 16 → c.ary.length = 16 → c.unitFrz k (slotDrn k) = false →
      (∀ p a dr dn ntf wa words seq, u.queue = q :: rest → q.cmd = .djob p a dr dn ntf wa words seq →
        (c.djobWhy k a dr dn words ≠ 0 → Runs (.drainJobBegin t) s fun d =>
          d.rf (R.DRN.DERR k) 3 0 = c.djobWhy k a dr dn words ∧ (d.drnSt k).queue = rest ∧ (d.drnSt k).jobs = u.jobs ∧
          d.rb (R.KMAP.KSTAT (c.owner k)) 3 = true) ∧
        (c.djobWhy k a dr dn words = 0 → u.jobs = [] → (wa = false ∨ c.aryBefore k seq = true) → Runs (.drainJobBegin t) s fun d =>
          (∃ b, q.at_ + 4 ≤ b ∧ (d.drnSt k).jobs = [{ prof := p, addr := a, row := dr % 2048, nrow := dn % 4096, ntf := ntf, words := words, beg := b, bundle := q.bundle }]) ∧ (d.drnSt k).queue = rest ∧ (d.drnSt k).dpm = u.dpm ∧ Only c d (keys [R.DRN.DSTAT k]) fun d => { d with drn := c.drn }) ∧
        (c.djobWhy k a dr dn words = 0 → u.jobs = [] → wa = true → c.aryBefore k seq = false → Runs (.drainJobBegin t) s fun d =>
          Only c d (keys []) id)) ∧
      (∀ j, u.jobs = [j] →
        (j.reads.length < j.nrow → j.reads.length < 64 → u.dpmEcc = [] → (c.arySt k).aamEcc = [] → u.sat.length = 8 → u.und.length = 8 →
          u.maxp.length = 8 → u.maxn.length = 8 → j.prof < 8 →
          (let r := j.reads.length
           let z := 32 * kindBytes (pKind j.words)
           let row := (c.arySt k).aam.bytes (z * (j.row + r)) z
           let o := drnRow j.words (c.drnYs k j row).1
           Runs (.drainRowRead t []) s fun d =>
            (d.drnSt k).jobs = [{ (j.addRow r o) with reads := j.reads ++ [d.cycle] }] ∧
            nth 0 (d.drnSt k).sat j.prof = min (2 ^ 32 - 1) (nth 0 u.sat j.prof + o.sat) ∧
            nth 0 (d.drnSt k).und j.prof = min (2 ^ 32 - 1) (nth 0 u.und j.prof + o.und) ∧
            nth 0 (d.drnSt k).maxp j.prof = max o.maxp (nth 0 u.maxp j.prof) ∧ nth 0 (d.drnSt k).maxn j.prof = max o.maxn (nth 0 u.maxn j.prof) ∧
            (∀ i, i ≠ j.prof → nth 0 (d.drnSt k).sat i = nth 0 u.sat i ∧ nth 0 (d.drnSt k).maxp i = nth 0 u.maxp i) ∧
            (d.drnSt k).dpm = u.dpm ∧ d.ary = c.ary ∧ Only c d (keys [R.DRN.DSTAT k]) fun d => { d with drn := c.drn, elg := c.elg })) ∧
        (∀ p ps a bs, j.pieces = p :: ps → j.closed = true → Chip.byteRuns p.bytes = [(a, bs)] → c.portSp k 2 a bs.length = true →
          Runs (.drainPieceWrite t) s fun d =>
            c.Stored d (.sp k) a bs ∧ (∃ l, (d.drnSt k).jobs = [{ j with pieces := ps, lastw := l }]) ∧ (d.drnSt k).queue = u.queue ∧
            Only c d (keys [R.DRN.DSTAT k]) fun d => { d with drn := c.drn, elg := c.elg, mem := c.mem }) ∧
        (j.nrow ≤ j.reads.length → j.pieces = [] → j.ntf = false → Runs (.drainJobComplete t) s fun d =>
          (d.r (R.DRN.DJCNT k)).toNat = ((c.r (R.DRN.DJCNT k)).toNat + 1) % 2 ^ 32 ∧ (d.drnSt k).jobs = [] ∧ (d.drnSt k).sat = u.sat ∧
          Only c d (keys [R.DRN.DSTAT k, R.DRN.DJCNT k]) fun d => { d with drn := c.drn }))) ∧
    (c.takes w = true → key = R.DRN.PCMT k →
      (bit w.val 1 = true → Runs (.pcmtNow w) s fun d =>
        (∀ p i, p < 8 → i < 13 → d.r (R.DRN.LIVE_PCFG k p + 4 * i) = c.r (R.DRN.PCFG k p + 4 * i) ∧ d.r (R.DRN.PCFG k p + 4 * i) = c.r (R.DRN.PCFG k p + 4 * i)) ∧
        d.rb key 0 = false ∧ d.rb (R.DRN.DSTAT k) 6 = false ∧ d.drn = c.drn ∧ d.mem = c.mem) ∧
      (bit w.val 0 = true → bit w.val 1 = false → Runs (.pcmtArm w) s fun d =>
        d.rb key 0 = true ∧ d.rb (R.DRN.DSTAT k) 6 = true ∧ Within c d (keys [key, R.DRN.DSTAT k]) id)) ∧
    (c.takes w = true → key = R.DRN.DPD k → c.drn.length = 16 →
      (let i := c.rf (R.DRN.DPA k) 10 0
       (c.drnBusy k = false → i < 1279 → Runs (.dpdAccess w false) s fun d =>
          d.dpmWord k i = w.val.toNat ∧ (∀ j, j ≠ i → d.dpmWord k j = c.dpmWord k j) ∧ d.rf (R.DRN.DPA k) 10 0 = i + 1 ∧
          Only c d (keys [key, R.DRN.DPA k, R.DRN.DSTAT k]) fun d => { d with drn := c.drn }) ∧
       (c.drnBusy k = true → Runs (.dpdAccess w false) s fun d =>
          d.rb (R.DRN.DSTAT k) 5 = true ∧ Only c d (keys [R.DRN.DSTAT k]) id) ∧
       (c.drnBusy k = false → i < 1279 → u.dpmEcc = [] → c.gives ⟨w.who, w.ofs⟩ = true → c.pagePwr (slotDrn k) = 0 → c.inSrst (slotDrn k) = false →
          c.slotEmpty (slotDrn k) = false → Runs (.dpdAccess w true) s fun d =>
          d.out = .read w.who key (BitVec.ofNat 32 (c.dpmWord k i)) :: c.out ∧ d.rf (R.DRN.DPA k) 10 0 = i + 1 ∧
          Only c d (keys [key, R.DRN.DPA k]) fun d => { d with out := c.out })))

/-- R597, R601 to R603, R608, R610, R615 to R618, R620, R623, R625, R635, R636, R640, R648, R649, R652: an engine accepts the job at the head of a queue,
gives kennels their slots, issues one burst a turn to where its bytes lie, and counts what completes; waits for credits end with a
credit or a fault; and the table syllables complete in order, each with its result.
Details are the model's reading (log entry 21). -/
def Obligations.TheDmaEnginesMoveDataAndTablesChangeInOrder : Prop :=
  ∀ (s : State) (w : RegWr) (e : Fin 8) (k : CoreId) (p : Fin 4) (q : Queued) (rest : List Queued) (t : TileId),
    let c := s.chip
    let n := e.val
    let g := c.eng n
    let tqst := if k.val = 16 then R.CC.TQST else R.TILE.TQST k.val
    let tdres := if k.val = 16 then R.CC.TDRES else R.TILE.TDRES k.val
    let ken := if k.val = 16 then 0 else c.owner k.val
    let free := c.calm && c.engines.length == 8 && c.ports.length == 17 && !c.engFrz n && c.surv (20 + n)
    let own := page (slotDma n)
    (∀ a r sb db, free = true → (c.jport k.val).queue = q :: rest → q.ent = .dmaj n a r → c.acceptFrom n = some (k.val, q) → g.jobs.length < 56 →
      c.descCache (.eng n) = [(le r 0 2, sb), (le r 2 2, db)] → le r 0 2 ≠ le r 2 2 →
      c.fence ken .table (Chip.entryAddr (le r 0 2)) 64 false = none → c.fence ken .table (Chip.entryAddr (le r 2 2)) 64 false = none →
      (c.jobWhy ken r sb db = 0 → Runs (.dmaJobAccept e false false) s fun d =>
        (d.eng n).jobs = g.jobs ++ [{ ken := ken, who := k.val, bundle := q.bundle, rec_ := r, src := sb, dst := db, x := { id := g.next } }] ∧
        (d.jport k.val).queue = rest ∧ d.rf (R.DMA.JSTAT n) 5 0 = (g.jobs.length + 1) % 64 ∧ d.rf tqst 3 0 = rest.length % 16 ∧ d.mem = c.mem ∧
        Only c d (fun key => own key || key == tqst) fun d => { d with engines := c.engines, ports := c.ports }) ∧
      (c.jobWhy ken r sb db ≠ 0 → Runs (.dmaJobAccept e false false) s fun d =>
        (d.eng n).jobs = g.jobs ∧ (d.jport k.val).queue = rest ∧ d.rf (R.DMA.JERR n) 3 0 = c.jobWhy ken r sb db ∧ d.rf (R.DMA.JERR n) 6 4 = ken ∧
        d.rb (R.KMAP.KSTAT ken) 3 = true)) ∧
    (∀ j, free = true → g.jobs = [j] → g.moves = [] → j.ken < 8 →
      (j.running = false → Runs (.dmaJobSlotGrant e) s fun d =>
        (d.eng n).jobs = [{ j with running := true }] ∧ Only c d own fun d => { d with engines := c.engines }) ∧
      (∀ op ops, j.running = true → c.kenRuns j.ken = true → c.muzzled n j.ken = false → c.elg.mlvl = 0 → j.x.ops = op :: ops → j.x.busy = false → j.x.abort = false →
        j.x.wait = none →
        (∀ a z o, (op = .rd a z o ∨ op = .wr a z o) → c.ownWindow a z = a →
          (∀ u, c.regionOf a z = .sp u → Runs (.dmaBurstIssue e) s fun d =>
            (d.eng n).jobs = [{ j with x := { j.x with busy := true, port := some u } }] ∧ d.mem = c.mem ∧
            Only c d (keys []) fun d => { d with engines := c.engines, elg := c.elg })) ∧
        (∀ a z o, op = .wr a z o → c.ownWindow a z = a → c.regionOf a z = .line → c.fence j.ken .line a z true = none → c.unavailable .line a z = none → c.ecc = [] →
          Runs (.dmaBurstIssue e) s fun d =>
            c.Stored d .line a (j.x.buf.bytes o z) ∧ (d.eng n).jobs = [{ j with x := { j.x with ops := ops, busy := false, port := none } }] ∧
            Only c d (keys []) fun d => { d with engines := c.engines, elg := c.elg, mem := c.mem }) ∧
        (∀ a z o, op = .rd a z o → c.ownWindow a z = a → c.regionOf a z = .hbm → c.fence j.ken .hbm a z false = none → c.unavailable .hbm a z = none →
          c.poolFree (c.stackOf a) (c.pchanOf a) false n = true → c.hbm.length = 4 → c.stackOf a < 4 → Runs (.dmaBurstIssue e) s fun d =>
            (d.hbmSt (c.stackOf a)).rq = (c.hbmSt (c.stackOf a)).rq ++ [⟨c.pchanOf a, a, z, n, j.x.id, o⟩] ∧
            (d.eng n).jobs = [{ j with x := { j.x with busy := true } }] ∧ d.mem = c.mem ∧
            Only c d (page (slotHbm (c.stackOf a))) fun d => { d with engines := c.engines, elg := c.elg, hbm := c.hbm })) ∧
      (∀ a z o ops, j.x.ops = .wr a z o :: ops → j.x.busy = true → j.x.port = some t.val → c.portNext t.val = some (n, j.x.id) → c.dport.length = 16 →
        c.owner t.val = j.ken → c.portSp t.val 3 a z = true → (j.x.buf.bytes o z).length = z → Runs (.dmaPortAccess t) s fun d =>
          c.Stored d (.sp t.val) a (j.x.buf.bytes o z) ∧ (d.eng n).jobs = [{ j with x := { j.x with ops := ops, busy := false, port := none } }] ∧
          Only c d (keys []) fun d => { d with engines := c.engines, elg := c.elg, mem := c.mem, dport := c.dport }) ∧
      (j.running = true → c.kenRuns j.ken = true → Chip.jobMore j = false → j.x.busy = false → j.x.abort = false → jNtf j.rec_ = false → jVchk j.rec_ = false →
        Runs (.dmaJobComplete e) s fun d =>
          (d.eng n).jobs = [] ∧ (d.r (R.DMA.JDONE n j.ken)).toNat = ((c.r (R.DMA.JDONE n j.ken)).toNat + 1) % 2 ^ 32 ∧ d.rf (R.DMA.JSTAT n) 5 0 = 0 ∧
          d.mem = c.mem ∧ Only c d own fun d => { d with engines := c.engines }) ∧
      (∀ t0 t1, j.x.wait = some (t0, t1) → Runs (.creditWaitTimeout e) s fun d =>
        t1 ≤ d.now ∧ (d.eng n).jobs = [] ∧ d.rf (R.DMA.CWTOC n) 15 0 = min 65535 (c.rf (R.DMA.CWTOC n) 15 0 + 1) ∧ d.rb (R.KMAP.KSTAT j.ken) 3 = true ∧
        (c.rb (R.KMAP.KSTAT j.ken) 3 = false → d.rf (R.KMAP.KSTAT j.ken) 31 16 = 0x0415)) ∧
      (∀ a z o ops t0 t1, j.x.ops = .wr a z o :: ops → j.x.wait = some (t0, t1) → j.x.busy = false → c.waiters = [(t0, n, j.x.id)] → c.kstate j.ken = 0 →
        c.ownWindow a z = a → c.regionOf a z = .hbm → c.fence j.ken .hbm a z true = none → c.unavailable .hbm a z = none → c.ecc = [] → c.hbm.length = 4 →
        c.stackOf a < 4 → c.poolFree (c.stackOf a) (c.pchanOf a) true n = true → Runs .creditTake s fun d =>
          c.Stored d .hbm a (j.x.buf.bytes o z) ∧ (d.eng n).jobs = [{ j with x := { j.x with ops := ops, busy := false, port := none, wait := none } }] ∧
          (d.hbmSt (c.stackOf a)).wbuf = (c.hbmSt (c.stackOf a)).wbuf ++ [(c.pchanOf a, n)] ∧
          Only c d (fun key => own key || page (slotHbm (c.stackOf a)) key) fun d => { d with engines := c.engines, elg := c.elg, mem := c.mem, hbm := c.hbm })) ∧
    (∀ m, free = true → g.jobs = [] → g.moves = [m] → c.moveMore n m = false → m.x.busy = false → m.x.abort = false → c.viewOver m.view m.lseq = false → m.prog < 4 →
      Runs (.lineMoveComplete e) s fun d =>
        (d.eng n).moves = [] ∧ d.rf (R.DMA.LMCNT n m.prog) 15 0 = min 65535 (c.rf (R.DMA.LMCNT n m.prog) 15 0 + 1) ∧ d.mem = c.mem ∧
        Only c d (keys [R.DMA.LMCNT n m.prog]) fun d => { d with engines := c.engines }) ∧
    (c.takes w = true → w.ofs.toNat = R.DMA.LMCFG n p.val → c.rb (R.DMA.LMCFG n p.val) 0 = false → bit w.val 0 = true → c.rwlOk w.who (slotDma n) = true →
      (fld w.val 16 15 ≠ 3 → c.rf (R.DMA.LMSRC n p.val) 17 0 ≠ 0 → c.rf (R.DMA.LMDST n p.val) 11 0 ≠ 0 → c.rf (R.DMA.LMDST n p.val) 29 12 ≠ 0 →
        c.rf (R.DMA.LMDST n p.val) 29 12 * max (fld w.val 16 15) 1 ≤ c.rf (R.DMA.LMDST n p.val) 11 0 * 64 → c.rb (R.LST.LRCFG (fld w.val 3 1)) 31 = true →
        Runs (.lineMoveEnable w) s fun d =>
          d.rb (R.DMA.LMCFG n p.val) 0 = true ∧ d.rf (R.DMA.LMCFG n p.val) 16 1 = fld w.val 16 1 ∧ Within c d (keys [R.DMA.LMCFG n p.val]) id) ∧
      (fld w.val 16 15 = 3 ∨ c.rf (R.DMA.LMSRC n p.val) 17 0 = 0 ∨ c.rb (R.LST.LRCFG (fld w.val 3 1)) 31 = false → Runs (.lineMoveEnable w) s fun d =>
        Within c d (keys []) id)) ∧
    (free = true → (c.jport k.val).queue = q :: rest →
      (∀ idx a img, q.ent = .tdnew idx a img → img.length = 64 →
        (c.tdCode ken idx img = 0 → c.ecc = [] → Runs (.tdnewComplete k) s fun d =>
          c.Stored d .table (Chip.entryAddr idx) img ∧ d.rf tdres 1 0 = 2 ∧ (d.jport k.val).queue = rest ∧
          (d.r R.TBL.TDNC).toNat = ((c.r R.TBL.TDNC).toNat + 1) % 2 ^ 32 ∧
          Only c d (keys [tdres, tqst, R.TBL.TDNC]) fun d => { d with ports := c.ports, mem := c.mem }) ∧
        (c.tdCode ken idx img ≠ 0 → Runs (.tdnewComplete k) s fun d =>
          d.rf tdres 1 0 = 3 ∧ d.rf tdres 31 16 = c.tdCode ken idx img ∧ d.rf R.TBL.TDLAST 15 0 = c.tdCode ken idx img ∧ (d.jport k.val).queue = rest ∧
          Within c d (keys [tdres, tqst, R.TBL.TDRJ, R.TBL.TDLAST, R.TBL.TDLIDX]) fun d => { d with ports := c.ports })) ∧
      (∀ idx all, q.ent = .tdinv idx all → (ken = 0 ∨ all = true ∨ c.fenceTable ken (Chip.entryAddr idx) 64 true = true) → Runs (.invalidateComplete k) s fun d =>
        (∀ x, x < 8 → d.descCache (.eng x) = (c.descCache (.eng x)).filter fun y => !(all || y.1 == idx)) ∧
        (∀ x, x < 17 → d.descCache (.tile x) = (c.descCache (.tile x)).filter fun y => !(all || y.1 == idx)) ∧ (d.jport k.val).queue = rest ∧
        Only c d (keys [tqst, R.TBL.TINV]) fun d => { d with ports := c.ports, engines := c.engines }))

/-- R675, R676, R678, R679, R684, R685, R687, R690, R697: a sample gives outputs and traces, a reward gradients; the epoch-end update steps the
optimiser state, clears the gradients, prunes and creates; a commit writes the changed pages and puts the new record in force; and the
operations of LCTL start when R697 allows them and load the committed layer.
Details are the model's reading (log entry 22). -/
def Obligations.TheLearningEngineLearnsAndCommits : Prop :=
  ∀ (s : State) (h : Syl) (an am : BitVec 4) (ctx : BitVec 4) (w : RegWr),
    let c := s.chip
    let k := h.core.val
    let A := ((c.core k).A an.toNat).toNat
    let O := ((c.core k).A am.toNat).toNat
    let np := c.nproto
    let nb := c.nin / 32
    let W := c.lwbase
    let td := c.rf R.LRN.LCFG 11 8
    let mb := c.rf R.LRN.LCFG 15 12
    let xs : List Fv := if c.rf R.LRN.LCFG 3 0 = 12 then rowVals (c.lscl R.LRN.ISCL) (c.blocks A nb) else
      (c.getBytes .hbm A c.nin).map fun b => fvd ((Dy.ofInt ((if c.rf R.LRN.LCFG 3 0 = 0 then (b.toNat : Int) else sInt 8 b.toNat) -
        sInt 16 (c.rf R.LRN.LCFG 31 16))).mul (c.lscl R.LRN.ISCL))
    let out (p : Nat) : Nat := (fp32.encode (fvd (((c.wVals p).zip xs).foldl (fun (a : Dy) y => a.add (y.1.dy.mul y.2.dy)) Dy.zero))).1
    let trace (post : Nat → Fv) (p : Nat) : List (Nat × List (BitVec 8)) := rowPack (c.lscl R.LRN.TSCL) nb (((c.eVals p).zip xs).map fun y =>
      fpr (((fvd (if td = 0 then Dy.zero else ⟨2 ^ td - 1, -(td : Int)⟩)).mul y.1).add (fpr (y.2.mul (post p)))))
    (c.alone h [.n] = true → k < 16 → c.owner k = c.lrnk → c.lrnFree = true → c.lrnReaches W (W + 0x500000) →
      (A % 64 = 0 → O % 64 = 0 → c.lrnReaches A (A + c.inputLen) → c.lrnReaches O (O + 4 * np) → (O + 4 * np ≤ W ∨ W + 0x500000 ≤ O) →
        (let sampled (post : Nat → Fv) : Prop := Runs (.lsmp h an am false ctx) s fun d =>
          (∀ p, p < np → natLE (d.getBytes .hbm (O + 4 * p) 4) = out p ∧ d.blocks (c.eRow p) nb = trace post p) ∧
          (∀ a, (a < O ∨ O + 4 * np ≤ a) → (a < W + 0x140000 ∨ W + 0x250000 ≤ a) → d.getByte .hbm a = c.getByte .hbm a) ∧
          (d.r R.LRN.LDONE).toNat = ((c.r R.LRN.LDONE).toNat + 1) % 2 ^ 32 ∧ d.lrn.queue = [] ∧
          Issued c d k Core.next (keys [R.LRN.LDONE, R.LRN.LQ]) fun d => { d with mem := c.mem, lrn := c.lrn }
         (c.rb R.LRN.LCFG 4 = false → sampled fun p => fp32.decode (out p)) ∧
         (∀ m, c.rb R.LRN.LCFG 4 = true → m < np → (∀ j, j < m → Fv.cmp (fp32.decode (out m)) (fp32.decode (out j)) = 1) →
           (∀ j, m < j → j < np → Fv.cmp (fp32.decode (out j)) (fp32.decode (out m)) ≠ 1) → sampled fun p => fvd (if p = m then Dy.ofInt 1 else Dy.zero)))) ∧
      (A % 64 = 0 → c.lrnReaches A (A + np) → Runs (.lrew h an false ctx) s fun d =>
        (∀ p, p < np → d.blocks (c.gRow p) nb = rowPack (c.lscl R.LRN.GSCL) nb (((c.gVals p).zip (c.eVals p)).map fun y =>
          fpr (y.1.add (fpr ((fvd ((Dy.ofInt (sInt 8 (c.getByte .hbm (A + p)).toNat)).mul (c.lscl R.LRN.RSCL))).mul y.2))))) ∧
        (∀ a, (a < W + 0x250000 ∨ W + 0x360000 ≤ a) → d.getByte .hbm a = c.getByte .hbm a) ∧
        (d.r R.LRN.LDONE).toNat = ((c.r R.LRN.LDONE).toNat + 1) % 2 ^ 32 ∧
        Issued c d k Core.next (keys [R.LRN.LDONE, R.LRN.LQ]) fun d => { d with mem := c.mem, lrn := c.lrn })) ∧
    (c.calm = true → c.lrn.queue = [] → c.lrn.ntf = none → c.rb (R.H.PCTL 0x00E) 2 = false →
      (c.lrn.due = true → c.lrn.first = 0 → c.lstate = 2 → c.rb R.LRN.LSTAT 3 = false → Runs .epochEndUpdate s fun d =>
        d.lstate = 3 ∧ Only c d (keys [R.LRN.LSTAT]) id) ∧
      (c.lrn.due = true → c.lrn.first = 0 → c.lstate = 2 → c.rb R.LRN.LSTAT 3 = true → Runs .epochEndUpdate s fun d => Only c d (keys []) id) ∧
      (c.lstate = 3 → c.ecc = [] → Chip.geoOk c.nin np = true → W % 0x100000 = 0 → c.lrnReaches W (W + 0x500000) →
        (let g (p i : Nat) : Fv := nth .nan (c.gVals p) i
         let old (p i : Nat) : Fv := (e5m2.decode (c.getByte .hbm (c.oRow p + i)).toNat).mul (fvd (c.lscl R.LRN.MSCL))
         let enc (p i : Nat) : Nat := match fpr (((fvd ⟨2 ^ mb - 1, -(mb : Int)⟩).mul (old p i)).add ((fvd ⟨1, -(mb : Int)⟩).mul (g p i))) with
           | .fin sg m e => (e5m2.quot sg m e (c.lscl R.LRN.MSCL)).1
           | x => (e5m2.encode x).1
         let m (p i : Nat) : Fv := (e5m2.decode (enc p i)).mul (fvd (c.lscl R.LRN.MSCL))
         let syn (p i : Nat) : Bool := bit (c.getByte .hbm (c.bRow p + i / 8)) (i % 8)
         let wt (p i : Nat) : Fv := if syn p i then clampF (c.lscl R.LRN.WMAX) (fpr ((nth .nan (c.wVals p) i).add ((fvd (c.lscl R.LRN.ETA)).mul (m p i))))
           else nth .nan (c.wVals p) i
         let rows := (List.range np).map fun p => (⟨(List.range c.nin).map (syn p), (List.range c.nin).map (wt p), (List.range c.nin).map (m p)⟩ : Chip.URow)
         let pruned := rows.foldl (fun (x : List Chip.URow × Chip.Upd) r => let (r, u) := c.pruneRow r x.2; (x.1 ++ [r], u))
           ([], { count := rows.foldl (fun n r => n + (r.bits.filter id).length) 0 })
         let made := pruned.1.foldl (fun (x : List Chip.URow × Chip.Upd) r => let (r, u) := c.createRow r x.2; (x.1 ++ [r], u)) ([], pruned.2)
         Runs .epochEndUpdateDone s fun d =>
          (∀ p i, p < np → i < c.nin → (d.getByte .hbm (c.oRow p + i)).toNat = enc p i % 256) ∧
          (∀ p, p < np → d.blocks (c.gRow p) nb = List.replicate nb (0, List.replicate 32 0) ∧ d.blocks (c.eRow p) nb = c.blocks (c.eRow p) nb ∧
            d.blocks (c.wRow p) nb = rowPack (c.lscl R.LRN.WSCL) nb (nth ⟨[], [], []⟩ made.1 p).w ∧
            d.getBytes .hbm (c.bRow p) (c.nin / 8) = Chip.bitsBytes (nth ⟨[], [], []⟩ made.1 p).bits) ∧
          d.lstate = 2 ∧ d.r R.LRN.LEPNO = c.r R.LRN.LEPNO + 1 ∧ d.r R.LRN.LEVT = BitVec.ofNat 32 (made.2.pruned + made.2.created * 2 ^ 16) ∧
          d.rf R.LRN.LSCNT 20 0 = made.2.count % 2 ^ 21 ∧ d.lrn.due = false ∧
          Within c d (keys [R.LRN.LSTAT, R.LRN.LEPNO, R.LRN.LEVT, R.LRN.LSCNT]) fun d => { d with mem := c.mem, lrn := c.lrn, elg := c.elg })) ∧
      (c.lrn.commitDue = true → c.rb R.LRN.LSTAT 3 = false → c.lstate ≠ 3 → Runs .plasticCommit s fun d =>
        (let older := if c.recIn = some false then 1 else 0
         (∀ i, i < 64 → d.mem.byte (Chip.pageAddr older + i) = 0) ∧
         (∀ a, (a < Chip.pageAddr older ∨ Chip.pageAddr older + 64 ≤ a) → d.mem.byte a = c.mem.byte a)) ∧
        d.rb R.LRN.LSTAT 3 = true ∧ d.lrn = { c.lrn with commitDue := false } ∧
        Only c d (keys [R.LRN.LSTAT]) fun d => { d with mem := c.mem, lrn := c.lrn }) ∧
      (c.rb R.LRN.LSTAT 3 = true → rising c.plmap = true → (∀ e ∈ c.plmap, e.1 < 4864 ∧ 256 ≤ e.2 ∧ e.2 < 16384) →
        (let scale := match c.recIn with | some r => sw24 (le (c.recBytes r) 12 3) | none => Dy.zero
         Runs (.plasticCommitDone []) s fun d =>
          (∀ i, i < 4864 → d.lpBytes i = if c.pageChanged c.workPage scale i then c.workPage i else c.lpBytes i) ∧
          d.recIn = some (c.recIn == some false) ∧ d.recValid (c.recIn == some false) = true ∧ d.r R.LRN.LCEP = c.r R.LRN.LEPNO ∧
          d.rb R.LRN.LSTAT 3 = false ∧ (∀ a, (a < 0x3000000000 ∨ 0x3000400000 ≤ a) → d.mem.byte a = c.mem.byte a) ∧
          Within c d (keys [R.LRN.LSTAT, R.LRN.LCEP, R.LRN.LWPG]) fun d => { d with mem := c.mem, lrn := c.lrn, elg := c.elg, plmap := c.plmap })) ∧
      (∀ r, c.lstate = 1 → c.recIn = some r → c.ecc = [] → W % 0x100000 = 0 → c.lrnReaches W (W + 0x500000) → Runs (.lrnOperationDone []) s fun d =>
        d.lstate = 2 ∧ (∀ i, i < 4864 → d.workPage i = c.lpBytes i) ∧ (∀ a, W + 0x140000 ≤ a → a < W + 0x460000 → d.getByte .hbm a = 0) ∧
        d.nin = le (c.recBytes r) 5 2 % 2 ^ 13 ∧ d.nproto = le (c.recBytes r) 7 2 % 2 ^ 9 ∧ d.rf R.LRN.WSCL 23 0 = le (c.recBytes r) 12 3 ∧
        d.rf R.LRN.LSCNT 20 0 = le (c.recBytes r) 9 3 % 2 ^ 21 ∧ (d.r R.LRN.LEPNO).toNat = le (c.recBytes r) 0 4 ∧
        Within c d (keys [R.LRN.LSTAT, R.LRN.LGEO, R.LRN.WSCL, R.LRN.LSCNT, R.LRN.LEPNO]) fun d => { d with mem := c.mem, lrn := c.lrn, elg := c.elg })) ∧
    (c.takes w = true → w.ofs.toNat = R.LRN.LCTL → c.rwlOk w.who 0x00E = true → c.rb R.LRN.LCTL 0 = false →
      (let started (op : Nat) (i : Instr) (st : Nat) : Prop :=
        w.val.toNat = 2 ^ op →
          (c.opWhy op false = 0 → Runs i s fun d =>
            d.lstate = st ∧ Within c d (keys [R.LRN.LCTL, R.LRN.LSTAT]) fun d => { d with lrn := { d.lrn with before := c.lrn.before } }) ∧
          (c.opWhy op false ≠ 0 → Runs i s fun d =>
            d.rf R.LRN.LSTAT 9 6 = c.opWhy op false ∧ d.rb R.LRN.LSTAT 4 = true ∧ d.lstate = c.lstate ∧ d.r R.LRN.LCTL = c.r R.LRN.LCTL ∧
            Within c d (keys [R.LRN.LSTAT]) id)
       started 1 (.loadLayer w) 1 ∧ started 6 (.erase w) 6 ∧ started 5 (.importImg w) 5 ∧ started 3 (.exportImg w) 4) ∧
      (w.val.toNat = 4 → c.opWhy 2 false = 0 → Runs (.epend w) s fun d =>
        d.lrn = { c.lrn with epend := true } ∧ Within c d (keys [R.LRN.LCTL]) fun d => { d with lrn := c.lrn }) ∧
      (w.val.toNat = 1 → c.opWhy 0 false = 0 → Runs (.lrnEnable w) s fun d =>
        d.rb R.LRN.LCTL 0 = true ∧ Within c d (keys [R.LRN.LCTL]) id)) ∧
    (c.calm = true → c.lrn.selected = false →
      (c.recValid false = false → c.recValid true = false → Runs .plasticRecordSelect s fun d =>
        d.recIn = none ∧ d.plmap = [] ∧ d.lrn.selected = true ∧ Within c d (keys [R.LRN.LSTAT]) fun d => { d with lrn := c.lrn, plmap := c.plmap }) ∧
      (∀ b, c.recValid b = true → c.recValid (!b) = false → Runs .plasticRecordSelect s fun d =>
        d.recIn = some b ∧ (d.r R.LRN.LCEP).toNat = le (c.recBytes b) 0 4 ∧ d.lrn.selected = true ∧ d.mem = c.mem ∧
        Within c d (keys [R.LRN.LSTAT, R.LRN.LCEP]) fun d => { d with lrn := c.lrn, plmap := c.plmap }) ∧
      (c.recValid false = true → c.recValid true = true → le (c.recBytes true) 0 4 = (le (c.recBytes false) 0 4 + 1) % 2 ^ 32 →
        Runs .plasticRecordSelect s fun d => d.recIn = some true ∧ (d.r R.LRN.LCEP).toNat = le (c.recBytes true) 0 4 ∧ d.lrn.selected = true))

/-- R754 to R757, R760, R761, R763, R792: a port trains, exchanges handshakes and comes UP with its credits; in UP it accepts frames in order, answers
gaps with a NAK, sends again what was not acknowledged, retrains, and is LOST when it does not recover.
Details are the model's reading (log entry 29). -/
def Obligations.VaxlinPortsTrainCarryFramesAndRecover : Prop :=
  ∀ (s : State) (p : Fin 4) (w : RegWr) (h : PeerInfo) (f : RxFrame),
    let c := s.chip
    let k := p.val
    let u := c.vport k
    let key := w.ofs.toNat
    let st := R.VXL.LSTAT k
    let good := f.crcOk && !f.fecc && !f.fecu
    (c.takes w = true → key = R.VXL.LCTL k → k < c.vxls → c.survx (16 + k) = true → c.rwlOk w.who (slotVxl k) = true → c.rb key 0 = false → bit w.val 0 = true →
      bit w.val 1 = false →
      (fld w.val 15 8 ≠ 0 → Runs (.portEnable w) s fun d =>
        d.vst k = 1 ∧ d.rb key 0 = true ∧ d.rf key 15 8 = fld w.val 15 8 ∧ Within c d (keys [key, st]) id) ∧
      (fld w.val 15 8 = 0 → Runs (.portEnable w) s fun d => Within c d (keys []) id)) ∧
    (c.awake = true → c.vxl.length = 4 →
      (c.vxlEn k = true → 1 ≤ c.vst k → c.vst k ≤ 3 → Runs (.portStateAdvance p) s fun d =>
        d.vst k = c.vst k + 1 ∧ Only c d (keys [st]) id) ∧
      (c.vxlEn k = true → c.vst k = 4 →
        (let bad := h.blsup &&& c.fuse.blsup = 0 ∨ (h.valid = true ∧ c.numbered = true ∧ h.num.toNat = c.devNum)
         (bad → Runs (.handshakeReceived p h) s fun d =>
            d.vst k = 4 ∧ d.rb st 3 = true ∧ d.r64 (R.VXL.PUID_LO k) = h.uid.toNat ∧ d.rf (R.VXL.PEER k) 4 0 = h.num.toNat ∧
            Within c d (keys [st, R.VXL.PEER k, R.VXL.PUID_LO k, R.VXL.PUID_LO k + 4]) id) ∧
         (¬bad → Runs (.handshakeReceived p h) s fun d =>
            d.vst k = 5 ∧ d.rb st 3 = false ∧ (∀ v, v < 4 → d.crv k v = nth 0 [32, 64, 64, 16] v) ∧
            d.vport k = { pingAt := c.now + us 125, ackAt := c.now } ∧ d.rf (R.VXL.PEER k) 4 0 = h.num.toNat ∧ d.rb (R.VXL.PEER k) 5 = h.valid ∧
            d.r64 (R.VXL.PUID_LO k) = h.uid.toNat ∧
            Within c d (keys [st, R.VXL.LCRD k, R.VXL.PEER k, R.VXL.PUID_LO k, R.VXL.PUID_LO k + 4]) fun d => { d with vxl := c.vxl, casc := c.casc }))) ∧
      (c.vst k = 5 → u.txq = [] → u.owed = [0, 0, 0, 0] → good = true → (∀ v, v < 4 → nth 0 f.cr v = 0) → f.valid = true → f.ack.toNat = u.txSeq → u.rx.length = 4 → u.rxSeq < 4096 →
        (let m := Msg.parse [padTo 64 f.flit]
         f.seq.toNat = u.rxSeq → u.replay = [] → nth [] u.rx f.vc.val = [] → headNdat (padTo 64 f.flit) = 0 → c.numbered = true → m.dst = c.devNum →
          m.rlen = 0 → mtVc m.mt ≠ none → Runs (.frameReceived p f) s fun d =>
            (d.vport k).inbox = u.inbox ++ [(f.vc.val, m)] ∧ (d.vport k).rxSeq = (u.rxSeq + 1) % 4096 ∧ (d.vport k).nakSent = false ∧
            (d.vport k).txq = [] ∧ Only c d (keys [R.VXL.LCRD k, R.VXL.LERR k]) fun d => { d with vxl := c.vxl, elg := c.elg }) ∧
        (Chip.seqBefore u.rxSeq f.seq.toNat = true → u.replay = [] → u.nakSent = false → Runs (.frameReceived p f) s fun d =>
          (∃ hd, d.out = .vxl k 1 0 (hd ++ padTo 64 (1 :: bytesLE 2 u.rxSeq)) :: c.out) ∧ d.vport k = { u with nakSent := true, badRun := 0 } ∧
          Only c d (keys [R.VXL.LCRD k, R.VXL.LERR k]) fun d => { d with vxl := c.vxl, out := c.out }) ∧
        (f.seq.toNat = (u.rxSeq + 4095) % 4096 → u.replay ≠ [] → (∀ x ∈ u.replay, Chip.seqBefore x.1 f.ack.toNat = true) → Runs (.frameReceived p f) s fun d =>
          (d.vport k).replay = [] ∧ (d.vport k).resends = 0 ∧ (d.vport k).inbox = u.inbox ∧ (d.vport k).rxSeq = u.rxSeq ∧ d.out = c.out ∧
          Only c d (keys [R.VXL.LCRD k, R.VXL.LERR k]) fun d => { d with vxl := c.vxl })) ∧
      (∀ q x rest, c.vst k = 5 → u.txq = [] → u.replay = x :: rest → u.resends < 7 → q = x.1 →
        (let again (d : Chip) : Prop :=
           (∃ fs : List Output, d.out = fs.reverse ++ c.out ∧ fs.length = u.replay.length ∧ ∀ (i : Nat) (y : Nat × Nat × Bool × List (BitVec 8)), u.replay[i]? = some y →
             ∃ hd, fs[i]? = some (Output.vxl k 0 y.1 (hd ++ padTo 64 y.2.2.2))) ∧
           (d.vport k).replay = u.replay ∧ (d.vport k).resends = u.resends + 1 ∧ d.rf (R.VXL.LRPL k) 15 0 = min 65535 (c.rf (R.VXL.LRPL k) 15 0 + 1) ∧
           d.vst k = 5
         (good = true → (∀ v, v < 4 → nth 0 f.cr v = 0) → f.ack.toNat = q → fle f.flit 1 2 % 4096 = q → (∀ y ∈ u.replay, Chip.seqBefore y.1 q = false) →
           Runs (.nakReceived p f) s fun d =>
            again d ∧ Only c d (keys [R.VXL.LRPL k, R.VXL.LCRD k, R.VXL.LERR k]) fun d => { d with vxl := c.vxl, out := c.out }) ∧
         (Runs (.replayTimeout p) s fun d =>
            again d ∧ u.ackAt + us 2 ≤ d.now ∧ Only c d (keys [R.VXL.LRPL k]) fun d => { d with vxl := c.vxl, out := c.out }))) ∧
      (c.vst k = 5 → Runs (.retrainBegin p) s fun d =>
        d.vst k = 6 ∧ (d.vport k).since = c.now ∧ d.rf (R.VXL.LRPL k) 31 16 = min 65535 (c.rf (R.VXL.LRPL k) 31 16 + 1) ∧ (d.vport k).replay = u.replay ∧
        Within c d (keys [st, R.VXL.LRPL k]) fun d => { d with vxl := c.vxl }) ∧
      (c.vst k = 6 → u.txq = [] → Runs (.retrainComplete p) s fun d =>
        d.vst k = 5 ∧ d.vport k = { u with resends := 0, ackAt := c.now } ∧ Only c d (keys [st]) fun d => { d with vxl := c.vxl }) ∧
      (c.vst k = 7 → Runs (.lostHoldExpiry p) s fun d => d.vst k = 1 ∧ u.since + ms 1 ≤ d.now ∧ Only c d (keys [st]) id)) ∧
    (c.calm = true → c.vxl.length = 4 → c.vst k = 6 → c.casc.sent.all (fun m => m.port != k) = true → Runs (.portLost p) s fun d =>
      d.vst k = 7 ∧ d.rb st 3 = false ∧ u.since + ms (c.rf (R.VXL.LCTL k) 15 8) ≤ d.now ∧ (d.vport k).txq = [] ∧ (d.vport k).replay = [] ∧
      d.r (R.VXL.LCRD k) = 0 ∧
      (d.r (R.VXL.LOSTM k)).toNat = min (2 ^ 32 - 1) ((c.r (R.VXL.LOSTM k)).toNat + u.txq.length + (u.replay.filter (fun x => x.2.2.1)).length) ∧
      Within c d (keys [st, R.VXL.LCRD k, R.VXL.LOSTM k]) fun d => { d with vxl := c.vxl })

/-- R762, R765, R766, R790, R793: a request that has arrived for this device is performed once, in the order of its channel, and answered by the route to
its sender; an answer reaches the requester that waits for it; and a request that no answer comes for ends with 0x0603.
Details are the model's reading (log entry 29). -/
def Obligations.VaxlinMessagesArePerformedAndAnswered : Prop :=
  ∀ (s : State) (p : Fin 4) (m : Msg) (rest : List (Nat × Msg)),
    let c := s.chip
    let k := p.val
    let u := c.vport k
    let ken := (c.req (Chip.msgWho m)).ken
    let n := if m.mt = 1 then m.len else m.data.length
    let wrote (v : Nat) := u.inbox = (v, m) :: rest
    let ack : Msg := { mt := 0x82, dst := m.src, src := c.devNum, ken := m.ken, tag := m.tag, len := 1, code := 0 }
    let read (bs : List (BitVec 8)) : Msg := { mt := 0x81, dst := m.src, src := c.devNum, ken := m.ken, tag := m.tag, len := m.len, code := 0, data := bs }
    let taken (d : Chip) : Prop := (d.vport k).inbox = rest
    let answers (i : Instr) (r : Msg) (own : Nat → Bool) (un : Chip → Chip) (post : Chip → Prop) : Prop :=
      ∀ q, c.routeTo m.src = some q → q ≠ k → (c.vport q).txq = [] →
        (c.vst q = 6 → Runs i s fun d => post d ∧ taken d ∧ (d.vport q).txq = [⟨1, m.ken, r.flits, false, false, none⟩] ∧
          Within c d own fun d => { un d with vxl := c.vxl, elg := c.elg }) ∧
        (c.vst q = 5 → r.flits.length ≤ c.crv q 1 → (c.vport q).replay.length + r.flits.length ≤ 1024 → Runs i s fun d =>
          post d ∧ taken d ∧ (d.vport q).txq = [] ∧ (∀ j fl, r.flits[j]? = some fl →
            ∃ hd, .vxl q 0 (((c.vport q).txSeq + j) % 4096) (hd ++ padTo 64 fl) ∈ d.out) ∧
          Within c d (fun key => own key || key == R.VXL.LCRD q) fun d => { un d with vxl := c.vxl, elg := c.elg })
    c.calm = true → c.vxl.length = 4 → u.owed.length = 4 → (m.src < 32 ∧ m.ken < 8) → (∀ x, x < 4 → (c.vport x).txSeq < 4096) →
    (m.rlen = 0 → c.regionOf m.addr n = .hbm → c.ownWindow m.addr n = m.addr → c.ecc = [] → c.unavailable .hbm m.addr n = none →
      (wrote 0 → m.mt = 1 → c.fence ken .hbm m.addr n false = none →
        answers (.rdreq p) (read (c.getBytes .hbm m.addr m.len)) (keys []) id fun d => d.mem = c.mem) ∧
      (wrote 0 → m.mt = 2 → c.fence ken .hbm m.addr n true = none →
        answers (.wrreq p) ack (keys []) (fun d => { d with mem := c.mem }) fun d => c.Stored d .hbm m.addr m.data) ∧
      (wrote 2 → m.mt = 3 → c.fence ken .hbm m.addr n true = none →
        answers (.stwr p) ack (keys []) (fun d => { d with mem := c.mem }) fun d => c.Stored d .hbm m.addr m.data)) ∧
    (∀ kind i row, m.rlen = 0 → c.regionOf m.addr 4 = .regs → c.ownWindow m.addr 4 = m.addr →
      (let key := m.addr - 0x100000000
       pageOf (key / 0x1000) = some (kind, i) → c.slotEmpty (key / 0x1000) = false → rowOf key = some row → Chip.loHi kind i (key % 0x1000) = none →
       c.pagePwr (key / 0x1000) = 0 → c.inSrst (key / 0x1000) = false → kind = .ary → 0x040 ≤ key % 0x1000 →
       (wrote 0 → m.mt = 4 → m.len = 4 → row.rc = 0 → c.regRefusal (Chip.msgWho m) key false false = none →
          answers (.regrd p) (read (bytesLE 4 (c.peek key).toNat)) (keys []) id fun d => d.r key = c.r key) ∧
       (wrote 0 → m.mt = 5 → m.data.length = 4 → row.w1c = 0 → row.w1s = 0 → row.rwl = 0 → c.writeRefusal (Chip.msgWho m) key false = none →
          answers (.regwr p) ack (keys [key]) id fun d =>
            ∀ j, j < 32 → bit (d.r key) j = if row.rw.testBit j then (natLE m.data).testBit j else bit (c.r key) j))) ∧
    (∀ x : Sent, c.casc.sent = [x] → x.tag = m.tag → wrote 1 →
      (m.mt = 0x81 → x.wait = .ext .pf → Runs (.rdrsp p) s fun d =>
        .pcie (m.code != 0) (if m.code = 0 then m.data else []) ∈ d.out ∧ d.casc.sent = [] ∧ taken d ∧ d.mem = c.mem ∧ d.cores = c.cores ∧ d.regs = c.regs) ∧
      (∀ (j : CoreId) st, m.mt = 0x82 → x.wait = .core j.val → (c.core j.val).loads = [] → (c.core j.val).posted = [st] → st.tag = some m.tag → m.code = 0 →
        c.cores.length = 17 → Runs (.wrack p) s fun d =>
          d.core j.val = { c.core j.val with posted := [] } ∧ (∀ y, y ≠ j.val → d.core y = c.core y) ∧ d.casc.sent = [] ∧ taken d ∧ d.mem = c.mem ∧
          d.regs = c.regs)) ∧
    (wrote 3 → m.mt = 0x10 → Runs (.ctlm p) s fun d =>
      taken d ∧ d.mem = c.mem ∧ Only c d (keys []) fun d => { d with vxl := c.vxl, out := c.out }) ∧
    (wrote 3 → m.mt = 0x11 → c.arole ≠ 1 → Runs (.recf p) s fun d =>
      taken d ∧ d.mem = c.mem ∧ Only c d (keys []) fun d => { d with vxl := c.vxl, out := c.out }) ∧
    (∀ x : Sent, c.casc.sent = [x] → x.wait = .ext .pf → Runs .remoteTimeout s fun d =>
      x.at_ + ms (c.rf (R.VXL.RTO 0) 15 0) ≤ d.now ∧ d.casc.sent = [] ∧ .pcie true [] ∈ d.out ∧ d.rb (R.H.PSTAT 0x018) 1 = true ∧ d.mem = c.mem ∧
      Within c d (keys []) fun d => { d with casc := c.casc })

/-- R773 to R778, R783 to R786, R788, R797, R798: the acting manager beats; a follower accepts each token once, forwards it with one hop more, and acts on it at
its cascade time; managers listen, are deposed, and are replaced by a standby at heel loss; ports measure their delay with PING and ECHO; the cascade's
registers take legal values.
Details are the model's reading (log entry 28). -/
def Obligations.TheCascadeSharesTokensAndChangesRoles : Prop :=
  ∀ (s : State) (p : Fin 4) (w : RegWr) (f : RxFrame) (bytes : List (BitVec 8)) (t : Token) (rtt : BitVec 32),
    let c := s.chip
    let k := p.val
    let u := c.vport k
    let key := w.ofs.toNat
    let st := R.VXL.CSTAT 0
    let lat := c.clat * 1000
    let age := t.age + c.rf (R.VXL.LDLY k) 23 0
    let fresh := c.casc.epoch = none ∨ (∃ n, c.casc.epoch = some t.mepo ∧ c.casc.last = some (t.mgrid, t.mepo, n) ∧ t.tseq = (n + 1) % 0x10000)
    let heard (d : Chip) : Prop :=
      d.casc.last = some (t.mgrid, t.mepo, t.tseq) ∧ d.casc.rxAt = c.now ∧ d.casc.epoch = some t.mepo ∧ d.casc.listen = none ∧
      d.rf st 8 4 = t.mgrid ∧ d.rf st 23 16 = t.mepo ∧ d.rb st 3 = false ∧
      (t.hops < 31 → ∀ q, q < c.vxls → q ≠ k → c.vst q = 5 → Output.vxl q 4 t.tseq { t with hops := t.hops + 1, age := age }.bytes ∈ d.out)
    let good := f.crcOk && !f.fecc && !f.fecu
    let ack (d : Chip) (own : Nat → Bool) : Prop := Only c d (fun key => own key || key == R.VXL.LCRD k || key == R.VXL.LERR k) fun d => { d with vxl := c.vxl, out := c.out }
    (c.awake = true → c.vxl.length = 4 →
      (c.arole = 1 → Runs .beatToken s fun d =>
        (let a := { c with now := d.now }
         ∀ q, q < c.vxls → c.vst q = 5 → Output.vxl q 4 c.casc.txTseq (a.heelToken 3 false (c.src == 3) c.tick.frame c.tick.row a.decState 0).bytes ∈ d.out) ∧
        c.casc.tokAt + us (c.rf (R.VXL.CHINT 0) 9 0) / 2 ≤ d.now ∧ d.casc = { c.casc with txTseq := (c.casc.txTseq + 1) % 0x10000, tokAt := d.now } ∧
        Only c d (keys []) fun d => { d with casc := c.casc, out := c.out }) ∧
      (c.vst k = 5 → 8 ≤ u.echoCnt → Token.parse bytes = some t →
        (fresh → (c.arole = 2 ∨ c.arole = 3) →
          (age + 100000 ≤ lat → Runs (.heelTokenReceived p bytes 0 0) s fun d =>
            heard d ∧ d.casc.due = c.casc.due ++ [((c.now * 1000 + (lat - age) * 6 + 2500) / 5000 * 5, t)] ∧ d.arole = c.arole ∧
            d.rf (R.VXL.HMARG 0) 15 0 = min ((lat - age) / 1000) (c.rf (R.VXL.HMARG 0) 15 0) ∧
            Only c d (keys [st, R.VXL.HMARG 0, R.VXL.LERR k]) fun d => { d with casc := c.casc, vxl := c.vxl, out := c.out }) ∧
          (lat < age + 100000 → Runs (.heelTokenReceived p bytes 0 0) s fun d =>
            heard d ∧ d.casc.due = c.casc.due ++ [(c.now + cyc 1, t)] ∧ d.arole = c.arole ∧
            d.rf (R.VXL.HCNT 0) 31 16 = min 65535 (c.rf (R.VXL.HCNT 0) 31 16 + 1) ∧
            Within c d (keys [st, R.VXL.HMARG 0, R.VXL.HCNT 0, R.VXL.LERR k]) fun d => { d with casc := c.casc, vxl := c.vxl })) ∧
        (fresh → c.arole = 5 → Runs (.heelTokenReceived p bytes 0 0) s fun d =>
          heard d ∧ d.arole = 4 ∧ d.casc.due = c.casc.due ∧ Only c d (keys [st, R.VXL.LERR k]) fun d => { d with casc := c.casc, vxl := c.vxl, out := c.out }) ∧
        (c.arole = 1 → c.casc.epoch = some (c.rf st 23 16) → t.mgrid ≠ c.devNum →
          (t.mepo = (c.rf st 23 16 + 1) % 256 ∨ (t.mepo = c.rf st 23 16 ∧ t.mgrid < c.devNum)) → Runs (.heelTokenReceived p bytes 0 0) s fun d =>
            heard d ∧ d.arole = 4 ∧ d.src = 0 ∧ d.mem = c.mem ∧ d.cores = c.cores ∧
            (c.tstate = 0 → Within c d (keys [st, R.VXL.LERR k, R.TICK.TCFG]) fun d => { d with casc := c.casc, vxl := c.vxl, tick := c.tick })) ∧
        (c.arole ≠ 1 → c.casc.epoch = some t.mepo → c.casc.last = some (t.mgrid, t.mepo, t.tseq) → Runs (.heelTokenReceived p bytes 0 0) s fun d =>
          d.casc = c.casc ∧ d.out = c.out ∧ Only c d (keys [R.VXL.LERR k]) fun d => { d with vxl := c.vxl })) ∧
      (∀ at_ rest, c.casc.due = (at_, t) :: rest → c.arole = 2 → c.croleOf = 2 → c.src = 2 →
        (t.kind = 3 → t.state = c.tstate → Runs .cascadeTimeAction s fun d =>
          d.casc = { c.casc with due := rest } ∧ at_ ≤ d.now ∧ Only c d (keys []) fun d => { d with casc := c.casc }) ∧
        (t.kind = 2 → c.tstate = 1 → c.tick.opened = true → c.tick.pend = [] → Runs .cascadeTimeAction s fun d =>
          d.casc = { c.casc with due := rest } ∧ at_ ≤ d.now ∧ d.tstate = 2 ∧ d.tick.flushLeft = 3 ∧ d.tick.flushFrom = some (t.fnum + 1) ∧
          d.tick.flushPer = t.fper ∧ Only c d (keys [R.TICK.TSTAT]) fun d => { d with casc := c.casc, tick := c.tick }) ∧
        (t.kind = 1 → c.tstate = 1 → c.rb (R.VXL.GTC 0) 0 = false → t.pos < 2 ^ 48 → c.casc.gap = false → Runs .cascadeTimeAction s fun d =>
          d.casc.due = rest ∧ at_ ≤ d.now ∧ d.r64 R.TICK.POS_LO = t.pos ∧ d.rb R.TICK.TSTAT 2 = t.dir ∧ d.tick.frame = t.fnum ∧ d.tick.row = t.row ∧
          d.tick.lineAt = some d.now ∧ d.tick.pend = (if t.boundary then c.tick.pend ++ [(d.now + ns t.fdly, t.fnum)] else c.tick.pend) ∧
          ((∀ g, g < 8 → c.rb (R.LST.LRCFG g) 31 = false) →
            Within c d (keys [R.TICK.POS_LO, R.TICK.POS_LO + 4, R.TICK.TSTAT, R.TICK.LPER]) fun d => { d with casc := c.casc, tick := c.tick }))) ∧
      (∀ e, c.arole = 5 → c.casc.listen = some e → c.devNum < 32 → Runs .listenTimeout s fun d =>
        d.arole = 1 ∧ d.rf st 8 4 = c.devNum ∧ d.rf st 23 16 = 0 ∧ e ≤ d.now ∧ d.casc = { c.casc with epoch := some 0, tokAt := d.now, listen := none } ∧
        Only c d (keys [st]) fun d => { d with casc := c.casc }) ∧
      (c.rb st 3 = false →
        (let lossAt := c.casc.rxAt + us (3 * c.rf (R.VXL.CHINT 0) 9 0)
         (c.arole = 2 → Runs .heelLoss s fun d => d.rb st 3 = true ∧ lossAt ≤ d.now ∧ d.arole = 2 ∧ Within c d (keys [st]) id) ∧
         (c.arole = 3 → c.tstate ≠ 1 → c.devNum < 32 → Runs .heelLoss s fun d =>
          d.rb st 3 = true ∧ lossAt ≤ d.now ∧ d.arole = 1 ∧ d.rf st 8 4 = c.devNum ∧ d.rf st 23 16 = (c.rf st 23 16 + 1) % 256 ∧ d.src = 1 ∧
          d.posNow = sInt 48 (wrapN 48 (c.casc.lastPos + c.sposNow - c.casc.sposAt)) ∧ d.casc.epoch = some ((c.rf st 23 16 + 1) % 256) ∧
          Within c d (keys [st, R.TICK.TCFG, R.TICK.POS_LO, R.TICK.POS_LO + 4, R.TICK.TSTAT]) fun d => { d with casc := c.casc, tick := c.tick }))) ∧
      (c.vst k = 5 → Runs (.pingSend p) s fun d =>
        (∃ hd, d.out = Output.vxl k 1 0 (hd ++ padTo 64 (2 :: (zeros 7 ++ bytesLE 8 (d.now * 1000 / 6)))) :: c.out) ∧ (d.vport k).pings = u.pings + 1 ∧
        u.pingAt ≤ d.now ∧ (d.vport k).pingAt = d.now + (if u.pings + 1 < 8 then us 125 else ms 1) ∧
        Only c d (keys []) fun d => { d with vxl := c.vxl, out := c.out }) ∧
      (c.vst k = 5 → good = true → (∀ v, v < 4 → nth 0 f.cr v = 0) → u.txq = [] → u.owed = [0, 0, 0, 0] →
        (Runs (.pingReceived p f) s fun d =>
          (∃ hd, d.out = Output.vxl k 1 0 (hd ++ padTo 64 (3 :: (zeros 7 ++ bytesLE 8 (fle f.flit 8 8) ++ zeros 4))) :: c.out) ∧ ack d (keys [])) ∧
        (let l := (rtt.toNat / 2 :: u.echoes).take 8
         Runs (.echoReceived p f rtt) s fun d =>
          (d.vport k).echoes = l ∧ (d.vport k).echoCnt = u.echoCnt + 1 ∧ d.rf (R.VXL.LDLY k) 23 0 = l.foldl (· + ·) 0 / l.length % 2 ^ 24 ∧ d.out = c.out ∧
          ack d (keys [R.VXL.LDLY k])))) ∧
    (c.takes w = true → c.rwlOk w.who 0x018 = true →
      (∀ (reg hi : Nat) (ok : Prop),
        (reg = R.VXL.CLAT 0 ∧ hi = 14 ∧ (ok ↔ (c.tstate = 0 ∨ c.tstate = 3) ∧ 1000 ≤ fld w.val 14 0 ∧ fld w.val 14 0 ≤ 20000) ∨
         reg = R.VXL.CHINT 0 ∧ hi = 9 ∧ (ok ↔ 10 ≤ fld w.val 9 0 ∧ fld w.val 9 0 ≤ 1000) ∨
         reg = R.VXL.RTO 0 ∧ hi = 15 ∧ (ok ↔ fld w.val 15 0 ≠ 0) ∨
         (∃ j, j < 4 ∧ reg = R.VXL.RTAB 0 j ∧ hi = 31 ∧ (ok ↔ ∀ i, i < 8 → fld w.val (4 * i + 3) (4 * i) < 4 ∨ fld w.val (4 * i + 3) (4 * i) = 15))) →
        key = reg →
        (ok → Runs (.cascadeConfigWrite w) s fun d => d.rf reg hi 0 = fld w.val hi 0 ∧ Within c d (keys [reg]) id) ∧
        (¬ok → Runs (.cascadeConfigWrite w) s fun d => d.rb (R.H.PIRQS 0x018) 31 = true ∧ Within c d (keys []) id)) ∧
      (key = R.VXL.CROLE 0 → (c.tstate = 0 ∨ c.tstate = 3) → Runs (.cascadeConfigWrite w) s fun d =>
        d.croleOf = fld w.val 1 0 ∧ d.arole = (if fld w.val 1 0 = 1 then 5 else fld w.val 1 0) ∧ d.rb st 3 = false ∧ d.casc.rxAt = c.now ∧
        Within c d (keys [key, st]) fun d => { d with casc := c.casc }))

/-- R804 to R807, R819, R822, R827, R828, R834, R836, R837, R839: a PCIe request reaches memory, a register or a BAR4 word and is answered; the
rings of a function move, are cleared and are checked; links go up and down; GTIME is stepped and time stamps are read.
The conventions of PCI Express are presumed (log entry 30). -/
def Obligations.TheHostReachesTheDeviceAndItsRingsMove : Prop :=
  ∀ (s : State) (q : PcieReq) (fn : Fin 9) (v : BitVec 32) (entry : List (BitVec 8)) (p : Fin 2) (up : Bool) (speed : BitVec 3) (width : BitVec 4)
    (w : RegWr) (x : RegRd),
    let c := s.chip
    let f := fn.val
    let who := Chip.pcieWho q.fn.val
    let key := w.ofs.toNat
    let linked := c.rb R.PCI.PLSTAT 8 = true
    let fnFields (d : Chip) : Prop :=
      d.rb (R.PCI.RRCFG f) 8 = false ∧ d.rb (R.PCI.CRCFG f) 8 = false ∧ d.r (R.PCI.RRPROD f) = 0 ∧ d.r (R.PCI.CFETCH f) = 0 ∧ d.pfn f = {} ∧
      (∀ g, g ≠ f → d.pfn g = c.pfn g) ∧
      Within c d (keys [R.PCI.RRCFG f, R.PCI.CRCFG f, R.PCI.RRPROD f, R.PCI.CFETCH f]) fun d => { d with egr := c.egr }
    (c.calm = true → c.surv 30 = true → linked → c.egr.fns.length = 9 → c.ecc = [] →
      (c.fnEnabled q.fn.val = false → q.bar = 2 → 0 < q.len.val → q.data = none → q.ofs.toNat + q.len.val ≤ 0x10000000 → Runs (.pcieMemoryRequest q) s fun d =>
        d.out = .pcie true [] :: c.out ∧ Only c d (keys []) fun d => { d with out := c.out }) ∧
      (let n := match q.data with | some bs => bs.length | none => q.len.val
       let base := if q.fn = 0 then c.r64 R.PCI.APBASE_LO % 2 ^ 48 else c.r64 (R.PCI.VFAP_LO (q.fn.val - 1)) % 2 ^ 48
       let addr := (base + q.ofs.toNat) % 2 ^ 48
       c.fnEnabled q.fn.val = true → 0 < n → n ≤ 4096 → q.ofs.toNat + n ≤ (if q.fn = 0 then 0x100000000 else 0x10000000) → q.bar = 2 →
        c.regionOf addr n = .hbm → c.ownWindow addr n = addr → c.unavailable .hbm addr n = none →
        (q.data = none → c.fence (c.req who).ken .hbm addr n false = none → Runs (.pcieMemoryRequest q) s fun d =>
          d.out = .pcie false (c.getBytes .hbm addr n) :: c.out ∧ Within c d (keys []) fun d => { d with elg := c.elg }) ∧
        (∀ bs, q.data = some bs → c.fence (c.req who).ken .hbm addr n true = none → Runs (.pcieMemoryRequest q) s fun d =>
          c.Stored d .hbm addr bs ∧ Within c d (keys []) fun d => { d with mem := c.mem, elg := c.elg })) ∧
      (∀ i row, let k := q.ofs.toNat
        q.fn = 0 → q.bar = 0 → q.data = none → q.len.val = 4 → k % 4 = 0 → pageOf (k / 0x1000) = some (.ary, i) → c.slotEmpty (k / 0x1000) = false →
        rowOf k = some row → 0x040 ≤ k % 0x1000 → Chip.loHi .ary i (k % 0x1000) = none → c.pagePwr (k / 0x1000) = 0 → c.inSrst (k / 0x1000) = false → row.rc = 0 →
        c.regRefusal .pf k false false = none → Runs (.pcieMemoryRequest q) s fun d =>
          .pcie false (bytesLE 4 (c.peek k).toNat) ∈ d.out ∧ Within c d (keys []) id) ∧
      (q.fn = fn → c.fnEnabled f = true → q.bar = 4 → q.ofs = 0 →
        (q.data = none → q.len.val = 8 → Runs (.pcieMemoryRequest q) s fun d =>
          d.out = .pcie false (bytesLE 4 (BitVec.ofNat 32 (c.pfn f).rcons).toNat ++ bytesLE 4 (BitVec.ofNat 32 (c.pfn f).cprod).toNat) :: c.out ∧
          Only c d (keys []) fun d => { d with out := c.out }) ∧
        (q.data = some (bytesLE 4 v.toNat) → Runs (.pcieMemoryRequest q) s fun d =>
          d.pfn f = { c.pfn f with rcons := v.toNat } ∧ Only c d (keys []) fun d => { d with egr := c.egr })) ∧
      (Runs (.rconsWrite fn v) s fun d =>
        d.pfn f = { c.pfn f with rcons := v.toNat } ∧ (∀ g, g ≠ f → d.pfn g = c.pfn g) ∧ Only c d (keys []) fun d => { d with egr := c.egr }) ∧
      (Runs (.cprodWrite fn v) s fun d =>
        d.pfn f = { c.pfn f with cprod := v.toNat } ∧ (∀ g, g ≠ f → d.pfn g = c.pfn g) ∧ Only c d (keys []) fun d => { d with egr := c.egr }) ∧
      (let i := (c.r (R.PCI.CFETCH f)).toNat
       let ken := if f = 0 then 0 else c.vfKen f
       let base := c.r64 (R.PCI.CBBASE_LO f) % 2 ^ 48
       let n := 2 ^ c.rf (R.PCI.CBCFG f) 4 0
       let a := base + 64 + 64 * (i % n)
       let reach (a m : Nat) (wr : Bool) : Prop := c.regionOf a m = .hbm ∧ c.fence ken .hbm a m wr = none ∧ c.unavailable .hbm a m = none
       c.rb (R.PCI.CRCFG f) 8 = true → i ≠ (c.pfn f).cprod → i < 2 ^ 32 - 1 → reach base 4 false → reach a 64 true → entry.length = 64 →
        ((i + 2 ^ 32 - natLE (c.getBytes .hbm base 4)) % 2 ^ 32 < n → Runs (.commandFetch fn entry) s fun d =>
          (d.r (R.PCI.CFETCH f)).toNat = i + 1 ∧
          c.Stored d .hbm a (bytesLE 4 i ++ (entry.drop 4).take 56 ++ bytesLE 4 (0xFFFFFFFF - i)) ∧
          .hostWrite f (c.r64 (R.PCI.CRWB_LO f)) (bytesLE 4 (i + 1)) ∈ d.out ∧
          Within c d (keys [R.PCI.CFETCH f]) fun d => { d with mem := c.mem, elg := c.elg }) ∧
        (n ≤ (i + 2 ^ 32 - natLE (c.getBytes .hbm base 4)) % 2 ^ 32 → Runs (.commandFetch fn entry) s fun d =>
          d.mem = c.mem ∧ d.out = c.out ∧ d.regs = c.regs)) ∧
      (∀ t, (c.pfn f).sigAt = some t → c.rf (R.PCI.RRCFG f) 31 24 ≠ 0 → Runs (.resultInterruptTimer fn) s fun d =>
        d.pfn f = { c.pfn f with unsig := 0, sigAt := none } ∧ t + us (c.rf (R.PCI.RRCFG f) 31 24) ≤ d.now ∧
        (if bit (c.msixWord f 0x80C) 0 then bit (d.msixWord f 0xC00) 0 = true ∧ d.out = c.out else d.out = .msix f 0 :: c.out) ∧
        Within c d (keys []) fun d => { d with egr := c.egr }) ∧
      (Runs (.functionLevelReset fn) s fun d =>
        fnFields d ∧ (∀ o, o < 0x1000 → d.msixWord f o = if o < 0xC00 ∧ o % 16 = 12 then 1 else 0)) ∧
      (Runs (.hostAccessError fn) s fnFields)) ∧
    (c.awake = true → c.surv 30 = true →
      (up = true → ¬linked → Runs (.pcieLinkChange up speed width) s fun d =>
        d.rb R.PCI.PLSTAT 8 = true ∧ d.rf R.PCI.PLSTAT 2 0 = speed.toNat ∧ d.rf R.PCI.PLSTAT 7 4 = width.toNat ∧ Within c d (keys [R.PCI.PLSTAT]) id) ∧
      (up = false → linked → Runs (.pcieLinkChange up speed width) s fun d =>
        d.r R.PCI.PLSTAT = 0 ∧ Within c d (keys [R.PCI.PLSTAT]) id)) ∧
    (c.awake = true → c.survx (20 + p.val) = true → c.rb (R.ETH.ECTL p.val) 0 = true → c.rb (R.ETH.ESTAT p.val) 0 = !up → Runs (.ethLinkChange p up) s fun d =>
      d.rb (R.ETH.ESTAT p.val) 0 = up ∧ Within c d (keys [R.ETH.ESTAT p.val]) fun d => { d with egr := c.egr, elg := c.elg }) ∧
    (∀ lo, c.takes w = true → key = R.ETH.GSTEP_HI 0 → c.heldLo w.who key = some lo → c.rb (R.VXL.GTC 0) 0 = false → c.rwlOk w.who 0x012 = true → Runs (.gtimeStep w) s fun d =>
      d.gtime = wrapN 64 ((c.gtime : Int) + sInt 64 (lo.toNat + w.val.toNat * 2 ^ 32)) ∧
      Within c d (keys []) fun d => { d with gtBase := c.gtBase, gtAt := c.gtAt }) ∧
    (c.gives x = true → x.ofs.toNat = R.ETH.TSRX_HI p.val → c.egr.eth.length = 2 → c.slotEmpty (slotEth p.val) = false → c.pagePwr (slotEth p.val) = 0 →
      c.inSrst (slotEth p.val) = false → c.bus.cap = [] → Runs (.timestampRead x) s fun d =>
        (d.ethP p.val) = { c.ethP p.val with tsrx := (c.ethP p.val).tsrx.drop 1 } ∧ d.out = .read x.who x.ofs.toNat (c.peek x.ofs.toNat) :: c.out ∧
        Only c d (keys []) fun d => { d with egr := c.egr, out := c.out }) ∧
    (c.takes w = true → c.rwlOk w.who 0x011 = true →
      (key = R.PCI.RRCFG f → bit w.val 8 = true →
        (let ok := 6 ≤ fld w.val 4 0 ∧ fld w.val 4 0 ≤ 16 ∧ fld w.val 23 16 ≠ 0 ∧ c.r64 (R.PCI.RRB_LO f) % 4096 = 0 ∧ c.r64 (R.PCI.RRWB_LO f) % 8 = 0
         (ok → Runs (.hostRingEnable w) s fun d => d.rb key 8 = true ∧ d.rf key 4 0 = fld w.val 4 0 ∧ Within c d (keys [key]) id) ∧
         (¬ok → Runs (.hostRingEnable w) s fun d => d.r key = c.r key ∧ d.rb (R.H.PIRQS 0x011) 31 = true ∧ Within c d (keys []) id))) ∧
      (∀ k, k < 8 → key = R.PCI.ERCFG k → bit w.val 8 = true →
        (let a := c.r64 (R.PCI.ERB_LO k) % 2 ^ 48
         let g := fld w.val 4 0
         let ok := c.tstate ≠ 1 ∧ c.tstate ≠ 2 ∧ 10 ≤ g ∧ g ≤ 20 ∧ a % 64 = 0 ∧ c.inOneRange k a (64 * 2 ^ g) = true
         (ok → Runs (.hostRingEnable w) s fun d => d.rb key 8 = true ∧ (c.rb key 8 = false → ∀ dst, dst < 4 → d.ringPos false k dst = 0) ∧
          Within c d (keys [key]) fun d => { d with egr := c.egr }) ∧
         (¬ok → Runs (.hostRingEnable w) s fun d => d.r key = c.r key ∧ d.rb (R.H.PIRQS 0x011) 31 = true ∧ Within c d (keys []) id))))

/-- R809, R811, R813, R814, R819, R823, R824, R826, R831: a queued record leaves its egress ring for the result ring, on a poll or with the frame's release scan, which adds
the tick report; a record for the manager enters its forward ring; a datagram leaves at its linger time; an Ethernet frame fills a receive entry.
Details are the model's reading (log entries 30, 31). -/
def Obligations.RecordsLeaveTheirRingsAndFramesArrive : Prop :=
  ∀ (s : State) (p : Fin 2) (k : Fin 8) (f : EthFrame) (b : Fin 4) (m : Msg) (rest : List (Nat × Msg)),
    let c := s.chip
    let e := c.ringPos false k.val 0
    let n := 2 ^ c.ringLog false k.val
    let slot (i : Nat) := c.ringBase false k.val + 64 * (i % n)
    let rd (i : Nat) := c.getBytes .hbm (slot i) 64
    let open_ := ∀ i, c.regionOf (slot i) 64 = .hbm ∧ c.fence k.val .hbm (slot i) 64 false = none ∧ c.unavailable .hbm (slot i) 64 = none
    let off (key : Nat) := c.rb key 8 = false
    let lone := c.ringEn false k.val = true ∧ c.routes k.val = [0] ∧ (∀ j, j < 8 → j ≠ k.val → off (R.PCI.ERCFG j)) ∧ (∀ j, j < 8 → off (R.PCI.FRCFG j)) ∧
      1 ≤ c.ringLog false k.val ∧ e + 1 < 2 ^ 32 ∧ open_ ∧ recSeq (rd e) = some e ∧ recSeq (rd (e + 1)) = none ∧ c.ecc = [] ∧ c.netEv = [] ∧ c.egr.evs = []
    (∀ fn, c.awake = true → lone → c.pcieDest k.val = some fn → fn < 9 → c.resultRoom fn = true →
      (let at_ (i : Nat) := c.r64 (R.PCI.RRB_LO fn) + 64 * (((c.r (R.PCI.RRPROD fn)).toNat + i) % 2 ^ c.rf (R.PCI.RRCFG fn) 4 0)
       let g := le (rd e) 8 8
       let rel := c.r64 R.PCI.EREL_LO
       (c.egr.rel = true → g ≤ rel → Runs .egressPoll s fun d =>
        .hostWrite fn (at_ 0) (c.recStamp false true k.val (rd e)) ∈ d.out ∧ d.r (R.PCI.RRPROD fn) = c.r (R.PCI.RRPROD fn) + 1 ∧
        d.ringPos false k.val 0 = e + 1 ∧ Within c d (keys [R.PCI.RRPROD fn]) fun d => { d with egr := c.egr, elg := c.elg }) ∧
       (∀ edge, c.tick.edgeAt = some edge → c.tick.scanned = false → 3 ≤ c.fnum → g = c.fnum - 3 → (∀ q ∈ c.egr.eth, ∀ y ∈ q.qs, y.recs = []) →
        c.rb (R.PCI.ERCFG k.val) 9 = false → Runs .releaseScan s fun d =>
          .hostWrite fn (at_ 0) (c.recStamp false false k.val (rd e)) ∈ d.out ∧ d.r (R.PCI.RRPROD fn) = c.r (R.PCI.RRPROD fn) + 1 ∧
          d.ringPos false k.val 0 = e + 1 ∧ d.r64 R.PCI.EREL_LO = c.fnum - 3 ∧ d.egr.rel = true ∧ edge + cyc 48000 ≤ d.now ∧ d.tick = { c.tick with scanned := true } ∧
          Within c d (keys [R.PCI.RRPROD fn, R.PCI.EREL_LO, R.PCI.EREL_LO + 4]) fun d => { d with egr := c.egr, elg := c.elg, tick := c.tick }))) ∧
    (∀ edge, c.awake = true → c.tick.edgeAt = some edge → c.tick.scanned = false → (c.fnum < 3 → Runs .releaseScan s fun d =>
        edge + cyc 48000 ≤ d.now ∧ Only c d (keys []) fun d => { d with tick := { d.tick with scanned := false } }) ∧
      (3 ≤ c.fnum → (∀ fn, lone → c.pcieDest k.val = some fn → fn < 9 → c.resultRoom fn = true → le (rd e) 8 8 = c.fnum - 3 →
        ((c.r (R.PCI.RRPROD fn)).toNat + 1 + 2 ^ 32 - (c.pfn fn).rcons) % 2 ^ 32 < 2 ^ c.rf (R.PCI.RRCFG fn) 4 0 → (∀ q ∈ c.egr.eth, ∀ y ∈ q.qs, y.recs = []) →
        c.rb (R.PCI.ERCFG k.val) 9 = true → Runs .releaseScan s fun d =>
          d.r (R.PCI.RRPROD fn) = c.r (R.PCI.RRPROD fn) + 2 ∧
          ∃ r, .hostWrite fn (c.r64 (R.PCI.RRB_LO fn) + 64 * (((c.r (R.PCI.RRPROD fn)).toNat + 1) % 2 ^ 32 % 2 ^ c.rf (R.PCI.RRCFG fn) 4 0)) r ∈ d.out ∧ r.length = 64 ∧
            nth 0 r 0 = 2 ∧ nth 0 r 2 = BitVec.ofNat 8 k.val ∧ recSeq r = some (e + 1) ∧ le r 8 8 = c.fnum - 3 ∧ le r 24 4 = 1))) ∧
    (∀ t r, c.awake = true → (c.ethQ p.val k.val).openAt = some t → (c.ethQ p.val k.val).recs = [r] → r.length = 64 → c.egr.eth.length = 2 → (c.ethP p.val).qs.length = 8 →
      c.rb (R.ETH.ESTAT p.val) 0 = true → c.rb (R.ETH.ECTL p.val) 0 = true → c.rb (R.ETH.QCTL p.val k.val) 0 = true → Runs (.datagramLingerExpiry p k) s fun d =>
        t + us (c.rf (R.ETH.DLING p.val) 7 0) ≤ d.now ∧
        (∃ hd, d.out = .datagram p.val k.val (hd ++ ([0x59, 0x5A, 0x01, 1] ++ bytesLE 4 (c.ethQ p.val k.val).dseq ++ [BitVec.ofNat 8 c.devNum, BitVec.ofNat 8 k.val] ++
          bytesLE 2 (c.ethQ p.val k.val).qdrop ++ zeros 4 ++ r)) :: c.out) ∧
        d.ethQ p.val k.val = { recs := [], dseq := ((c.ethQ p.val k.val).dseq + 1) % 2 ^ 32, qdrop := 0, openAt := none } ∧
        Only c d (keys []) fun d => { d with egr := c.egr, elg := c.elg, out := c.out }) ∧
    (c.awake = true → c.rb (R.ETH.ECTL p.val) 0 = true → c.rb (R.ETH.ESTAT p.val) 0 = true →
      (f.fcsOk = false → Runs (.ethFrameReceived p f) s fun d =>
        d.rf (R.ETH.RXERR p.val) 15 0 = min 65535 (c.rf (R.ETH.RXERR p.val) 15 0 + 1) ∧ Only c d (keys [R.ETH.RXERR p.val]) id) ∧
      (let entry := c.r64 (R.ETH.RXB_LO p.val) % 2 ^ 48 + 2048 * ((c.ethP p.val).rxNext % 2 ^ c.rf (R.ETH.RXCFG p.val) 4 0)
       f.fcsOk = true → (f.bytes.take 6 = List.replicate 6 0xFF ∨ f.bytes.take 6 = c.mac (R.ETH.MAC_LO p.val)) → 0 < f.bytes.length → f.bytes.length ≤ 2032 →
        c.rb (R.ETH.RXCFG p.val) 8 = true → c.regionOf entry 2048 = .hbm → c.unavailable .hbm entry 2048 = none → c.ecc = [] → c.egr.eth.length = 2 →
        (natLE (c.getBytes .hbm (entry + 8) 2) = 0 → f.ptp = none → Runs (.ethFrameReceived p f) s fun d =>
          c.Stored d .hbm entry (bytesLE 8 c.gtime ++ bytesLE 2 f.bytes.length ++ bytesLE 2 0 ++ zeros 4 ++ f.bytes) ∧
          (d.ethP p.val).rxNext = ((c.ethP p.val).rxNext + 1) % 2 ^ c.rf (R.ETH.RXCFG p.val) 4 0 ∧
          Only c d (keys []) fun d => { d with mem := c.mem, egr := c.egr, elg := c.elg }) ∧
        (natLE (c.getBytes .hbm (entry + 8) 2) ≠ 0 → f.ptp = none → Runs (.ethFrameReceived p f) s fun d =>
          d.rf (R.ETH.RXERR p.val) 31 16 = min 65535 (c.rf (R.ETH.RXERR p.val) 31 16 + 1) ∧ Only c d (keys [R.ETH.RXERR p.val]) fun d => { d with elg := c.elg }) ∧
        (∀ id, f.ptp = some id → c.rb (R.ETH.ECTL p.val) 3 = true → (c.ethP p.val).tsrx.length < 16 → Runs (.ethFrameReceived p f) s fun d =>
          (d.ethP p.val).tsrx = (c.ethP p.val).tsrx ++ [(c.gtime, id.toNat)]))) ∧
    (let a := c.ringBase true m.ken + 64 * (nth 0 c.egr.fseq m.ken % 2 ^ c.ringLog true m.ken)
     c.calm = true → c.vxl.length = 4 → (c.vport b.val).owed.length = 4 → (c.vport b.val).inbox = (3, m) :: rest → m.mt = 0x11 → m.data.length = 64 → m.ken < 8 →
      c.arole = 1 → c.ringEn true m.ken = true → (∀ j, j < 8 → c.routes j = []) → c.regionOf a 64 = .hbm → c.unavailable .hbm a 64 = none → c.ecc = [] →
      c.egr.fseq.length = 8 → Runs (.recf b) s fun d =>
        c.Stored d .hbm a (recNum (recPut m.data 1 [nth 0 m.data 1 ||| 4]) (nth 0 c.egr.fseq m.ken)) ∧
        nth 0 d.egr.fseq m.ken = (nth 0 c.egr.fseq m.ken + 1) % 2 ^ 32 ∧ (d.vport b.val).inbox = rest ∧
        Only c d (keys []) fun d => { d with mem := c.mem, egr := c.egr, vxl := c.vxl, out := c.out })

/-- R15, R254, R879 to R881, R884 to R887, R890 to R893, R901, R912, R914, R918, R937, R944, R951, R1000: power-on reset clears everything but the fuses, the plastic store and
the training record; a warm reset keeps the always-on pages and memory, records its cause, and stops every core; and the core domain is released when nothing holds it.
Details are the model's reading (log entry 32), and the reset values of internal state are its choice (entries 4, 7, 8). -/
def Obligations.ResetsHoldAndReleaseTheDevice : Prop :=
  ∀ (s : State) (w : RegWr) (smba : BitVec 2) (mgr : Bool) (tj thbm : BitVec 8),
    let c := s.chip
    let p := c.pwr
    let power (d : Chip) : Prop :=
      d.coreUp = false ∧ (∀ key, d.r key = resetOf key) ∧ d.fuse = c.fuse ∧ d.pwr.fused = false ∧ d.pwr.trec = p.trec ∧ d.now = c.now ∧ d.out = c.out ∧
      (∀ a, d.mem.byte a = if 0x3000000000 ≤ a ∧ a < 0x3000400000 then c.mem.byte a else 0) ∧ (∀ k, k < 17 → (d.core k).run = .stopped)
    let warm (d : Chip) (cause : Nat) : Prop :=
      d.coreUp = false ∧ d.rb R.AON.RCAUSE cause = true ∧ d.pwr.relAt = d.now ∧
      (∀ k, k < 17 → (d.core k).run = .stopped ∧ (d.core k).priv = true ∧ (∀ r, (d.core k).D r = 0)) ∧ (d.core 16).pc = 0x80000000 ∧
      (∀ k i row key, pageOf (key / 0x1000) = some (k, i) → rowOf key = some row → k.aonDom = false → k ≠ .hbm → k ≠ .dbg → row.keep = 0 → d.r key = resetOf key) ∧
      (∀ key, key / 0x1000 ∈ [0, 2, 3] → d.r key = c.r key) ∧ (d.stackMode = c.stackMode → d.mem = c.mem) ∧ d.pwr.deep = 0 ∧ d.tick.edgeAt = none ∧ d.lrn = {}
    (p.porDone = false → Runs (.powerOnReset smba) s fun d => power d ∧ d.pwr.porDone = true ∧ d.pwr.smba = smba) ∧
    (Runs .vddAonLoss s fun d => power d ∧ d.pwr.porDone = false) ∧
    (p.porDone = true →
      (p.fused = false → c.wdt.length = 18 → Runs .fuseLoadDone s fun d =>
        d.pwr = { p with fused := true } ∧ (∀ t, t < c.tiles → d.surv t = !bit c.fuse.udis0 t) ∧ (∀ i, i < c.stackCnt → d.surv (16 + i) = !bit c.fuse.udis0 (16 + i)) ∧
        (∀ i, i < c.vxls → d.survx (16 + i) = !bit c.fuse.udis1 (16 + i)) ∧ d.rb R.SWD.SCFG 0 = c.fuse.scfgEn ∧ d.rf R.DBG.DSTAT 1 0 = (if c.fuse.dmode = 0 then 3 else 0) ∧
        (nth {} d.wdt 17).running = c.fuse.scfgEn ∧
        Only c d (keys [R.DEV.SURV, R.DEV.SURVX, R.SWD.SCFG, R.DBG.DSTAT]) fun d => { d with pwr := p, dbg := c.dbg, fresh := c.fresh }) ∧
      (p.pwrgood = true → Runs .pwrgoodFall s fun d => warm d 2 ∧ d.pwr.pwrgood = false) ∧
      (p.resetN = true → Runs .resetNAssert s fun d => warm d 1 ∧ d.pwr.resetN = false ∧ d.pwr.lowAt = some c.now) ∧
      (p.refclk = true → Runs .refclkLoss s fun d => warm d 7 ∧ d.pwr.refclk = false ∧ d.rb R.AON.FSRC 2 = true) ∧
      (∀ t, p.lowAt = some t → c.rb R.AON.FSRC 0 = false → Runs .resetHeldLimit s fun d =>
        d.rb R.AON.FSRC 0 = true ∧ t + ms 2000 ≤ d.now ∧ d.rf R.AON.RCNT 31 16 = min 65535 (c.rf R.AON.RCNT 31 16 + 1) ∧
        Within c d (keys [R.AON.FSRC, R.AON.RCNT]) id) ∧
      (c.relReady = true → c.cores.length = 17 → Runs (.coreDomainRelease mgr) s fun d =>
        d.coreUp = true ∧ p.relAt + ms 1 ≤ d.now ∧ d.r R.AON.BOOTST = 1 ∧ d.rb R.AON.FSRC 3 = false ∧ d.r R.DEV.FLOOR = 0 ∧ d.pwr.firstRel = false ∧ d.pwr.mgr = mgr ∧
        (d.core 16).run = .run ∧ (d.core 16).pc = (c.core 16).pc ∧ (∀ k, k < 16 → (d.core k).run = (c.core k).run) ∧ 63 ∈ d.pwr.testing ∧
        (p.firstRel = true → mgr = true → d.croleOf = 1 ∧ d.r (R.VXL.CNUM 0) = 0x100) ∧
        (p.firstRel = false ∨ mgr = false → d.r (R.VXL.CROLE 0) = c.r (R.VXL.CROLE 0) ∧ d.r (R.VXL.CNUM 0) = c.r (R.VXL.CNUM 0)) ∧
        (d.stackMode = c.stackMode → d.mem = c.mem)) ∧
      (let lim := c.rf R.AON.TSEN 23 16
       (p.tripHold = false → tj.toNat < 125 → thbm.toNat < 115 → Runs (.junctionTempRead tj thbm) s fun d =>
        d.rf R.AON.TSEN 7 0 = tj.toNat ∧ d.rf R.AON.TSEN 15 8 = thbm.toNat ∧ d.rf R.AON.TSEN 23 16 = lim ∧ d.elg.temp = tj.toNat ∧
        d.pwr = { p with tjWarn := decide (lim ≤ tj.toNat) } ∧ Within c d (keys [R.AON.TSEN]) fun d => { d with elg := c.elg, pwr := p }) ∧
       (p.tripHold = false → (125 ≤ tj.toNat ∨ 115 ≤ thbm.toNat) → Runs (.junctionTempRead tj thbm) s fun d =>
        warm d 6 ∧ d.pwr.tripHold = true ∧ d.rb R.AON.FSRC 1 = true ∧ d.rf R.AON.TRIPS 15 0 = min 65535 (c.rf R.AON.TRIPS 15 0 + 1)) ∧
       (p.tripHold = true → Runs (.junctionTempRead tj thbm) s fun d =>
        (if tj.toNat + 10 < lim ∧ thbm.toNat + 10 < lim then d.pwr.tripHold = false ∧ d.rb R.AON.FSRC 1 = false ∧ d.pwr.relAt = c.now
         else d.pwr.tripHold = true ∧ d.rb R.AON.FSRC 1 = c.rb R.AON.FSRC 1) ∧ d.coreUp = c.coreUp ∧ d.mem = c.mem))) ∧
    (p.pwrgood = false → Runs .pwrgoodRise s fun d => d.pwr = { p with pwrgood := true, relAt := c.now } ∧ Only c d (keys []) fun d => { d with pwr := p }) ∧
    (p.resetN = false → Runs .resetNRelease s fun d =>
      d.pwr = { p with resetN := true, lowAt := none, relAt := c.now } ∧ d.rb R.AON.FSRC 0 = false ∧ Only c d (keys [R.AON.FSRC]) fun d => { d with pwr := p }) ∧
    (p.refclk = false → Runs .refclkReturn s fun d =>
      d.pwr = { p with refclk := true, relAt := c.now } ∧ d.rb R.AON.FSRC 2 = false ∧ d.gtime = c.gtime ∧
      Only c d (keys [R.AON.FSRC]) fun d => { d with pwr := p, gtBase := c.gtBase, gtAt := c.gtAt }) ∧
    (c.takes w = true → w.ofs.toNat = R.AON.SWRST →
      (w.val = 0x57525354 → Runs (.swrst w) s fun d => warm d 5 ∧ d.rf R.AON.RCNT 15 0 = if p.rstAt = some c.now then c.rf R.AON.RCNT 15 0 else min 65535 (c.rf R.AON.RCNT 15 0 + 1)) ∧
      (w.val ≠ 0x57525354 → Runs (.swrst w) s fun d => Only c d (keys []) id))

/-- R289, R349, R362, R899 to R904, R906 to R911, R914, R915, R917: the units are tested, an image is authenticated and entered, READY is set; tiles enter NAP and leave it;
the device enters DEEP, is woken, and leaves it.
Details are the model's reading (log entries 34, 35). -/
def Obligations.TheDeviceBootsNapsAndSleeps : Prop :=
  ∀ (s : State) (w : RegWr) (u : BitVec 6) (ok : Bool) (fl : BootFlash) (t : TileId) (by_ : WakeBy),
    let c := s.chip
    let p := c.pwr
    let key := w.ofs.toNat
    let k := t.val
    (c.coreUp = true →
      (u.toNat ∈ p.testing →
        (ok = true → Runs (.selfTestDone u ok) s fun d =>
          d.pwr = { p with testing := p.testing.filter (· != u.toNat) } ∧ Only c d (keys []) fun d => { d with pwr := p }) ∧
        (ok = false → u.toNat < 16 ∨ (20 ≤ u.toNat ∧ u.toNat < 32) → Runs (.selfTestDone u ok) s fun d =>
          d.surv u.toNat = false ∧ (∀ i, i ≠ u.toNat → d.surv i = c.surv i) ∧ Within c d (keys [R.DEV.SURV]) fun d => { d with pwr := p }) ∧
        (ok = false → u.toNat = 63 → Runs (.selfTestDone u ok) s fun d =>
          d.coreUp = false ∧ d.pwr.ccBad = true ∧ d.rf R.AON.BOOTST 2 0 = 4 ∧ d.rf R.AON.BOOTST 7 4 = 8 ∧ d.rb R.AON.FSRC 3 = true ∧ d.rf R.DEV.FLOOR 15 12 = 1)) ∧
      ((c.rf R.AON.BOOTST 2 0 = 1 ∨ c.rf R.AON.BOOTST 2 0 = 2) → p.authed = none → c.ecc = [] →
        (let stops (d : Chip) (why : Nat) : Prop :=
           d.rf R.AON.BOOTST 2 0 = 4 ∧ d.rf R.AON.BOOTST 7 4 = why ∧ d.rb R.AON.FSRC 3 = true ∧ d.mem = c.mem ∧ d.pwr.authed = none ∧ d.cores = c.cores
         let b := fl.a
         let cand := b.magic = true ∧ c.fuse.minSvn ≤ b.svn.toNat ∧ p.tried = [] ∧ fl.b.magic = false
         (fl.sfdp = false → Runs (.imageAuthenticated fl) s fun d => stops d 1) ∧
         (fl.sfdp = true → fl.a.magic = false → fl.b.magic = false → Runs (.imageAuthenticated fl) s fun d => stops d 2) ∧
         (fl.sfdp = true → cand → b.keyOk = true → b.sigOk = true → b.hashOk = true → 0 < b.len.toNat → b.len.toNat ≤ 1835008 → b.entry.toNat % 8 = 0 →
          b.entry.toNat < b.len.toNat → b.image.length = b.len.toNat → Runs (.imageAuthenticated fl) s fun d =>
            d.pwr = { p with authed := some b.entry.toNat } ∧ c.Stored d .ccMem 0 b.image ∧ d.rf R.AON.BOOTST 9 8 = 1 ∧ d.rf R.AON.BOOTST 2 0 = 2 ∧
            Only c d (keys [R.AON.BOOTST]) fun d => { d with pwr := p, mem := c.mem }) ∧
         (fl.sfdp = true → cand → b.keyOk = true → b.sigOk = false → Runs (.imageAuthenticated fl) s fun d => stops d 4))) ∧
      (∀ e, c.awake = true → p.authed = some e → c.rf R.AON.BOOTST 2 0 = 2 → p.testing = [] → c.cores.length = 17 → Runs .imageEntry s fun d =>
        (d.core 16).pc = BitVec.ofNat 48 e ∧ (d.core 16).priv = true ∧ ((c.core 16).run ≠ .halted → (d.core 16).run = .run) ∧ (∀ j, j ≠ 16 → d.core j = c.core j) ∧
        d.rf R.AON.BOOTST 2 0 = 3 ∧ d.pwr = { p with authed := none } ∧ Only c d (keys [R.AON.BOOTST]) fun d => { d with pwr := p, cores := c.cores })) ∧
    (c.takes w = true →
      (key = R.AON.BOOTST → bit w.val 16 = true → Runs (.readySet w) s fun d =>
        d.rb key 16 = true ∧ (∀ i, i ≠ 16 → i < 32 → d.rb key i = c.rb key i) ∧ Within c d (keys [key]) id) ∧
      (key = R.PWM.TNAP → c.rwlOk w.who 0x009 = true → c.cores.length = 17 → c.ary.length = 16 →
        (w.val = BitVec.ofNat 32 (2 ^ k) → c.r R.PWM.TNAP = 0 → c.napped k = false →
          (c.napBad k = false → Runs (.napRequest w) s fun d =>
            d.rb R.PWM.TNAP k = true ∧ d.napped k = true ∧ d.rf (R.TILE.VSTAT k) 1 0 = 3 ∧ (d.core k).run = (c.core k).run ∧ (d.core k).pc = (c.core k).pc ∧
            (∀ j, j ≠ k → d.core j = c.core j ∧ (j < 16 → d.napped j = c.napped j)) ∧
            Within c d (keys [R.PWM.TNAP, R.PWM.TPWR, R.TILE.VSTAT k]) fun d => { d with cores := c.cores, ary := c.ary }) ∧
          (c.napBad k = true → Runs (.napRequest w) s fun d =>
            d.rb R.PWM.TNREF k = true ∧ d.r R.PWM.TNAP = 0 ∧ Within c d (keys [R.PWM.TNREF]) id)) ∧
        (w.val = 0 → c.r R.PWM.TNAP = BitVec.ofNat 32 (2 ^ k) → c.napped k = true → c.rb R.PWM.TPWR (16 + k) = false → Runs (.napExitRequest w) s fun d =>
          d.r R.PWM.TNAP = 0 ∧ d.rb R.PWM.TPWR (16 + k) = true ∧ d.pwr = { p with napExit := p.napExit ++ [(k, c.now + us 20)] } ∧
          Only c d (keys [R.PWM.TNAP, R.PWM.TPWR]) fun d => { d with pwr := p })) ∧
      (key = R.PWM.DEEPC → bit w.val 0 = true →
        (c.deepWhy = 0 → Runs (.deepRequest w) s fun d => d.pwr.deep = 1 ∧ (∀ g, g < 8 → d.rb (R.ING.GCFG g) 0 = false) ∧
          (∀ j, j < 8 → (c.kstate j = 2 → d.kstate j = 2) ∧ (c.kstate j = 0 → c.tilesOf j ≠ [] → d.kstate j = 1))) ∧
        (c.deepWhy ≠ 0 → Runs (.deepRequest w) s fun d => d.rf R.PWM.DEEPC 7 4 = c.deepWhy ∧ d.pwr = p ∧ Within c d (keys [key]) id))) ∧
    (∀ due, c.awake = true → p.napExit = [(k, due)] → c.rb R.PWM.TNAP k = false → c.rb (R.TILE.CCTL k) 1 = false → c.cores.length = 17 → Runs (.napExitDone t) s fun d =>
      due ≤ d.now ∧ d.napped k = false ∧ d.rb R.PWM.TPWR (16 + k) = false ∧ d.rf (R.TILE.VSTAT k) 1 0 = 2 ∧ d.pwr.napExit = [] ∧
      ((c.core k).run = .waitt → (c.core k).relPend = true → (d.core k).run = .run ∧ (d.core k).relPend = false) ∧
      ((c.core k).run ≠ .waitt ∨ (c.core k).relPend = false → d.core k = c.core k) ∧ (∀ j, j ≠ k → d.core j = c.core j) ∧
      Within c d (keys [R.PWM.TPWR, R.TILE.VSTAT k]) fun d => { d with pwr := p, cores := c.cores }) ∧
    (c.coreUp = true → c.deepReady = true → c.vxl.length = 4 → c.casc.sent = [] → Runs .deepEntryDone s fun d =>
      d.pwr.deep = (if p.wakeHeld then 3 else 2) ∧ d.pwr.deepAt = c.now ∧ d.pwr.wakeHeld = false ∧ (∀ q, q < c.vxls → d.vst q = 0) ∧
      (∀ q, q < c.stackCnt → c.rf (R.HBM.STAT q) 2 0 = 2 → d.rf (R.HBM.STAT q) 2 0 = 3) ∧ (c.hasCust = false → d.mem = c.mem ∧ d.cores = c.cores)) ∧
    ((p.deep = 1 → by_ = .smb ∨ (by_ = .enc ∧ c.rb R.AON.WAKE 1 = true) → Runs (.deepWake by_) s fun d =>
        d.pwr = { p with wakeHeld := true } ∧ Only c d (keys []) fun d => { d with pwr := p }) ∧
      (p.deep = 2 → by_ = .smb ∨ (by_ = .enc ∧ c.rb R.AON.WAKE 1 = true) ∨ (by_ = .timer ∧ c.rb R.AON.WAKE 2 = true ∧ c.rf R.AON.WKTMR 23 0 ≠ 0) →
        Runs (.deepWake by_) s fun d => d.pwr = { p with deep := 3 } ∧ (by_ = .timer → p.deepAt + ms (c.rf R.AON.WKTMR 23 0) ≤ d.now) ∧
          Only c d (keys []) fun d => { d with pwr := p })) ∧
    (p.deep = 3 → c.cores.length = 17 → c.coreUp = true → c.noneWaits = true → Runs .deepExitDone s fun d =>
      d.pwr.deep = 0 ∧ (∀ k, k < c.tiles → (d.core k).run = .stopped ∧ (d.core k).pc = 0 ∧ d.rf (R.TILE.PFSTAT k) 1 0 = 0) ∧
      (∀ a, (0x1000000000 ≤ a ∧ a < 0x1000000000 + 0x800000 * c.tiles ∨ 0x2000000000 ≤ a ∧ a < 0x2001800000) → d.mem.byte a = 0) ∧
      (∀ a, (a < 0x200000 ∨ 0x3000000000 ≤ a) → d.mem.byte a = c.mem.byte a) ∧
      (∀ q, q < c.vxls → c.vxlEn q = true → d.vst q = 1) ∧ (∀ k, k < 8 → c.kstate k = 2 → c.rb (R.KMAP.KCTL k) 0 = false → d.kstate k = 0))

/-- R887, R920, R922 to R924, R926, R927, R929 to R933, R936 to R939: a service in its window restarts a watchdog, one out of it counts as an expiry; expiries leave evidence, raise
the NMI, then a kennel fault or a warm reset; the system watchdog pulses WDO_N and resets; and their registers take legal values.
Details are the model's reading (log entry 36). -/
def Obligations.WatchdogsAreServedAndExpire : Prop :=
  ∀ (s : State) (w : RegWr) (ch : CoreId) (t : TileId),
    let c := s.chip
    let i := ch.val
    let key := w.ofs.toNat
    let x := nth {} c.wdt i
    let sys := nth {} c.wdt 17
    let evid (d : Chip) (j code : Nat) : Prop :=
      d.rf (R.SWD.ECODE j) 15 0 = code ∧ d.rf (R.SWD.ECODE j) 31 16 = min 65535 (c.rf (R.SWD.ECODE j) 31 16 + 1) ∧
      d.r64 (R.SWD.EPC_LO j) = (if c.coreUp && c.pwr.deep != 2 then (c.core (min j 16)).pc.toNat else 2 ^ 48 - 1)
    let bark (d : Chip) (code : Nat) : Prop :=
      evid d i code ∧ d.r64 (R.SWD.EEXP_LO i) = d.gtime ∧ d.rf (R.WDT.WEXP i) 15 0 = min 65535 (c.rf (R.WDT.WEXP i) 15 0 + 1) ∧
      d.core i = { c.core i with nmi := (c.core i).nmi || !(c.core i).nxl } ∧ (∀ j, j ≠ i → d.core j = c.core j) ∧
      (nth {} d.wdt i).bark = true ∧ (nth {} d.wdt i).acc = 0 ∧ (nth {} d.wdt i).at_ = d.now ∧
      Within c d (keys [R.SWD.ECODE i, R.SWD.EPC_LO i, R.SWD.EPC_LO i + 4, R.SWD.EEXP_LO i, R.SWD.EEXP_LO i + 4, R.WDT.WEXP i]) fun d => { d with cores := c.cores }
    let served (d : Chip) (j : Nat) : Prop :=
      (nth {} d.wdt j).bark = false ∧ (nth {} d.wdt j).acc = 0 ∧ (nth {} d.wdt j).at_ = d.now ∧ (nth {} d.wdt j).period = c.wdtPer j ∧
      (∀ l, l ≠ j → (nth {} d.wdt l).bark = (nth {} c.wdt l).bark ∧ (nth {} d.wdt l).running = (nth {} c.wdt l).running) ∧
      d.r64 (R.SWD.ESVC_LO j) = c.gtime
    let reset (d : Chip) (cause : Nat) : Prop := d.coreUp = false ∧ d.rb R.AON.RCAUSE cause = true ∧ (∀ k, k < 17 → (d.core k).run = .stopped)
    c.wdt.length = 18 → c.cores.length = 17 →
    (c.canSend w.who = true → c.noneWaits = true → c.writeRefusal w.who key false = some (4, 0x0521) → key = R.CC.WSVC → Runs (.wdtService w) s fun d =>
      (∀ l, l < 18 → (nth {} d.wdt l).bark = (nth {} c.wdt l).bark ∧ (nth {} d.wdt l).running = (nth {} c.wdt l).running) ∧
      (w.who = .pf → Within c d (keys []) id)) ∧
    (c.takes w = true →
      ((w.who = .cc ∧ i = 16 ∧ key = R.CC.WSVC ∨ w.who = .tile t ∧ i = t.val ∧ key = R.TILE.WSVC t.val) → x.running = true →
        (fld w.val 31 16 = 0x5744 → (x.bark = true ∨ c.wdtWindow i ≤ c.wdtUnits i) → Runs (.wdtService w) s fun d =>
          served d i ∧ (x.bark = true → d.rf (R.WDT.WEXP i) 31 16 = min 65535 (c.rf (R.WDT.WEXP i) 31 16 + 1)) ∧
          Within c d (keys ([R.SWD.ESVC_LO i, R.SWD.ESVC_LO i + 4] ++ if x.bark then [R.WDT.WEXP i] else [])) id) ∧
        ((fld w.val 31 16 ≠ 0x5744 ∨ c.wdtUnits i < c.wdtWindow i) → x.bark = false → Runs (.wdtService w) s fun d => bark d 0x0904)) ∧
      (w.who = .cc → key = R.SWD.SSVC → sys.running = true →
        (fld w.val 31 16 = 0x5357 → c.wdtWindow 17 ≤ c.wdtUnits 17 → sys.bark = false → Runs (.swdService w) s fun d =>
          served d 17 ∧ Within c d (keys [R.SWD.ESVC_LO 17, R.SWD.ESVC_LO 17 + 4]) id) ∧
        ((fld w.val 31 16 ≠ 0x5357 ∨ c.wdtUnits 17 < c.wdtWindow 17) → Runs (.swdService w) s fun d =>
          reset d 3 ∧ evid d 17 0x0904 ∧ d.rf R.SWD.SEXP 31 16 = min 65535 (c.rf R.SWD.SEXP 31 16 + 1))) ∧
      (key = R.SWD.SCFG → bit w.val 0 = true → c.rwlOk w.who 2 = true →
        (10 ≤ fld w.val 31 16 → fld w.val 31 16 ≤ 60000 → Runs (.swdEnable w) s fun d =>
          d.rb key 0 = true ∧ d.rf key 31 16 = fld w.val 31 16 ∧ (nth {} d.wdt 17).running = true ∧ (sys.running = false → (nth {} d.wdt 17).period = fld w.val 31 16) ∧
          Within c d (keys [key]) id) ∧
        ((fld w.val 31 16 < 10 ∨ 60000 < fld w.val 31 16) → sys.running = c.rb key 0 → Runs (.swdEnable w) s fun d =>
          d.r key = c.r key ∧ d.rb (R.H.PIRQS 2) 31 = true ∧ Within c d (keys []) id)) ∧
      (c.rwlOk w.who 5 = true → (i < c.tiles ∨ i = 16) →
        (key = R.WDT.WPER i →
          (fld w.val 23 0 ≠ 0 → Runs (.watchdogConfigWrite w) s fun d =>
            d.rf key 23 0 = fld w.val 23 0 ∧ (nth {} d.wdt i).period = (if x.running then x.period else fld w.val 23 0) ∧ Within c d (keys [key]) id) ∧
          (fld w.val 23 0 = 0 → Runs (.watchdogConfigWrite w) s fun d =>
            d.r key = c.r key ∧ d.rb (R.H.PIRQS 5) 31 = true ∧ Within c d (keys []) id)) ∧
        (key = R.WDT.WCTL i → Runs (.watchdogConfigWrite w) s fun d =>
          d.rb key 0 = bit w.val 0 ∧ (nth {} d.wdt i).running = bit w.val 0 ∧ Within c d (keys [key]) id))) ∧
    (c.awake = true → x.running = true → x.paused = false →
      (x.bark = false → Runs (.wdtExpiry ch) s fun d => bark d 0x0901 ∧ c.now + (cyc (1024 * x.period) - c.wdtTime i) ≤ d.now) ∧
      (x.bark = true → i = 16 → Runs (.wdtHardTimerExpiry ch) s fun d =>
        reset d 4 ∧ d.rf (R.SWD.ECODE 16) 15 0 = 0x0903 ∧ c.now + (ms (c.fuse.whard.toNat + 1) - c.wdtTime i) ≤ d.now) ∧
      (x.bark = true → i < 16 → c.noneWaits = true → Runs (.wdtHardTimerExpiry ch) s fun d =>
        d.rf (R.SWD.ECODE i) 15 0 = 0x0902 ∧ d.rb (R.KMAP.KSTAT (c.owner i)) 3 = true ∧ (nth {} d.wdt i).bark = false ∧ d.mem = c.mem ∧
        (c.rb (R.KMAP.KSTAT (c.owner i)) 3 = false → d.rf (R.KMAP.KSTAT (c.owner i)) 31 16 = 0x0902))) ∧
    (sys.running = true → sys.paused = false → c.pwr.porDone = true → Runs .swdExpiry s fun d =>
      evid d 17 0x0905 ∧ c.now + (ms sys.period - c.wdtTime 17) ≤ d.now ∧ d.rf R.SWD.SEXP 15 0 = min 65535 (c.rf R.SWD.SEXP 15 0 + 1) ∧
      d.pwr.wdoEnd = some (d.now + ms (if c.fuse.spw = 0 then 1 else if c.fuse.spw = 1 then 10 else 100)) ∧ d.coreUp = false ∧ d.rb R.AON.RCAUSE 3 = true ∧
      (c.coreUp = true → d.pwr.swdHold = true)) ∧
    (∀ e, c.pwr.wdoEnd = some e → Runs .wdoPulseEnd s fun d =>
      d.pwr.wdoEnd = none ∧ e ≤ d.now ∧ d.pwr.swdHold = false ∧ (c.pwr.swdHold = true → d.pwr.relAt = d.now) ∧ Only c d (keys []) fun d => { d with pwr := c.pwr })

/-- R947 to R951, R953 to R958, R960, R969, R972: the test access port selects and shifts its registers; a token grants the debug and test rights; with them cores are halted,
met at breakpoints, stepped, inspected and resumed, and test mode is entered.
Details are the model's reading (log entry 37). -/
def Obligations.TheDebugUnitUnlocksHaltsAndInspects : Prop :=
  ∀ (s : State) (w : RegWr) (k : CoreId) (addr : BitVec 48) (data : BitVec 32) (keyOk sigOk : Bool),
    let c := s.chip
    let n := k.val
    let key := w.ofs.toNat
    let g := c.dbg
    let tdo (d : Chip) (ir len v : Nat) : Prop :=
      d.out = .tdo ir len v :: c.out ∧ d.dbg = (if c.pwr.porDone then { g with ir := BitVec.ofNat 8 ir } else g) ∧ Only c d (keys []) fun d => { d with dbg := g, out := c.out }
    let who : BitVec 32 := BitVec.ofNat 32 (2 ^ n)
    let x := c.core n
    Runs .idcode s (fun d => tdo d 0x02 32 (1 + 0x4D3 * 2 + c.fuse.part.toNat * 2 ^ 12 + (if c.fuse.rev = 0xB0 then 2 ^ 28 else 0))) ∧
    Runs .dapstat s (fun d => tdo d 0x09 8 (b2n g.dapBusy + 2 * b2n (c.rb R.DBG.DSTAT 3) + 4 * b2n (c.rb R.DBG.DSTAT 0) + 8 * b2n (c.rb R.DBG.DSTAT 2) +
      16 * b2n (c.r R.DBG.HSTAT != 0))) ∧
    Runs .bypass s (fun d => tdo d 0xFF 1 0) ∧
    Runs .tapReset s (fun d => d.dbg = { g with ir := 0x02 } ∧ Only c d (keys []) fun d => { d with dbg := g }) ∧
    (c.pwr.porDone = true →
      Runs .samplePreload s (fun d => d.dbg = { g with ir := 0x01 } ∧ Only c d (keys []) fun d => { d with dbg := g }) ∧
      (c.coreUp = false → Runs .extest s fun d => d.dbg = { g with ir := 0x00 } ∧ Only c d (keys []) fun d => { d with dbg := g }) ∧
      (c.coreUp = true → Runs .extest s fun d => d.rb R.DBG.DSTAT 3 = true ∧ d.dbg = { g with ir := 0xFF } ∧ Only c d (keys [R.DBG.DSTAT]) fun d => { d with dbg := g }) ∧
      (g.dapBusy = true → c.noneWaits = true → Runs (.dapacc addr true data) s fun d =>
        d.rb R.DBG.DSTAT 3 = true ∧ d.out = .tdo 0x08 81 g.dapData.toNat :: c.out ∧ Only c d (keys [R.DBG.DSTAT]) fun d => { d with dbg := { d.dbg with ir := g.ir }, out := c.out }) ∧
      (g.dapBusy = false → c.calm = true → c.rb R.DBG.DSTAT 0 = true → c.plainCc addr.toNat 4 = true → addr.toNat % 4 = 0 →
        (Runs (.dapacc addr true data) s fun d =>
          c.Stored d .ccMem addr.toNat (bytesLE 4 data.toNat) ∧ d.out = .tdo 0x08 81 g.dapData.toNat :: c.out ∧
          Only c d (keys []) fun d => { d with mem := c.mem, out := c.out, dbg := { d.dbg with ir := g.ir }, elg := c.elg }) ∧
        (Runs (.dapacc addr false data) s fun d =>
          d.dbg = { g with ir := 0x08, dapData := BitVec.ofNat 32 (natLE (c.getBytes .ccMem addr.toNat 4)) } ∧ d.out = .tdo 0x08 81 g.dapData.toNat :: c.out ∧
          Only c d (keys []) fun d => { d with out := c.out, dbg := g, elg := c.elg }))) ∧
    (c.awake = true → g.verifying = true → c.rb R.DBG.DCTL 1 = false → c.rb R.DBG.DSTAT 2 = false →
      (c.tokWhy keyOk sigOk = 0 → Runs (.tokenVerifyDone keyOk sigOk) s fun d =>
        d.rf R.DBG.DSTAT 1 0 = c.tokByte 16 ∧ d.rf R.DBG.DSTAT 7 4 = 0 ∧ d.dbg = { g with verifying := false, nonce := d.dbg.nonce } ∧
        Within c d (keys [R.DBG.DSTAT]) fun d => { d with dbg := g, fresh := c.fresh }) ∧
      (c.tokWhy keyOk sigOk ≠ 0 → Runs (.tokenVerifyDone keyOk sigOk) s fun d =>
        d.rf R.DBG.DSTAT 1 0 = c.rf R.DBG.DSTAT 1 0 ∧ d.rf R.DBG.DSTAT 7 4 = c.tokWhy keyOk sigOk ∧ d.dbg = { g with verifying := false, nonce := d.dbg.nonce } ∧
        Within c d (keys [R.DBG.DSTAT]) fun d => { d with dbg := g, fresh := c.fresh })) ∧
    (c.takes w = true →
      (key = R.DBG.TVFY → bit w.val 0 = true → g.verifying = false →
        (c.fuse.dmode ≠ 2 → Runs (.tokenVerify w) s fun d => d.dbg = { g with verifying := true } ∧ Within c d (keys []) fun d => { d with dbg := g }) ∧
        (c.fuse.dmode = 2 → Runs (.tokenVerify w) s fun d => d.rf R.DBG.DSTAT 7 4 = 5 ∧ d.rf R.DBG.DSTAT 1 0 = c.rf R.DBG.DSTAT 1 0 ∧
          Within c d (keys [R.DBG.DSTAT]) fun d => { d with dbg := { d.dbg with nonce := g.nonce }, fresh := c.fresh })) ∧
      (key = R.DBG.DCTL →
        (bit w.val 0 = true → bit w.val 1 = false → c.rb R.DBG.DSTAT 2 = false → g.stepping = [] → (∀ j, j < 17 → (c.core j).run ≠ .halted) → Runs (.dlock w) s fun d =>
          d.rf R.DBG.DSTAT 1 0 = 0 ∧ d.rb key 1 = false ∧ Within c d (keys [key, R.DBG.DSTAT]) id) ∧
        (bit w.val 0 = false → bit w.val 1 = true → c.rb R.DBG.DSTAT 1 = true → Runs (.testModeWrite w) s fun d =>
          d.rb key 1 = true ∧ d.rb R.DBG.DSTAT 2 = true ∧ (c.rb R.DBG.DSTAT 2 = false → d.rb R.TICK.TSTAT 3 = true) ∧
          Within c d (keys [key, R.DBG.DSTAT, R.TICK.TSTAT]) id) ∧
        (bit w.val 0 = false → bit w.val 1 = true → c.rb R.DBG.DSTAT 1 = false → c.rb R.DBG.DSTAT 2 = false → Runs (.testModeWrite w) s fun d =>
          d.rb key 1 = c.rb key 1 ∧ d.rb R.DBG.DSTAT 3 = true ∧ d.rb R.DBG.DSTAT 2 = false ∧ Within c d (keys [key, R.DBG.DSTAT]) id)) ∧
      (c.rb R.DBG.DSTAT 0 = false → (key = R.DBG.HREQ → Runs (.haltRequest w) s fun d => d.rb R.DBG.DSTAT 3 = true ∧ Only c d (keys [R.DBG.DSTAT]) id) ∧
        (key = R.DBG.HRES → Runs (.haltResume w) s fun d => d.rb R.DBG.DSTAT 3 = true ∧ Only c d (keys [R.DBG.DSTAT]) id) ∧
        (key = R.DBG.HSTEP → Runs (.haltStep w) s fun d => d.rb R.DBG.DSTAT 3 = true ∧ Only c d (keys [R.DBG.DSTAT]) id)) ∧
      (c.rb R.DBG.DSTAT 0 = true → w.val = who → c.cores.length = 17 →
        (key = R.DBG.HREQ → x.run ≠ .halted → (n = 16 ∨ c.surv n = true) → g.haltReq = [] → Runs (.haltRequest w) s fun d =>
          d.dbg = { g with haltReq := [(n, 1)] } ∧ d.rb key n = true ∧ Within c d (keys [key]) fun d => { d with dbg := g }) ∧
        (x.run = .halted → x.before = .run → g.stepping = [] → g.frzk = [] → c.coreFrz n = false → x.stopReq = false →
          (key = R.DBG.HRES → Runs (.haltResume w) s fun d =>
            d.core n = { x with run := .run } ∧ (∀ j, j ≠ n → d.core j = c.core j) ∧ d.rb R.DBG.HSTAT n = false ∧ d.rb key n = false ∧
            Within c d (keys [key, R.DBG.HSTAT]) fun d => { d with cores := c.cores }) ∧
          (key = R.DBG.HSTEP → Runs (.haltStep w) s fun d =>
            d.core n = { x with run := .run, bpPast := true } ∧ (∀ j, j ≠ n → d.core j = c.core j) ∧ d.dbg = { g with stepping := [n] } ∧ d.rb R.DBG.HSTAT n = false ∧
            d.rb key n = true ∧ Within c d (keys [key, R.DBG.HSTAT]) fun d => { d with cores := c.cores, dbg := g }))) ∧
      (∀ r, r < 32 → c.rb R.DBG.DSTAT 0 = true → c.cores.length = 17 → key = R.DBG.RDAT → c.r R.DBG.RSEL = BitVec.ofNat 32 (n + 2 ^ 8 * r) → x.run = .halted → x.d.length = 32 →
        (Runs (.debugRegisterAccess w false) s fun d =>
          d.core n = x.setD r (w.val.setWidth 24) ∧ (∀ j, j ≠ n → d.core j = c.core j) ∧ Only c d (keys []) fun d => { d with cores := c.cores }) ∧
        (Runs (.debugRegisterAccess w true) s fun d =>
          d.out = .read w.who key (BitVec.ofNat 32 (x.D r).toNat) :: c.out ∧ Only c d (keys []) fun d => { d with out := c.out }))) ∧
    (c.awake = true → c.cores.length = 17 → c.rb R.DBG.DCTL 2 = false →
      (let halted (d : Chip) (cause : Nat) : Prop :=
         (d.core n).run = .halted ∧ (d.core n).before = x.run ∧ (d.core n).pc = x.pc ∧ (∀ j, j ≠ n → d.core j = c.core j) ∧ d.rb R.DBG.HSTAT n = true ∧
         d.rb R.DBG.HREQ n = false ∧ d.rb R.DBG.HSTEP n = false ∧ d.rf (R.DBG.HCAUSE n) 2 0 = cause ∧ n ∉ d.dbg.stepping ∧ d.haltDue n = none ∧
         Within c d (keys [R.DBG.HSTAT, R.DBG.HREQ, R.DBG.HSTEP, R.DBG.HCAUSE n]) fun d => { d with cores := c.cores, dbg := g }
       (x.run = .waitt → c.haltDue n = some 1 → x.loads = [] → x.takenBr = false → Runs (.coreHalted k) s fun d => halted d 1) ∧
       (x.run = .run → x.bundle = [] → x.loopDue = false → x.loads = [] → x.takenBr = false → x.stopReq = false → c.coreFrz n = false → x.nmi = false → x.busErrs = [] →
        c.irqLine n = none → c.bpHit n = true → c.haltDue n = none → Runs (.breakpointHit k) s fun d => halted d 2)))

/-- R961 to R964, R966, R967, R970, R982 to R986, R989, R994, R996, R997, R1001, R1010, R1049 to R1051: trace packets reach the trace area and units are configured; the AON event ring
and the error log are filled and read; the service floor is assessed; the boot ROM takes a firmware update; the behaviour level is set; SMBus reaches registers.
Details are the model's reading (log entries 38, 39, 14). -/
def Obligations.TraceErrorsFloorUpdateAndSmbus : Prop :=
  ∀ (s : State) (w : RegWr) (x : RegRd) (u : Fin 18) (keyOk sigOk hashOk flashOk : Bool) (cmd count : BitVec 8) (ofs : BitVec 24) (data : BitVec 32),
    let c := s.chip
    let n := u.val
    let key := w.ofs.toNat
    let t := nth {} c.trace n
    let on_ := c.rb (R.TRC.TST n) 1 = true
    (c.awake = true → c.trace.length = 18 →
      (∀ pk rest, t.fifo = pk :: rest → t.closing = false → c.rb (R.TRC.TST n) 0 = false →
        (let wp := (c.r (R.TRC.TWP n)).toNat
         let room := c.rf (R.TRC.TCFG n) 24 16 * 256
         let a (i : Nat) := 0x40000000 + c.rf (R.TRC.TCFG n) 12 4 * 0x1000 + 16 * (i % max 1 room)
         (t.lost = 0 → Runs (.tracePacketWrite u) s fun d =>
          nth {} d.trace n = { t with fifo := rest } ∧ d.r (R.TRC.TWP n) = c.r (R.TRC.TWP n) + 1 ∧ d.mem.bytes (a wp) 16 = pk.bytes ∧
          (∀ q, (q < a wp ∨ a wp + 16 ≤ q) → d.mem.byte q = c.mem.byte q) ∧
          d.rb (R.TRC.TST n) 0 = (c.rb (R.TRC.TCFG n) 2 && decide (wp + 1 = room)) ∧
          Only c d (keys [R.TRC.TWP n, R.TRC.TST n]) fun d => { d with mem := c.mem, trace := c.trace }) ∧
         (t.lost ≠ 0 → c.rb (R.TRC.TCFG n) 2 = false → wp + 3 < 2 ^ 32 → 3 ≤ room → Runs (.tracePacketWrite u) s fun d =>
          nth {} d.trace n = { t with fifo := rest, lost := 0, syncAt := c.now } ∧ (d.r (R.TRC.TWP n)).toNat = wp + 3 ∧
          (d.mem.byte (a wp) = 0x0B) ∧ d.mem.byte (a (wp + 1)) = 0x01 ∧ d.mem.bytes (a (wp + 2)) 16 = pk.bytes ∧
          Only c d (keys [R.TRC.TWP n]) fun d => { d with mem := c.mem, trace := c.trace }))) ∧
      (on_ → t.sleepG = none → t.closing = false → c.rb (R.TRC.TST n) 0 = false → t.fifo.length < 30 → Runs (.traceSyncTimer u) s fun d =>
        nth {} d.trace n = { t with syncAt := d.now, fifo := t.fifo ++ [⟨1, n, if n < 16 then c.owner n else 0, if n < 17 then (c.core n).pc.toNat else 0,
          d.gtime / 2 ^ 32 % 2 ^ 32, d.gtime % 2 ^ 32⟩] } ∧ t.syncAt + us (c.rf R.TRC.SYNCP 15 0) ≤ d.now ∧
        Only c d (keys []) fun d => { d with trace := c.trace })) ∧
    (c.takes w = true → c.trace.length = 18 →
      (key = R.TRC.TMARK n → (c.req w.who).ken = 0 → on_ → t.sleepG = none → t.closing = false → c.rb (R.TRC.TST n) 0 = false → t.fifo.length < 30 →
        Runs (.traceMark w) s fun d =>
          nth {} d.trace n = { t with fifo := t.fifo ++ [⟨0x0C, n, if n < 16 then c.owner n else 0, w.val.toNat, 0, c.gtime % 2 ^ 32⟩] } ∧
          Only c d (keys []) fun d => { d with trace := c.trace }) ∧
      (key = R.TRC.TCFG n → c.rwlOk w.who 7 = true →
        (let mode := fld w.val 1 0
         let size := fld w.val 24 16
         let bad := mode = 3 ∨ size = 0 ∨ 448 < fld w.val 12 4 + size ∨ c.traceMeets n (fld w.val 12 4) size = true
         (mode ≠ 0 → ¬bad → ¬on_ → Runs (.traceConfigWrite w) s fun d =>
          d.rf key 1 0 = mode ∧ d.rf key 24 16 = size ∧ d.rf key 12 4 = fld w.val 12 4 ∧ d.r (R.TRC.TWP n) = 0 ∧ d.r (R.TRC.TST n) = 2 ∧
          (∃ pk : Packet, pk.typ = 1 ∧ nth {} d.trace n = { fifo := [pk], syncAt := c.now }) ∧
          Within c d (keys [key, R.TRC.TWP n, R.TRC.TST n]) id) ∧
         (mode ≠ 0 → bad → Runs (.traceConfigWrite w) s fun d => d.r key = c.r key ∧ d.rb (R.H.PIRQS 7) 31 = true ∧ Within c d (keys []) id) ∧
         (mode = 0 → on_ → Runs (.traceConfigWrite w) s fun d =>
          d.rf key 1 0 = 0 ∧ (t.fifo = [] → d.rb (R.TRC.TST n) 1 = false) ∧ (t.fifo ≠ [] → nth {} d.trace n = { t with closing := true }) ∧
          Within c d (keys [key, R.TRC.TST n]) id))) ∧
      (key = R.AON.FCLR → bit w.val 0 = true → Runs (.faultClear w) s fun d =>
        d.rb R.AON.FSRC 7 = false ∧ (∀ i, i < 32 → i ≠ 7 → d.rb R.AON.FSRC i = c.rb R.AON.FSRC i) ∧ Within c d (keys [R.AON.FSRC]) id) ∧
      (key = R.DEV.BLSEL → c.rwlOk w.who 0 = true →
        (let ok := c.fuse.blsup.getLsbD (fld w.val 3 0) = true ∧ (∀ j, j < c.tiles → (c.core j).run = .stopped) ∧ c.tstate ≠ 1 ∧ c.tstate ≠ 2
         (ok → Runs (.behaviourLevelWrite w) s fun d => d.rf key 3 0 = fld w.val 3 0 ∧ Within c d (keys [key]) id) ∧
         (¬ok → Runs (.behaviourLevelWrite w) s fun d => d.r key = c.r key ∧ d.rb (R.H.PIRQS 0) 31 = true ∧ Within c d (keys []) id)))) ∧
    (∀ e rest, c.pwr.porDone = true → c.ev.queue = e :: rest → Runs .eventRingWrite s fun d =>
      d.ev.queue = rest ∧ d.ev.ring.find? (fun y => y.1 == (c.r R.AON.EVWP).toNat % 256) = some ((c.r R.AON.EVWP).toNat % 256, e) ∧
      d.r R.AON.EVWP = c.r R.AON.EVWP + 1 ∧ Only c d (keys [R.AON.EVWP]) fun d => { d with ev := c.ev }) ∧
    (c.gives x = true →
      (∀ i e, x.ofs.toNat = R.AON.EVD0 → c.ev.ring.find? (fun y => y.1 == c.rf R.AON.EVRIX 7 0) = some (i, e) → c.pagePwr 1 = 0 → Runs (.eventRingRead x) s fun d =>
        (let word (j : Nat) : BitVec 32 := BitVec.ofNat 32 (natLE ((e.bytes.drop (4 * j)).take 4))
         d.out = .read x.who x.ofs.toNat (word 0) :: c.out ∧ d.r R.AON.EVD0 = word 0 ∧ d.r R.AON.EVD1 = word 1 ∧ d.r R.AON.EVD2 = word 2 ∧ d.r R.AON.EVD3 = word 3) ∧
        Only c d (keys [R.AON.EVD0, R.AON.EVD1, R.AON.EVD2, R.AON.EVD3]) fun d => { d with out := c.out }) ∧
      (∀ e rest, x.ofs.toNat = R.ERR.LD0 → c.err.log = e :: rest → rest.length < 128 → c.pagePwr 6 = 0 → c.inSrst 6 = false → Runs (.errLogRead x) s fun d =>
        d.out = .read x.who x.ofs.toNat (c.peek R.ERR.LD0) :: c.out ∧ d.err = { c.err with log := rest } ∧ d.rf R.ERR.ESTAT 6 0 = rest.length ∧
        Only c d (keys [R.ERR.ESTAT]) fun d => { d with err := c.err, out := c.out })) ∧
    (∀ e rest, c.awake = true → c.err.open_ = e :: rest → c.err.log.length < 64 → c.netEv = [] → c.egr.evs = [] → bit (c.r (R.ERR.CRTE (e.code / 0x100 - 1))) 2 = false →
      Runs .errEntryClose s fun d =>
        d.err = { open_ := rest, log := c.err.log ++ [e] } ∧ e.at_ + us (c.rf R.ERR.ECTL 13 0) ≤ d.now ∧ d.rf R.ERR.ESTAT 6 0 = c.err.log.length + 1 ∧
        (bit (c.r (R.ERR.CRTE (e.code / 0x100 - 1))) 0 = true → d.rb (R.H.PIRQS 6) 0 = true) ∧
        (bit (c.r (R.ERR.CRTE (e.code / 0x100 - 1))) 3 = true → d.rb R.AON.FSRC 7 = true) ∧ Within c d (keys []) id) ∧
    (c.awake = true → c.rb R.DEV.FLOOR 8 = false → c.stacksSettled = true → Runs .floorAssessment s fun d =>
      d.rb R.DEV.FLOOR 8 = true ∧
      (let one := (∃ i, i < 16 ∧ c.surv i = true) ∧ c.surv 29 = true
       let two := (∃ i, 16 ≤ i ∧ i < 20 ∧ c.surv i = true) ∧ c.surv 28 = true ∧ (∃ i, 20 ≤ i ∧ i < 28 ∧ c.surv i = true) ∧ (∃ i, i < 16 ∧ c.survx i = true) ∧
         (c.surv 30 = true ∨ (∃ i, (16 ≤ i ∧ i < 20 ∨ 20 ≤ i ∧ i < 22) ∧ c.survx i = true))
       (one → two → d.rf R.DEV.FLOOR 1 0 = 2 ∧ d.rf R.DEV.FLOOR 15 12 = 0 ∧ Only c d (keys [R.DEV.FLOOR]) id) ∧
       (one → ¬two → d.rf R.DEV.FLOOR 1 0 = 1 ∧ d.rf R.DEV.FLOOR 15 12 ≠ 0 ∧ d.rb R.AON.FSRC 7 = true) ∧
       (¬one → d.rf R.DEV.FLOOR 1 0 = 0 ∧ d.rf R.DEV.FLOOR 15 12 ≠ 0 ∧ d.rb R.AON.FSRC 7 = true)) ∧ Within c d (keys [R.DEV.FLOOR]) id) ∧
    (c.awake = true → c.ecc = [] →
      (let word (a m : Nat) := natLE (c.getBytes .ccMem a m)
       let status (d : Chip) (v : Nat) : Prop := d.getBytes .ccMem 0x3FDF8 4 = bytesLE 4 v
       (c.rf R.AON.BOOTST 2 0 = 4 → c.pwr.updating = false → word 0x3FDF0 4 = 0x55504454 → Runs .firmwareUpdatePoll s fun d =>
        d.getBytes .ccMem 0x3FDF0 4 = [0, 0, 0, 0] ∧ (∀ a, (a < 0x3FDF0 ∨ 0x3FDFC ≤ a) → d.mem.byte a = c.mem.byte a) ∧
        (if c.surv 30 = true ∧ c.rb R.PCI.PLSTAT 8 = true then status d 1 ∧ d.pwr = { c.pwr with updating := true } else status d 3 ∧ d.pwr = c.pwr) ∧
        Only c d (keys []) fun d => { d with mem := c.mem, pwr := c.pwr }) ∧
       (c.pwr.updating = true →
        (let slot := word 0x3FDF4 1
         let head := word 0x3FE00 4 = 0x42565A55 ∧ word 0x3FE04 1 = 1 ∧ c.fuse.minSvn ≤ word 0x3FE08 4
         let len := word 0x3FE0C 4
         let legal := 0 < len ∧ len ≤ 1835008 ∧ word 0x3FE10 6 % 8 = 0 ∧ word 0x3FE10 6 < len
         (slot ≠ 1 → slot ≠ 2 → Runs (.firmwareUpdate keyOk sigOk hashOk flashOk) s fun d => status d 3 ∧ d.pwr = { c.pwr with updating := false } ∧
          Only c d (keys []) fun d => { d with mem := c.mem, pwr := c.pwr }) ∧
         (slot = 1 ∨ slot = 2 → word 0x3FE00 4 ≠ 0x42565A55 → Runs (.firmwareUpdate keyOk sigOk hashOk flashOk) s fun d => status d 0x203) ∧
         (slot = 1 ∨ slot = 2 → head → keyOk = false → Runs (.firmwareUpdate keyOk sigOk hashOk flashOk) s fun d => status d 0x303) ∧
         (slot = 1 ∨ slot = 2 → head → keyOk = true → sigOk = true → hashOk = true → legal →
          (flashOk = false → Runs (.firmwareUpdate keyOk sigOk hashOk flashOk) s fun d => status d 4 ∧ d.coreUp = true) ∧
          (flashOk = true → c.pwr.porDone = true → Runs (.firmwareUpdate keyOk sigOk hashOk flashOk) s fun d =>
            status d 2 ∧ .flash slot (c.getBytes .ccMem 0x3FE00 (512 + len)) ∈ d.out ∧ d.coreUp = false ∧ d.rb R.AON.RCAUSE 5 = true))))) ) ∧
    (c.pwr.porDone = true →
      (cmd ≠ 0x10 → cmd ≠ 0x11 → Runs (.smbusWrite cmd count ofs data false) s fun d =>
        d.rf R.AON.SMBST 15 0 = 0x0521 ∧ d.out = .smbus false 0 :: c.out ∧ Only c d (keys [R.AON.SMBST]) fun d => { d with out := c.out }) ∧
      (Runs (.smbusWrite 0x10 7 ofs data true) s fun d => d.rb R.AON.SMBST 16 = true ∧ d.out = .smbus false 0 :: c.out ∧
        Only c d (keys [R.AON.SMBST]) fun d => { d with out := c.out }) ∧
      (∀ row, let k := ofs.toNat
        rowOf k = some row → 0x040 ≤ k % 0x1000 →
        (k / 0x1000 = 1 → [0x1050, 0x1054, 0x1058, 0x105C, 0x10A0].contains k = false →
          c.takes { who := .smbus, ofs := ofs, val := data } = true → row.w1c = 0 → row.w1s = 0 → row.rwl = 0 →
          Runs (.smbusWrite 0x10 7 ofs data false) s fun d =>
            (∀ j, j < 32 → bit (d.r k) j = if row.rw.testBit j then bit data j else bit (c.r k) j) ∧ .smbus true data ∈ d.out ∧ Within c d (keys [k]) id) ∧
        (∀ kind i, pageOf (k / 0x1000) = some (kind, i) → [PageKind.aon, .err, .dbg, .drn, .tile, .eth].contains kind = false →
          Chip.loHi kind i (k % 0x1000) = none → c.gives { who := .smbus, ofs := ofs } = true → c.slotEmpty (k / 0x1000) = false →
          c.pagePwr (k / 0x1000) = 0 → c.inSrst (k / 0x1000) = false → row.rc = 0 →
          Runs (.smbusRead 0x11 3 ofs) s fun d => d.out = .smbus true (c.peek k) :: c.out ∧ Only c d (keys []) fun d => { d with out := c.out }))) ∧
    Runs .smbusTimeout s (fun d => Only c d (keys []) id)

/-- R335 to R343: the customer port trains, sends a tile's commands with their TAGs, performs the chiplet's reads and writes under a live TAG, completes or ends the commands,
returns credits, and goes down.
Details are the model's reading (log entry 41). -/
def Obligations.TheCustomerPortCarriesCommandsAndAccesses : Prop :=
  ∀ (s : State) (w : RegWr) (t : TileId) (tag : BitVec 16) (addr : BitVec 48) (len : Fin 257) (data : List (BitVec 8)) (cr : BitVec 8) (code retry : BitVec 16)
    (ndat : BitVec 8) (rate : BitVec 2) (q : CustCmd) (fn da db ctx an : Nat) (ntf rcf : Bool) (arg : List (BitVec 8)),
    let c := s.chip
    let k := t.val
    let key := w.ofs.toNat
    let p := c.cport
    let quiet := (∀ j, j < 17 → (c.core j).held = false) ∧ c.cust.length = 16 ∧ (∀ j, j < 16 → (c.custSt j).ntf = [] ∧ (j ≠ k → (c.custSt j).queue = []))
    let free := quiet ∧ p.outq = [] ∧ p.inq = []
    let one (sent : Bool) := (c.custSt k).queue = [q] ∧ q.a = .cxcmd fn da db ntf rcf ctx an arg ∧ q.sent = sent ∧ (c.custSt k).cnt < 256
    let show_ := keys [R.TILE.CXST k, R.CC.CPST]
    let live := one true ∧ q.tag = tag.toNat ∧ tag.toNat / 256 = k
    let a := addr.toNat
    let reach (m : Nat) (wr : Bool) : Prop :=
      c.regionOf a m = .hbm ∧ c.ownWindow a m = a ∧ c.fence (c.owner k) .hbm a m wr = none ∧ c.unavailable .hbm a m = none ∧ c.ecc = []
    c.awake = true →
    (c.custUp = true → free →
      (one false → 1 ≤ p.tx → (let tg := k * 256 + (c.custSt k).cnt
        Runs (.customerCmdSend t) s fun d =>
          d.custSt k = { (c.custSt k) with cnt := ((c.custSt k).cnt + 1) % 256, queue := [{ q with sent := true, tag := tg }] } ∧
          d.out = .cust 1 tg 0 ([1, BitVec.ofNat 8 (k + q.ken * 16)] ++ bytesLE 2 tg ++ [0, BitVec.ofNat 8 fn, BitVec.ofNat 8 (min 64 p.owed), 0] ++ bytesLE 6 0 ++ bytesLE 2 0 ++
            bytesLE 2 0 ++ bytesLE 3 da ++ bytesLE 3 db ++ Chip.padZ 40 (arg.take 40)) :: c.out ∧
          d.cport = { p with owed := p.owed - min 64 p.owed, tx := p.tx - 1 } ∧ d.rf (R.TILE.CXST k) 3 0 = 0 ∧ d.rf R.CC.CPST 15 8 = 1 ∧
          Only c d show_ fun d => { d with cust := c.cust, cport := p, elg := c.elg, out := c.out })) ∧
      (live → 0 < len.val → reach len.val false → 1 + (len.val + 63) / 64 ≤ p.tx + cr.toNat → Runs (.customerRd tag addr len cr) s fun d =>
        (∃ hd, .cust 5 tag.toNat 0 (hd ++ Chip.padZ (64 * ((len.val + 63) / 64)) (c.getBytes .hbm a len.val)) ∈ d.out) ∧ d.mem = c.mem ∧ d.custSt k = c.custSt k ∧
        d.cport.tx = p.tx + cr.toNat - (1 + (len.val + 63) / 64) ∧ Within c d (keys []) fun d => { d with cport := p, elg := c.elg }) ∧
      (live → 0 < data.length → data.length ≤ 256 → reach data.length true → 1 ≤ p.tx + cr.toNat → Runs (.customerWr tag addr data cr) s fun d =>
        c.Stored d .hbm a data ∧ (∃ bs, .cust 6 tag.toNat 0 bs ∈ d.out) ∧ d.custSt k = c.custSt k ∧
        Within c d (keys []) fun d => { d with mem := c.mem, cport := p, elg := c.elg }) ∧
      (live → ntf = false → Runs (.customerDone tag code cr) s fun d =>
        (d.custSt k).queue = [] ∧ d.r (R.TILE.CXDONE k) = c.r (R.TILE.CXDONE k) + 1 ∧
        (if code = 0 then d.r (R.TILE.CXERR k) = c.r (R.TILE.CXERR k) else d.rf (R.TILE.CXERR k) 15 0 = code.toNat) ∧
        d.cport = { p with tx := p.tx + cr.toNat, owed := p.owed + 1 } ∧ d.rf (R.TILE.CXST k) 3 0 = 0 ∧ d.rf R.CC.CPST 15 8 = 0 ∧
        Within c d (keys [R.TILE.CXDONE k, R.TILE.CXERR k, R.TILE.CXST k, R.CC.CPST]) fun d => { d with cust := c.cust, cport := p, elg := c.elg }) ∧
      (Runs (.customerNop cr retry) s fun d =>
        d.cport = { p with tx := p.tx + cr.toNat, owed := p.owed + 1 } ∧ d.rf R.CC.CPERR 15 0 = min 65535 (c.rf R.CC.CPERR 15 0 + retry.toNat) ∧
        Only c d (keys [R.CC.CPERR]) fun d => { d with cport := p, elg := c.elg }) ∧
      (Runs (.customerBadMessage ndat cr) s fun d =>
        d.cport = { p with tx := p.tx + cr.toNat, owed := p.owed + 1 + ndat.toNat } ∧ d.rf R.CC.CPERR 23 16 = min 255 (c.rf R.CC.CPERR 23 16 + 1) ∧
        Within c d (keys [R.CC.CPERR]) fun d => { d with cport := p, elg := c.elg }) ∧
      (one true → c.rb (R.KMAP.KSTAT (c.owner k)) 3 = false → Runs (.customerCmdTimeout t) s fun d =>
        (d.custSt k).queue = [] ∧ q.at_ + us (c.rf R.CC.CPCTL 31 16) ≤ d.now ∧ d.rf (R.TILE.CXERR k) 31 16 = min 65535 (c.rf (R.TILE.CXERR k) 31 16 + 1) ∧
        d.rb (R.KMAP.KSTAT (c.owner k)) 3 = true ∧ d.rf (R.KMAP.KSTAT (c.owner k)) 31 16 = 0x0B53 ∧ d.mem = c.mem) ∧
      (((c.custSt k).queue = [] ∨ one true) → Runs .customerPortDown s fun d =>
        d.rf R.CC.CPST 1 0 = 3 ∧ d.cport = {} ∧ (d.custSt k).queue = [] ∧ d.rf R.CC.CPERR 31 24 = min 255 (c.rf R.CC.CPERR 31 24 + 1) ∧
        Within c d (keys [R.CC.CPST, R.CC.CPERR, R.TILE.CXERR k, R.TILE.CXST k]) fun d => { d with cust := c.cust, cport := p })) ∧
    (c.noneWaits = true → c.hasCust = true → c.rb R.CC.CPCTL 0 = true → (c.rf R.CC.CPST 1 0 = 1 ∨ c.rf R.CC.CPST 1 0 = 3) → Runs (.customerPortUp rate) s fun d =>
      d.custUp = true ∧ d.rf R.CC.CPST 5 4 = rate.toNat ∧ d.cport = { tx := 64 } ∧ Only c d (keys [R.CC.CPST]) fun d => { d with cport := p }) ∧
    (c.takes w = true → key = R.CC.CPCTL →
      (c.hasCust = true → fld w.val 31 16 ≠ 0 → bit w.val 0 = true → c.rb key 0 = false → c.rwlOk w.who 4 = true → Runs (.customerPortEnable w) s fun d =>
        d.rb key 0 = true ∧ d.rf key 31 16 = fld w.val 31 16 ∧ d.rf R.CC.CPST 1 0 = 1 ∧ Within c d (keys [key, R.CC.CPST]) id) ∧
      (c.hasCust = true → fld w.val 31 16 = 0 → Runs (.customerPortEnable w) s fun d =>
        d.r key = c.r key ∧ d.rb (R.H.PIRQS 4) 31 = true ∧ Within c d (keys []) id) ∧
      (c.hasCust = false → Runs (.customerPortEnable w) s fun d => d.r key = c.r key ∧ (w.val ≠ 0 → d.rb (R.H.PSTAT 4) 4 = true) ∧ Within c d (keys []) id))
end

