-- ==== Sys2Proof/Laws/Store.lean ====
section
/-!
SUPPORT. The two sparse stores: what a read gives after a write, and that every operation keeps the canonical form.
-/
namespace Sys2Proof.Machine

/-! ### Keys -/

theorem getKey_insKey {α : Type} (d x : α) (a b : Nat) (l : List (Nat × α)) :
    getKey d (insKey a x l) b = if b = a then x else getKey d l b := by
  induction l with
  | nil => simp [insKey, getKey]
  | cons h r ih =>
    obtain ⟨k, v⟩ := h
    unfold insKey
    split
    · by_cases hb : b = a <;> simp [getKey, hb]
    · split
      · rename_i _ hk; subst hk
        by_cases hb : b = a <;> simp [getKey, hb]
      · rename_i hk
        by_cases hb : b = k
        · simp [getKey, hb, Ne.symm hk]
        · simp [getKey, hb, ih]

theorem getKey_delKey {α : Type} (d : α) (a b : Nat) (l : List (Nat × α)) :
    getKey d (delKey a l) b = if b = a then d else getKey d l b := by
  induction l with
  | nil => simp [delKey, getKey]
  | cons h r ih =>
    obtain ⟨k, v⟩ := h
    unfold delKey
    by_cases hk : a = k
    · subst hk
      rw [if_pos rfl, ih]
      by_cases hb : b = a <;> simp [getKey, hb]
    · rw [if_neg hk]
      by_cases hb : b = k
      · simp [getKey, hb, Ne.symm hk]
      · simp [getKey, hb, ih]

/-- A read of a key after a write of a key. -/
theorem getKey_putKey {α : Type} [DecidableEq α] (d x : α) (a b : Nat) (l : List (Nat × α)) :
    getKey d (putKey d a x l) b = if b = a then x else getKey d l b := by
  unfold putKey
  split
  · rename_i h; subst h; exact getKey_delKey _ _ _ _
  · exact getKey_insKey _ _ _ _ _

/-- A read of another key than the one written, whatever each reads as when it is not listed. -/
theorem getKey_putKey_ne {α : Type} [DecidableEq α] (d d' x : α) (a b : Nat) (l : List (Nat × α)) (h : b ≠ a) :
    getKey d (putKey d' a x l) b = getKey d l b := by
  unfold putKey
  split
  · rw [getKey_delKey, if_neg h]
  · rw [getKey_insKey, if_neg h]

/-! ### Canonical form -/

theorem rising_cons {α : Type} (k : Nat) (v : α) (l : List (Nat × α)) :
    rising ((k, v) :: l) = true ↔ (∀ p ∈ l, k < p.1) ∧ rising l = true := by
  induction l generalizing k v with
  | nil => simp [rising]
  | cons h r ih =>
    obtain ⟨k', v'⟩ := h
    rw [show rising ((k, v) :: (k', v') :: r) = (decide (k < k') && rising ((k', v') :: r)) from rfl]
    rw [Bool.and_eq_true, decide_eq_true_iff, ih]
    constructor
    · rintro ⟨h1, h2, h3⟩
      refine ⟨?_, h2, h3⟩
      intro p hp
      rcases List.mem_cons.1 hp with rfl | hp
      · exact h1
      · exact Nat.lt_trans h1 (h2 p hp)
    · rintro ⟨h1, h2, h3⟩
      exact ⟨h1 _ (List.mem_cons_self ..), h2, h3⟩

theorem mem_insKey {α : Type} {a : Nat} {x : α} {l : List (Nat × α)} {p : Nat × α} (h : p ∈ insKey a x l) :
    p = (a, x) ∨ p ∈ l := by
  induction l with
  | nil => simpa [insKey] using h
  | cons q r ih =>
    obtain ⟨k, v⟩ := q
    unfold insKey at h
    split at h
    · simpa using h
    · split at h
      · rcases List.mem_cons.1 h with h | h
        · exact .inl h
        · exact .inr (List.mem_cons_of_mem _ h)
      · rcases List.mem_cons.1 h with h | h
        · exact .inr (h ▸ List.mem_cons_self ..)
        · rcases ih h with h | h
          · exact .inl h
          · exact .inr (List.mem_cons_of_mem _ h)

theorem mem_delKey {α : Type} {a : Nat} {l : List (Nat × α)} {p : Nat × α} (h : p ∈ delKey a l) : p ∈ l := by
  induction l with
  | nil => simp [delKey] at h
  | cons q r ih =>
    obtain ⟨k, v⟩ := q
    unfold delKey at h
    split at h
    · exact List.mem_cons_of_mem _ (ih h)
    · rcases List.mem_cons.1 h with h | h
      · exact h ▸ List.mem_cons_self ..
      · exact List.mem_cons_of_mem _ (ih h)

theorem rising_insKey {α : Type} (a : Nat) (x : α) (l : List (Nat × α)) (h : rising l = true) :
    rising (insKey a x l) = true := by
  induction l with
  | nil => rfl
  | cons q r ih =>
    obtain ⟨k, v⟩ := q
    obtain ⟨h1, h2⟩ := (rising_cons _ _ _).1 h
    unfold insKey
    split
    · rename_i hk
      refine (rising_cons _ _ _).2 ⟨?_, h⟩
      intro p hp
      rcases List.mem_cons.1 hp with rfl | hp
      · exact hk
      · exact Nat.lt_trans hk (h1 p hp)
    · split
      · rename_i hk; subst hk
        exact (rising_cons _ _ _).2 ⟨h1, h2⟩
      · rename_i hk hk'
        refine (rising_cons _ _ _).2 ⟨?_, ih h2⟩
        intro p hp
        rcases mem_insKey hp with rfl | hp
        · show k < a; omega
        · exact h1 p hp

theorem rising_delKey {α : Type} (a : Nat) (l : List (Nat × α)) (h : rising l = true) : rising (delKey a l) = true := by
  induction l with
  | nil => rfl
  | cons q r ih =>
    obtain ⟨k, v⟩ := q
    obtain ⟨h1, h2⟩ := (rising_cons _ _ _).1 h
    unfold delKey
    split
    · exact ih h2
    · exact (rising_cons _ _ _).2 ⟨fun p hp => h1 p (mem_delKey hp), ih h2⟩

theorem rising_filter {α : Type} (f : Nat × α → Bool) (l : List (Nat × α)) (h : rising l = true) :
    rising (l.filter f) = true := by
  induction l with
  | nil => rfl
  | cons q r ih =>
    obtain ⟨k, v⟩ := q
    obtain ⟨h1, h2⟩ := (rising_cons _ _ _).1 h
    rw [List.filter_cons]
    split
    · exact (rising_cons _ _ _).2 ⟨fun p hp => h1 p ((List.mem_filter.1 hp).1), ih h2⟩
    · exact ih h2

/-- The canonical form of a store with default `d`. -/
theorem putKey_canon {α : Type} [DecidableEq α] (d x : α) (a : Nat) (l : List (Nat × α)) (h : rising l = true)
    (h' : ∀ p ∈ l, p.2 ≠ d) : rising (putKey d a x l) = true ∧ ∀ p ∈ putKey d a x l, p.2 ≠ d := by
  unfold putKey
  split
  · exact ⟨rising_delKey _ _ h, fun p hp => h' p (mem_delKey hp)⟩
  · rename_i hx
    refine ⟨rising_insKey _ _ _ h, fun p hp => ?_⟩
    rcases mem_insKey hp with rfl | hp
    · exact hx
    · exact h' p hp

/-! ### Memory -/

namespace Memory

theorem wf_iff (m : Memory) : m.wf = true ↔ rising m = true ∧ ∀ p ∈ m, p.2 ≠ unwritten := by
  simp [wf, List.all_eq_true]

/-- A byte after one byte has been written. -/
@[simp] theorem byte_put (m : Memory) (a b : Nat) (x : BitVec 8) : (m.put a x).byte b = if b = a then x else m.byte b :=
  getKey_putKey _ _ _ _ _

theorem wf_put (m : Memory) (a : Nat) (x : BitVec 8) (h : m.wf = true) : (m.put a x).wf = true := by
  rw [wf_iff] at h ⊢
  exact putKey_canon _ _ _ _ h.1 h.2

theorem wf_putBytes (bs : List (BitVec 8)) (m : Memory) (a : Nat) (h : m.wf = true) : (m.putBytes a bs).wf = true := by
  induction bs generalizing m a with
  | nil => exact h
  | cons b r ih => exact ih _ _ (wf_put _ _ _ h)

theorem wf_write (m : Memory) (a n v : Nat) (h : m.wf = true) : (m.write a n v).wf = true := wf_putBytes _ _ _ h

theorem wf_zero (m : Memory) (a n : Nat) (h : m.wf = true) : (m.zero a n).wf = true := by
  rw [wf_iff] at h ⊢
  exact ⟨rising_filter _ _ h.1, fun p hp => h.2 p ((List.mem_filter.1 hp).1)⟩

/-- A byte after several bytes have been written: the one that was written, or the one that stood there. -/
theorem byte_putBytes (bs : List (BitVec 8)) (m : Memory) (a b : Nat) :
    (m.putBytes a bs).byte b = if a ≤ b ∧ b < a + bs.length then bs.getD (b - a) 0 else m.byte b := by
  induction bs generalizing m a with
  | nil => simp [putBytes] <;> omega
  | cons x r ih =>
    rw [putBytes, ih, byte_put]
    by_cases h : b = a
    · subst h; simp <;> omega
    · by_cases h2 : a + 1 ≤ b ∧ b < a + 1 + r.length
      · rw [if_pos h2, if_pos (by simp; omega)]
        obtain ⟨n, rfl⟩ : ∃ n, b = a + 1 + n := ⟨b - a - 1, by omega⟩
        simp [show a + 1 + n - a = n + 1 by omega]
      · rw [if_neg h2, if_neg h, if_neg (by simp; omega)]

/-- Bytes outside those written keep their value. -/
theorem byte_putBytes_other (bs : List (BitVec 8)) (m : Memory) (a b : Nat) (h : b < a ∨ a + bs.length ≤ b) :
    (m.putBytes a bs).byte b = m.byte b := by
  rw [byte_putBytes, if_neg (by omega)]

theorem getKey_filter {α : Type} (d : α) (f : Nat × α → Bool) (g : Nat → Bool) (hf : ∀ p, f p = g p.1) (l : List (Nat × α))
    (b : Nat) : getKey d (l.filter f) b = if g b = true then getKey d l b else d := by
  induction l with
  | nil => simp [getKey]
  | cons q r ih =>
    obtain ⟨k, v⟩ := q
    rw [List.filter_cons]
    split
    · rename_i h
      by_cases hb : b = k
      · subst hb; rw [hf] at h; simp [getKey, h]
      · simp [getKey, hb, ih]
    · rename_i h
      by_cases hb : b = k
      · subst hb; rw [hf] at h; simp at h; simp [ih, h]
      · simp [getKey, hb, ih]

/-- A byte after a zero-fill. -/
theorem byte_zero (m : Memory) (a n b : Nat) : (m.zero a n).byte b = if a ≤ b ∧ b < a + n then 0 else m.byte b := by
  rw [byte, zero, getKey_filter _ _ (fun k => decide (k < a ∨ a + n ≤ k)) (by intro p; simp)]
  by_cases h : b < a ∨ a + n ≤ b
  · rw [if_pos (by simpa using h), if_neg (by omega)]; rfl
  · rw [if_neg (by simpa using h), if_pos (by omega)]; rfl

theorem length_bytes (n : Nat) (m : Memory) (a : Nat) : (m.bytes a n).length = n := by
  induction n generalizing a with
  | zero => rfl
  | succ n ih => simp [bytes, ih]

theorem length_bytesLE (n v : Nat) : (bytesLE n v).length = n := by
  induction n generalizing v with
  | zero => rfl
  | succ n ih => simp [bytesLE, ih]

theorem bytes_congr (n : Nat) (m m' : Memory) (a : Nat) (h : ∀ b, a ≤ b → b < a + n → m.byte b = m'.byte b) :
    m.bytes a n = m'.bytes a n := by
  induction n generalizing a with
  | zero => rfl
  | succ n ih =>
    rw [bytes, bytes, h a (by omega) (by omega), ih]
    intro b h1 h2; exact h b (by omega) (by omega)

/-- The bytes read where bytes were written are those bytes. -/
theorem bytes_putBytes (bs : List (BitVec 8)) (m : Memory) (a : Nat) : (m.putBytes a bs).bytes a bs.length = bs := by
  induction bs generalizing m a with
  | nil => rfl
  | cons x r ih =>
    rw [List.length_cons, bytes, byte_putBytes, putBytes, ih]
    simp

theorem natLE_bytesLE (n v : Nat) : natLE (bytesLE n v) = v % 256 ^ n := by
  induction n generalizing v with
  | zero => simp [bytesLE, natLE, Nat.mod_one]
  | succ n ih =>
    rw [bytesLE, natLE, ih]
    simp only [BitVec.toNat_ofNat]
    rw [show 256 ^ (n + 1) = 256 * 256 ^ n by rw [Nat.pow_succ, Nat.mul_comm], Nat.mod_mul]

/-- A read of what a write of the same width put there. -/
theorem read_write (m : Memory) (a n v : Nat) : (m.write a n v).read a n = v % 256 ^ n := by
  have h := bytes_putBytes (bytesLE n v) m a
  rw [length_bytesLE] at h
  rw [read, write, h, natLE_bytesLE]

end Memory
end Sys2Proof.Machine
end

