-- ==== Sys2Proof/Laws/State.lean ====
section
/-!
SUPPORT. One lemma per field per named update of the device, each true by unfolding the update, and what a register
reads after one has been written.
-/
namespace Sys2Proof.Machine
namespace Chip

/-! ### Fields after updates -/

@[simp] theorem w_now (c : Chip) (k : Nat) (v : BitVec 32) : (c.w k v).now = c.now := rfl
@[simp] theorem w_fresh (c : Chip) (k : Nat) (v : BitVec 32) : (c.w k v).fresh = c.fresh := rfl
@[simp] theorem w_fuse (c : Chip) (k : Nat) (v : BitVec 32) : (c.w k v).fuse = c.fuse := rfl
@[simp] theorem w_bus (c : Chip) (k : Nat) (v : BitVec 32) : (c.w k v).bus = c.bus := rfl
@[simp] theorem w_mem (c : Chip) (k : Nat) (v : BitVec 32) : (c.w k v).mem = c.mem := rfl
@[simp] theorem w_pstore (c : Chip) (k : Nat) (v : BitVec 32) : (c.w k v).pstore = c.pstore := rfl
@[simp] theorem w_ecc (c : Chip) (k : Nat) (v : BitVec 32) : (c.w k v).ecc = c.ecc := rfl
@[simp] theorem w_err (c : Chip) (k : Nat) (v : BitVec 32) : (c.w k v).err = c.err := rfl
@[simp] theorem w_ev (c : Chip) (k : Nat) (v : BitVec 32) : (c.w k v).ev = c.ev := rfl
@[simp] theorem w_trace (c : Chip) (k : Nat) (v : BitVec 32) : (c.w k v).trace = c.trace := rfl
@[simp] theorem w_dbg (c : Chip) (k : Nat) (v : BitVec 32) : (c.w k v).dbg = c.dbg := rfl
@[simp] theorem w_tick (c : Chip) (k : Nat) (v : BitVec 32) : (c.w k v).tick = c.tick := rfl
@[simp] theorem w_kens (c : Chip) (k : Nat) (v : BitVec 32) : (c.w k v).kens = c.kens := rfl
@[simp] theorem w_sp (c : Chip) (k : Nat) (v : BitVec 32) : (c.w k v).sp = c.sp := rfl
@[simp] theorem w_hbm (c : Chip) (k : Nat) (v : BitVec 32) : (c.w k v).hbm = c.hbm := rfl
@[simp] theorem w_cores (c : Chip) (k : Nat) (v : BitVec 32) : (c.w k v).cores = c.cores := rfl
@[simp] theorem w_coreUp (c : Chip) (k : Nat) (v : BitVec 32) : (c.w k v).coreUp = c.coreUp := rfl
@[simp] theorem w_netEv (c : Chip) (k : Nat) (v : BitVec 32) : (c.w k v).netEv = c.netEv := rfl
@[simp] theorem w_gtBase (c : Chip) (k : Nat) (v : BitVec 32) : (c.w k v).gtBase = c.gtBase := rfl
@[simp] theorem w_gtAt (c : Chip) (k : Nat) (v : BitVec 32) : (c.w k v).gtAt = c.gtAt := rfl
@[simp] theorem w_gtSlew (c : Chip) (k : Nat) (v : BitVec 32) : (c.w k v).gtSlew = c.gtSlew := rfl
@[simp] theorem w_pwr (c : Chip) (k : Nat) (v : BitVec 32) : (c.w k v).pwr = c.pwr := rfl
@[simp] theorem w_wdt (c : Chip) (k : Nat) (v : BitVec 32) : (c.w k v).wdt = c.wdt := rfl
@[simp] theorem w_engines (c : Chip) (k : Nat) (v : BitVec 32) : (c.w k v).engines = c.engines := rfl
@[simp] theorem w_ports (c : Chip) (k : Nat) (v : BitVec 32) : (c.w k v).ports = c.ports := rfl
@[simp] theorem w_lost (c : Chip) (k : Nat) (v : BitVec 32) : (c.w k v).lost = c.lost := rfl
@[simp] theorem w_plmap (c : Chip) (k : Nat) (v : BitVec 32) : (c.w k v).plmap = c.plmap := rfl
@[simp] theorem w_ary (c : Chip) (k : Nat) (v : BitVec 32) : (c.w k v).ary = c.ary := rfl
@[simp] theorem w_drn (c : Chip) (k : Nat) (v : BitVec 32) : (c.w k v).drn = c.drn := rfl
@[simp] theorem w_lrn (c : Chip) (k : Nat) (v : BitVec 32) : (c.w k v).lrn = c.lrn := rfl
@[simp] theorem w_cust (c : Chip) (k : Nat) (v : BitVec 32) : (c.w k v).cust = c.cust := rfl
@[simp] theorem w_cport (c : Chip) (k : Nat) (v : BitVec 32) : (c.w k v).cport = c.cport := rfl
@[simp] theorem w_vxl (c : Chip) (k : Nat) (v : BitVec 32) : (c.w k v).vxl = c.vxl := rfl
@[simp] theorem w_casc (c : Chip) (k : Nat) (v : BitVec 32) : (c.w k v).casc = c.casc := rfl
@[simp] theorem w_landing (c : Chip) (k : Nat) (v : BitVec 32) : (c.w k v).landing = c.landing := rfl
@[simp] theorem w_dport (c : Chip) (k : Nat) (v : BitVec 32) : (c.w k v).dport = c.dport := rfl
@[simp] theorem w_ing (c : Chip) (k : Nat) (v : BitVec 32) : (c.w k v).ing = c.ing := rfl
@[simp] theorem w_elg (c : Chip) (k : Nat) (v : BitVec 32) : (c.w k v).elg = c.elg := rfl
@[simp] theorem w_egr (c : Chip) (k : Nat) (v : BitVec 32) : (c.w k v).egr = c.egr := rfl
@[simp] theorem w_msixTab (c : Chip) (k : Nat) (v : BitVec 32) : (c.w k v).msixTab = c.msixTab := rfl
@[simp] theorem w_out (c : Chip) (k : Nat) (v : BitVec 32) : (c.w k v).out = c.out := rfl

@[simp] theorem modCore_now (c : Chip) (k : Nat) (f : Core → Core) : (c.modCore k f).now = c.now := rfl
@[simp] theorem modCore_fresh (c : Chip) (k : Nat) (f : Core → Core) : (c.modCore k f).fresh = c.fresh := rfl
@[simp] theorem modCore_fuse (c : Chip) (k : Nat) (f : Core → Core) : (c.modCore k f).fuse = c.fuse := rfl
@[simp] theorem modCore_regs (c : Chip) (k : Nat) (f : Core → Core) : (c.modCore k f).regs = c.regs := rfl
@[simp] theorem modCore_bus (c : Chip) (k : Nat) (f : Core → Core) : (c.modCore k f).bus = c.bus := rfl
@[simp] theorem modCore_mem (c : Chip) (k : Nat) (f : Core → Core) : (c.modCore k f).mem = c.mem := rfl
@[simp] theorem modCore_pstore (c : Chip) (k : Nat) (f : Core → Core) : (c.modCore k f).pstore = c.pstore := rfl
@[simp] theorem modCore_ecc (c : Chip) (k : Nat) (f : Core → Core) : (c.modCore k f).ecc = c.ecc := rfl
@[simp] theorem modCore_err (c : Chip) (k : Nat) (f : Core → Core) : (c.modCore k f).err = c.err := rfl
@[simp] theorem modCore_ev (c : Chip) (k : Nat) (f : Core → Core) : (c.modCore k f).ev = c.ev := rfl
@[simp] theorem modCore_trace (c : Chip) (k : Nat) (f : Core → Core) : (c.modCore k f).trace = c.trace := rfl
@[simp] theorem modCore_dbg (c : Chip) (k : Nat) (f : Core → Core) : (c.modCore k f).dbg = c.dbg := rfl
@[simp] theorem modCore_tick (c : Chip) (k : Nat) (f : Core → Core) : (c.modCore k f).tick = c.tick := rfl
@[simp] theorem modCore_kens (c : Chip) (k : Nat) (f : Core → Core) : (c.modCore k f).kens = c.kens := rfl
@[simp] theorem modCore_sp (c : Chip) (k : Nat) (f : Core → Core) : (c.modCore k f).sp = c.sp := rfl
@[simp] theorem modCore_hbm (c : Chip) (k : Nat) (f : Core → Core) : (c.modCore k f).hbm = c.hbm := rfl
@[simp] theorem modCore_coreUp (c : Chip) (k : Nat) (f : Core → Core) : (c.modCore k f).coreUp = c.coreUp := rfl
@[simp] theorem modCore_netEv (c : Chip) (k : Nat) (f : Core → Core) : (c.modCore k f).netEv = c.netEv := rfl
@[simp] theorem modCore_gtBase (c : Chip) (k : Nat) (f : Core → Core) : (c.modCore k f).gtBase = c.gtBase := rfl
@[simp] theorem modCore_gtAt (c : Chip) (k : Nat) (f : Core → Core) : (c.modCore k f).gtAt = c.gtAt := rfl
@[simp] theorem modCore_gtSlew (c : Chip) (k : Nat) (f : Core → Core) : (c.modCore k f).gtSlew = c.gtSlew := rfl
@[simp] theorem modCore_pwr (c : Chip) (k : Nat) (f : Core → Core) : (c.modCore k f).pwr = c.pwr := rfl
@[simp] theorem modCore_wdt (c : Chip) (k : Nat) (f : Core → Core) : (c.modCore k f).wdt = c.wdt := rfl
@[simp] theorem modCore_engines (c : Chip) (k : Nat) (f : Core → Core) : (c.modCore k f).engines = c.engines := rfl
@[simp] theorem modCore_ports (c : Chip) (k : Nat) (f : Core → Core) : (c.modCore k f).ports = c.ports := rfl
@[simp] theorem modCore_lost (c : Chip) (k : Nat) (f : Core → Core) : (c.modCore k f).lost = c.lost := rfl
@[simp] theorem modCore_plmap (c : Chip) (k : Nat) (f : Core → Core) : (c.modCore k f).plmap = c.plmap := rfl
@[simp] theorem modCore_ary (c : Chip) (k : Nat) (f : Core → Core) : (c.modCore k f).ary = c.ary := rfl
@[simp] theorem modCore_drn (c : Chip) (k : Nat) (f : Core → Core) : (c.modCore k f).drn = c.drn := rfl
@[simp] theorem modCore_lrn (c : Chip) (k : Nat) (f : Core → Core) : (c.modCore k f).lrn = c.lrn := rfl
@[simp] theorem modCore_cust (c : Chip) (k : Nat) (f : Core → Core) : (c.modCore k f).cust = c.cust := rfl
@[simp] theorem modCore_cport (c : Chip) (k : Nat) (f : Core → Core) : (c.modCore k f).cport = c.cport := rfl
@[simp] theorem modCore_vxl (c : Chip) (k : Nat) (f : Core → Core) : (c.modCore k f).vxl = c.vxl := rfl
@[simp] theorem modCore_casc (c : Chip) (k : Nat) (f : Core → Core) : (c.modCore k f).casc = c.casc := rfl
@[simp] theorem modCore_landing (c : Chip) (k : Nat) (f : Core → Core) : (c.modCore k f).landing = c.landing := rfl
@[simp] theorem modCore_dport (c : Chip) (k : Nat) (f : Core → Core) : (c.modCore k f).dport = c.dport := rfl
@[simp] theorem modCore_ing (c : Chip) (k : Nat) (f : Core → Core) : (c.modCore k f).ing = c.ing := rfl
@[simp] theorem modCore_elg (c : Chip) (k : Nat) (f : Core → Core) : (c.modCore k f).elg = c.elg := rfl
@[simp] theorem modCore_egr (c : Chip) (k : Nat) (f : Core → Core) : (c.modCore k f).egr = c.egr := rfl
@[simp] theorem modCore_msixTab (c : Chip) (k : Nat) (f : Core → Core) : (c.modCore k f).msixTab = c.msixTab := rfl
@[simp] theorem modCore_out (c : Chip) (k : Nat) (f : Core → Core) : (c.modCore k f).out = c.out := rfl

@[simp] theorem modSp_now (c : Chip) (t : Nat) (f : Scratch → Scratch) : (c.modSp t f).now = c.now := rfl
@[simp] theorem modSp_fresh (c : Chip) (t : Nat) (f : Scratch → Scratch) : (c.modSp t f).fresh = c.fresh := rfl
@[simp] theorem modSp_fuse (c : Chip) (t : Nat) (f : Scratch → Scratch) : (c.modSp t f).fuse = c.fuse := rfl
@[simp] theorem modSp_regs (c : Chip) (t : Nat) (f : Scratch → Scratch) : (c.modSp t f).regs = c.regs := rfl
@[simp] theorem modSp_bus (c : Chip) (t : Nat) (f : Scratch → Scratch) : (c.modSp t f).bus = c.bus := rfl
@[simp] theorem modSp_mem (c : Chip) (t : Nat) (f : Scratch → Scratch) : (c.modSp t f).mem = c.mem := rfl
@[simp] theorem modSp_pstore (c : Chip) (t : Nat) (f : Scratch → Scratch) : (c.modSp t f).pstore = c.pstore := rfl
@[simp] theorem modSp_ecc (c : Chip) (t : Nat) (f : Scratch → Scratch) : (c.modSp t f).ecc = c.ecc := rfl
@[simp] theorem modSp_err (c : Chip) (t : Nat) (f : Scratch → Scratch) : (c.modSp t f).err = c.err := rfl
@[simp] theorem modSp_ev (c : Chip) (t : Nat) (f : Scratch → Scratch) : (c.modSp t f).ev = c.ev := rfl
@[simp] theorem modSp_trace (c : Chip) (t : Nat) (f : Scratch → Scratch) : (c.modSp t f).trace = c.trace := rfl
@[simp] theorem modSp_dbg (c : Chip) (t : Nat) (f : Scratch → Scratch) : (c.modSp t f).dbg = c.dbg := rfl
@[simp] theorem modSp_tick (c : Chip) (t : Nat) (f : Scratch → Scratch) : (c.modSp t f).tick = c.tick := rfl
@[simp] theorem modSp_kens (c : Chip) (t : Nat) (f : Scratch → Scratch) : (c.modSp t f).kens = c.kens := rfl
@[simp] theorem modSp_hbm (c : Chip) (t : Nat) (f : Scratch → Scratch) : (c.modSp t f).hbm = c.hbm := rfl
@[simp] theorem modSp_cores (c : Chip) (t : Nat) (f : Scratch → Scratch) : (c.modSp t f).cores = c.cores := rfl
@[simp] theorem modSp_coreUp (c : Chip) (t : Nat) (f : Scratch → Scratch) : (c.modSp t f).coreUp = c.coreUp := rfl
@[simp] theorem modSp_netEv (c : Chip) (t : Nat) (f : Scratch → Scratch) : (c.modSp t f).netEv = c.netEv := rfl
@[simp] theorem modSp_gtBase (c : Chip) (t : Nat) (f : Scratch → Scratch) : (c.modSp t f).gtBase = c.gtBase := rfl
@[simp] theorem modSp_gtAt (c : Chip) (t : Nat) (f : Scratch → Scratch) : (c.modSp t f).gtAt = c.gtAt := rfl
@[simp] theorem modSp_gtSlew (c : Chip) (t : Nat) (f : Scratch → Scratch) : (c.modSp t f).gtSlew = c.gtSlew := rfl
@[simp] theorem modSp_pwr (c : Chip) (t : Nat) (f : Scratch → Scratch) : (c.modSp t f).pwr = c.pwr := rfl
@[simp] theorem modSp_wdt (c : Chip) (t : Nat) (f : Scratch → Scratch) : (c.modSp t f).wdt = c.wdt := rfl
@[simp] theorem modSp_engines (c : Chip) (t : Nat) (f : Scratch → Scratch) : (c.modSp t f).engines = c.engines := rfl
@[simp] theorem modSp_ports (c : Chip) (t : Nat) (f : Scratch → Scratch) : (c.modSp t f).ports = c.ports := rfl
@[simp] theorem modSp_lost (c : Chip) (t : Nat) (f : Scratch → Scratch) : (c.modSp t f).lost = c.lost := rfl
@[simp] theorem modSp_plmap (c : Chip) (t : Nat) (f : Scratch → Scratch) : (c.modSp t f).plmap = c.plmap := rfl
@[simp] theorem modSp_ary (c : Chip) (t : Nat) (f : Scratch → Scratch) : (c.modSp t f).ary = c.ary := rfl
@[simp] theorem modSp_drn (c : Chip) (t : Nat) (f : Scratch → Scratch) : (c.modSp t f).drn = c.drn := rfl
@[simp] theorem modSp_lrn (c : Chip) (t : Nat) (f : Scratch → Scratch) : (c.modSp t f).lrn = c.lrn := rfl
@[simp] theorem modSp_cust (c : Chip) (t : Nat) (f : Scratch → Scratch) : (c.modSp t f).cust = c.cust := rfl
@[simp] theorem modSp_cport (c : Chip) (t : Nat) (f : Scratch → Scratch) : (c.modSp t f).cport = c.cport := rfl
@[simp] theorem modSp_vxl (c : Chip) (t : Nat) (f : Scratch → Scratch) : (c.modSp t f).vxl = c.vxl := rfl
@[simp] theorem modSp_casc (c : Chip) (t : Nat) (f : Scratch → Scratch) : (c.modSp t f).casc = c.casc := rfl
@[simp] theorem modSp_landing (c : Chip) (t : Nat) (f : Scratch → Scratch) : (c.modSp t f).landing = c.landing := rfl
@[simp] theorem modSp_dport (c : Chip) (t : Nat) (f : Scratch → Scratch) : (c.modSp t f).dport = c.dport := rfl
@[simp] theorem modSp_ing (c : Chip) (t : Nat) (f : Scratch → Scratch) : (c.modSp t f).ing = c.ing := rfl
@[simp] theorem modSp_elg (c : Chip) (t : Nat) (f : Scratch → Scratch) : (c.modSp t f).elg = c.elg := rfl
@[simp] theorem modSp_egr (c : Chip) (t : Nat) (f : Scratch → Scratch) : (c.modSp t f).egr = c.egr := rfl
@[simp] theorem modSp_msixTab (c : Chip) (t : Nat) (f : Scratch → Scratch) : (c.modSp t f).msixTab = c.msixTab := rfl
@[simp] theorem modSp_out (c : Chip) (t : Nat) (f : Scratch → Scratch) : (c.modSp t f).out = c.out := rfl

@[simp] theorem modTick_now (c : Chip) (f : TickUnit → TickUnit) : (c.modTick f).now = c.now := rfl
@[simp] theorem modTick_fresh (c : Chip) (f : TickUnit → TickUnit) : (c.modTick f).fresh = c.fresh := rfl
@[simp] theorem modTick_fuse (c : Chip) (f : TickUnit → TickUnit) : (c.modTick f).fuse = c.fuse := rfl
@[simp] theorem modTick_regs (c : Chip) (f : TickUnit → TickUnit) : (c.modTick f).regs = c.regs := rfl
@[simp] theorem modTick_bus (c : Chip) (f : TickUnit → TickUnit) : (c.modTick f).bus = c.bus := rfl
@[simp] theorem modTick_mem (c : Chip) (f : TickUnit → TickUnit) : (c.modTick f).mem = c.mem := rfl
@[simp] theorem modTick_pstore (c : Chip) (f : TickUnit → TickUnit) : (c.modTick f).pstore = c.pstore := rfl
@[simp] theorem modTick_ecc (c : Chip) (f : TickUnit → TickUnit) : (c.modTick f).ecc = c.ecc := rfl
@[simp] theorem modTick_err (c : Chip) (f : TickUnit → TickUnit) : (c.modTick f).err = c.err := rfl
@[simp] theorem modTick_ev (c : Chip) (f : TickUnit → TickUnit) : (c.modTick f).ev = c.ev := rfl
@[simp] theorem modTick_trace (c : Chip) (f : TickUnit → TickUnit) : (c.modTick f).trace = c.trace := rfl
@[simp] theorem modTick_dbg (c : Chip) (f : TickUnit → TickUnit) : (c.modTick f).dbg = c.dbg := rfl
@[simp] theorem modTick_kens (c : Chip) (f : TickUnit → TickUnit) : (c.modTick f).kens = c.kens := rfl
@[simp] theorem modTick_sp (c : Chip) (f : TickUnit → TickUnit) : (c.modTick f).sp = c.sp := rfl
@[simp] theorem modTick_hbm (c : Chip) (f : TickUnit → TickUnit) : (c.modTick f).hbm = c.hbm := rfl
@[simp] theorem modTick_cores (c : Chip) (f : TickUnit → TickUnit) : (c.modTick f).cores = c.cores := rfl
@[simp] theorem modTick_coreUp (c : Chip) (f : TickUnit → TickUnit) : (c.modTick f).coreUp = c.coreUp := rfl
@[simp] theorem modTick_netEv (c : Chip) (f : TickUnit → TickUnit) : (c.modTick f).netEv = c.netEv := rfl
@[simp] theorem modTick_gtBase (c : Chip) (f : TickUnit → TickUnit) : (c.modTick f).gtBase = c.gtBase := rfl
@[simp] theorem modTick_gtAt (c : Chip) (f : TickUnit → TickUnit) : (c.modTick f).gtAt = c.gtAt := rfl
@[simp] theorem modTick_gtSlew (c : Chip) (f : TickUnit → TickUnit) : (c.modTick f).gtSlew = c.gtSlew := rfl
@[simp] theorem modTick_pwr (c : Chip) (f : TickUnit → TickUnit) : (c.modTick f).pwr = c.pwr := rfl
@[simp] theorem modTick_wdt (c : Chip) (f : TickUnit → TickUnit) : (c.modTick f).wdt = c.wdt := rfl
@[simp] theorem modTick_engines (c : Chip) (f : TickUnit → TickUnit) : (c.modTick f).engines = c.engines := rfl
@[simp] theorem modTick_ports (c : Chip) (f : TickUnit → TickUnit) : (c.modTick f).ports = c.ports := rfl
@[simp] theorem modTick_lost (c : Chip) (f : TickUnit → TickUnit) : (c.modTick f).lost = c.lost := rfl
@[simp] theorem modTick_plmap (c : Chip) (f : TickUnit → TickUnit) : (c.modTick f).plmap = c.plmap := rfl
@[simp] theorem modTick_ary (c : Chip) (f : TickUnit → TickUnit) : (c.modTick f).ary = c.ary := rfl
@[simp] theorem modTick_drn (c : Chip) (f : TickUnit → TickUnit) : (c.modTick f).drn = c.drn := rfl
@[simp] theorem modTick_lrn (c : Chip) (f : TickUnit → TickUnit) : (c.modTick f).lrn = c.lrn := rfl
@[simp] theorem modTick_cust (c : Chip) (f : TickUnit → TickUnit) : (c.modTick f).cust = c.cust := rfl
@[simp] theorem modTick_cport (c : Chip) (f : TickUnit → TickUnit) : (c.modTick f).cport = c.cport := rfl
@[simp] theorem modTick_vxl (c : Chip) (f : TickUnit → TickUnit) : (c.modTick f).vxl = c.vxl := rfl
@[simp] theorem modTick_casc (c : Chip) (f : TickUnit → TickUnit) : (c.modTick f).casc = c.casc := rfl
@[simp] theorem modTick_landing (c : Chip) (f : TickUnit → TickUnit) : (c.modTick f).landing = c.landing := rfl
@[simp] theorem modTick_dport (c : Chip) (f : TickUnit → TickUnit) : (c.modTick f).dport = c.dport := rfl
@[simp] theorem modTick_ing (c : Chip) (f : TickUnit → TickUnit) : (c.modTick f).ing = c.ing := rfl
@[simp] theorem modTick_elg (c : Chip) (f : TickUnit → TickUnit) : (c.modTick f).elg = c.elg := rfl
@[simp] theorem modTick_egr (c : Chip) (f : TickUnit → TickUnit) : (c.modTick f).egr = c.egr := rfl
@[simp] theorem modTick_msixTab (c : Chip) (f : TickUnit → TickUnit) : (c.modTick f).msixTab = c.msixTab := rfl
@[simp] theorem modTick_out (c : Chip) (f : TickUnit → TickUnit) : (c.modTick f).out = c.out := rfl

@[simp] theorem modWdt_now (c : Chip) (i : Nat) (f : Watchdog → Watchdog) : (c.modWdt i f).now = c.now := rfl
@[simp] theorem modWdt_fresh (c : Chip) (i : Nat) (f : Watchdog → Watchdog) : (c.modWdt i f).fresh = c.fresh := rfl
@[simp] theorem modWdt_fuse (c : Chip) (i : Nat) (f : Watchdog → Watchdog) : (c.modWdt i f).fuse = c.fuse := rfl
@[simp] theorem modWdt_regs (c : Chip) (i : Nat) (f : Watchdog → Watchdog) : (c.modWdt i f).regs = c.regs := rfl
@[simp] theorem modWdt_bus (c : Chip) (i : Nat) (f : Watchdog → Watchdog) : (c.modWdt i f).bus = c.bus := rfl
@[simp] theorem modWdt_mem (c : Chip) (i : Nat) (f : Watchdog → Watchdog) : (c.modWdt i f).mem = c.mem := rfl
@[simp] theorem modWdt_pstore (c : Chip) (i : Nat) (f : Watchdog → Watchdog) : (c.modWdt i f).pstore = c.pstore := rfl
@[simp] theorem modWdt_ecc (c : Chip) (i : Nat) (f : Watchdog → Watchdog) : (c.modWdt i f).ecc = c.ecc := rfl
@[simp] theorem modWdt_err (c : Chip) (i : Nat) (f : Watchdog → Watchdog) : (c.modWdt i f).err = c.err := rfl
@[simp] theorem modWdt_ev (c : Chip) (i : Nat) (f : Watchdog → Watchdog) : (c.modWdt i f).ev = c.ev := rfl
@[simp] theorem modWdt_trace (c : Chip) (i : Nat) (f : Watchdog → Watchdog) : (c.modWdt i f).trace = c.trace := rfl
@[simp] theorem modWdt_dbg (c : Chip) (i : Nat) (f : Watchdog → Watchdog) : (c.modWdt i f).dbg = c.dbg := rfl
@[simp] theorem modWdt_tick (c : Chip) (i : Nat) (f : Watchdog → Watchdog) : (c.modWdt i f).tick = c.tick := rfl
@[simp] theorem modWdt_kens (c : Chip) (i : Nat) (f : Watchdog → Watchdog) : (c.modWdt i f).kens = c.kens := rfl
@[simp] theorem modWdt_sp (c : Chip) (i : Nat) (f : Watchdog → Watchdog) : (c.modWdt i f).sp = c.sp := rfl
@[simp] theorem modWdt_hbm (c : Chip) (i : Nat) (f : Watchdog → Watchdog) : (c.modWdt i f).hbm = c.hbm := rfl
@[simp] theorem modWdt_cores (c : Chip) (i : Nat) (f : Watchdog → Watchdog) : (c.modWdt i f).cores = c.cores := rfl
@[simp] theorem modWdt_coreUp (c : Chip) (i : Nat) (f : Watchdog → Watchdog) : (c.modWdt i f).coreUp = c.coreUp := rfl
@[simp] theorem modWdt_netEv (c : Chip) (i : Nat) (f : Watchdog → Watchdog) : (c.modWdt i f).netEv = c.netEv := rfl
@[simp] theorem modWdt_gtBase (c : Chip) (i : Nat) (f : Watchdog → Watchdog) : (c.modWdt i f).gtBase = c.gtBase := rfl
@[simp] theorem modWdt_gtAt (c : Chip) (i : Nat) (f : Watchdog → Watchdog) : (c.modWdt i f).gtAt = c.gtAt := rfl
@[simp] theorem modWdt_gtSlew (c : Chip) (i : Nat) (f : Watchdog → Watchdog) : (c.modWdt i f).gtSlew = c.gtSlew := rfl
@[simp] theorem modWdt_pwr (c : Chip) (i : Nat) (f : Watchdog → Watchdog) : (c.modWdt i f).pwr = c.pwr := rfl
@[simp] theorem modWdt_engines (c : Chip) (i : Nat) (f : Watchdog → Watchdog) : (c.modWdt i f).engines = c.engines := rfl
@[simp] theorem modWdt_ports (c : Chip) (i : Nat) (f : Watchdog → Watchdog) : (c.modWdt i f).ports = c.ports := rfl
@[simp] theorem modWdt_lost (c : Chip) (i : Nat) (f : Watchdog → Watchdog) : (c.modWdt i f).lost = c.lost := rfl
@[simp] theorem modWdt_plmap (c : Chip) (i : Nat) (f : Watchdog → Watchdog) : (c.modWdt i f).plmap = c.plmap := rfl
@[simp] theorem modWdt_ary (c : Chip) (i : Nat) (f : Watchdog → Watchdog) : (c.modWdt i f).ary = c.ary := rfl
@[simp] theorem modWdt_drn (c : Chip) (i : Nat) (f : Watchdog → Watchdog) : (c.modWdt i f).drn = c.drn := rfl
@[simp] theorem modWdt_lrn (c : Chip) (i : Nat) (f : Watchdog → Watchdog) : (c.modWdt i f).lrn = c.lrn := rfl
@[simp] theorem modWdt_cust (c : Chip) (i : Nat) (f : Watchdog → Watchdog) : (c.modWdt i f).cust = c.cust := rfl
@[simp] theorem modWdt_cport (c : Chip) (i : Nat) (f : Watchdog → Watchdog) : (c.modWdt i f).cport = c.cport := rfl
@[simp] theorem modWdt_vxl (c : Chip) (i : Nat) (f : Watchdog → Watchdog) : (c.modWdt i f).vxl = c.vxl := rfl
@[simp] theorem modWdt_casc (c : Chip) (i : Nat) (f : Watchdog → Watchdog) : (c.modWdt i f).casc = c.casc := rfl
@[simp] theorem modWdt_landing (c : Chip) (i : Nat) (f : Watchdog → Watchdog) : (c.modWdt i f).landing = c.landing := rfl
@[simp] theorem modWdt_dport (c : Chip) (i : Nat) (f : Watchdog → Watchdog) : (c.modWdt i f).dport = c.dport := rfl
@[simp] theorem modWdt_ing (c : Chip) (i : Nat) (f : Watchdog → Watchdog) : (c.modWdt i f).ing = c.ing := rfl
@[simp] theorem modWdt_elg (c : Chip) (i : Nat) (f : Watchdog → Watchdog) : (c.modWdt i f).elg = c.elg := rfl
@[simp] theorem modWdt_egr (c : Chip) (i : Nat) (f : Watchdog → Watchdog) : (c.modWdt i f).egr = c.egr := rfl
@[simp] theorem modWdt_msixTab (c : Chip) (i : Nat) (f : Watchdog → Watchdog) : (c.modWdt i f).msixTab = c.msixTab := rfl
@[simp] theorem modWdt_out (c : Chip) (i : Nat) (f : Watchdog → Watchdog) : (c.modWdt i f).out = c.out := rfl

@[simp] theorem emit_now (c : Chip) (o : Output) : (c.emit o).now = c.now := rfl
@[simp] theorem emit_fresh (c : Chip) (o : Output) : (c.emit o).fresh = c.fresh := rfl
@[simp] theorem emit_fuse (c : Chip) (o : Output) : (c.emit o).fuse = c.fuse := rfl
@[simp] theorem emit_regs (c : Chip) (o : Output) : (c.emit o).regs = c.regs := rfl
@[simp] theorem emit_bus (c : Chip) (o : Output) : (c.emit o).bus = c.bus := rfl
@[simp] theorem emit_mem (c : Chip) (o : Output) : (c.emit o).mem = c.mem := rfl
@[simp] theorem emit_pstore (c : Chip) (o : Output) : (c.emit o).pstore = c.pstore := rfl
@[simp] theorem emit_ecc (c : Chip) (o : Output) : (c.emit o).ecc = c.ecc := rfl
@[simp] theorem emit_err (c : Chip) (o : Output) : (c.emit o).err = c.err := rfl
@[simp] theorem emit_ev (c : Chip) (o : Output) : (c.emit o).ev = c.ev := rfl
@[simp] theorem emit_trace (c : Chip) (o : Output) : (c.emit o).trace = c.trace := rfl
@[simp] theorem emit_dbg (c : Chip) (o : Output) : (c.emit o).dbg = c.dbg := rfl
@[simp] theorem emit_tick (c : Chip) (o : Output) : (c.emit o).tick = c.tick := rfl
@[simp] theorem emit_kens (c : Chip) (o : Output) : (c.emit o).kens = c.kens := rfl
@[simp] theorem emit_sp (c : Chip) (o : Output) : (c.emit o).sp = c.sp := rfl
@[simp] theorem emit_hbm (c : Chip) (o : Output) : (c.emit o).hbm = c.hbm := rfl
@[simp] theorem emit_cores (c : Chip) (o : Output) : (c.emit o).cores = c.cores := rfl
@[simp] theorem emit_coreUp (c : Chip) (o : Output) : (c.emit o).coreUp = c.coreUp := rfl
@[simp] theorem emit_netEv (c : Chip) (o : Output) : (c.emit o).netEv = c.netEv := rfl
@[simp] theorem emit_gtBase (c : Chip) (o : Output) : (c.emit o).gtBase = c.gtBase := rfl
@[simp] theorem emit_gtAt (c : Chip) (o : Output) : (c.emit o).gtAt = c.gtAt := rfl
@[simp] theorem emit_gtSlew (c : Chip) (o : Output) : (c.emit o).gtSlew = c.gtSlew := rfl
@[simp] theorem emit_pwr (c : Chip) (o : Output) : (c.emit o).pwr = c.pwr := rfl
@[simp] theorem emit_wdt (c : Chip) (o : Output) : (c.emit o).wdt = c.wdt := rfl
@[simp] theorem emit_engines (c : Chip) (o : Output) : (c.emit o).engines = c.engines := rfl
@[simp] theorem emit_ports (c : Chip) (o : Output) : (c.emit o).ports = c.ports := rfl
@[simp] theorem emit_lost (c : Chip) (o : Output) : (c.emit o).lost = c.lost := rfl
@[simp] theorem emit_plmap (c : Chip) (o : Output) : (c.emit o).plmap = c.plmap := rfl
@[simp] theorem emit_ary (c : Chip) (o : Output) : (c.emit o).ary = c.ary := rfl
@[simp] theorem emit_drn (c : Chip) (o : Output) : (c.emit o).drn = c.drn := rfl
@[simp] theorem emit_lrn (c : Chip) (o : Output) : (c.emit o).lrn = c.lrn := rfl
@[simp] theorem emit_cust (c : Chip) (o : Output) : (c.emit o).cust = c.cust := rfl
@[simp] theorem emit_cport (c : Chip) (o : Output) : (c.emit o).cport = c.cport := rfl
@[simp] theorem emit_vxl (c : Chip) (o : Output) : (c.emit o).vxl = c.vxl := rfl
@[simp] theorem emit_casc (c : Chip) (o : Output) : (c.emit o).casc = c.casc := rfl
@[simp] theorem emit_landing (c : Chip) (o : Output) : (c.emit o).landing = c.landing := rfl
@[simp] theorem emit_dport (c : Chip) (o : Output) : (c.emit o).dport = c.dport := rfl
@[simp] theorem emit_ing (c : Chip) (o : Output) : (c.emit o).ing = c.ing := rfl
@[simp] theorem emit_elg (c : Chip) (o : Output) : (c.emit o).elg = c.elg := rfl
@[simp] theorem emit_egr (c : Chip) (o : Output) : (c.emit o).egr = c.egr := rfl
@[simp] theorem emit_msixTab (c : Chip) (o : Output) : (c.emit o).msixTab = c.msixTab := rfl

@[simp] theorem waitTo_fresh (c : Chip) (t : Nat) : (c.waitTo t).fresh = c.fresh := rfl
@[simp] theorem waitTo_fuse (c : Chip) (t : Nat) : (c.waitTo t).fuse = c.fuse := rfl
@[simp] theorem waitTo_regs (c : Chip) (t : Nat) : (c.waitTo t).regs = c.regs := rfl
@[simp] theorem waitTo_bus (c : Chip) (t : Nat) : (c.waitTo t).bus = c.bus := rfl
@[simp] theorem waitTo_mem (c : Chip) (t : Nat) : (c.waitTo t).mem = c.mem := rfl
@[simp] theorem waitTo_pstore (c : Chip) (t : Nat) : (c.waitTo t).pstore = c.pstore := rfl
@[simp] theorem waitTo_ecc (c : Chip) (t : Nat) : (c.waitTo t).ecc = c.ecc := rfl
@[simp] theorem waitTo_err (c : Chip) (t : Nat) : (c.waitTo t).err = c.err := rfl
@[simp] theorem waitTo_ev (c : Chip) (t : Nat) : (c.waitTo t).ev = c.ev := rfl
@[simp] theorem waitTo_trace (c : Chip) (t : Nat) : (c.waitTo t).trace = c.trace := rfl
@[simp] theorem waitTo_dbg (c : Chip) (t : Nat) : (c.waitTo t).dbg = c.dbg := rfl
@[simp] theorem waitTo_tick (c : Chip) (t : Nat) : (c.waitTo t).tick = c.tick := rfl
@[simp] theorem waitTo_kens (c : Chip) (t : Nat) : (c.waitTo t).kens = c.kens := rfl
@[simp] theorem waitTo_sp (c : Chip) (t : Nat) : (c.waitTo t).sp = c.sp := rfl
@[simp] theorem waitTo_hbm (c : Chip) (t : Nat) : (c.waitTo t).hbm = c.hbm := rfl
@[simp] theorem waitTo_cores (c : Chip) (t : Nat) : (c.waitTo t).cores = c.cores := rfl
@[simp] theorem waitTo_coreUp (c : Chip) (t : Nat) : (c.waitTo t).coreUp = c.coreUp := rfl
@[simp] theorem waitTo_netEv (c : Chip) (t : Nat) : (c.waitTo t).netEv = c.netEv := rfl
@[simp] theorem waitTo_gtBase (c : Chip) (t : Nat) : (c.waitTo t).gtBase = c.gtBase := rfl
@[simp] theorem waitTo_gtAt (c : Chip) (t : Nat) : (c.waitTo t).gtAt = c.gtAt := rfl
@[simp] theorem waitTo_gtSlew (c : Chip) (t : Nat) : (c.waitTo t).gtSlew = c.gtSlew := rfl
@[simp] theorem waitTo_pwr (c : Chip) (t : Nat) : (c.waitTo t).pwr = c.pwr := rfl
@[simp] theorem waitTo_wdt (c : Chip) (t : Nat) : (c.waitTo t).wdt = c.wdt := rfl
@[simp] theorem waitTo_engines (c : Chip) (t : Nat) : (c.waitTo t).engines = c.engines := rfl
@[simp] theorem waitTo_ports (c : Chip) (t : Nat) : (c.waitTo t).ports = c.ports := rfl
@[simp] theorem waitTo_lost (c : Chip) (t : Nat) : (c.waitTo t).lost = c.lost := rfl
@[simp] theorem waitTo_plmap (c : Chip) (t : Nat) : (c.waitTo t).plmap = c.plmap := rfl
@[simp] theorem waitTo_ary (c : Chip) (t : Nat) : (c.waitTo t).ary = c.ary := rfl
@[simp] theorem waitTo_drn (c : Chip) (t : Nat) : (c.waitTo t).drn = c.drn := rfl
@[simp] theorem waitTo_lrn (c : Chip) (t : Nat) : (c.waitTo t).lrn = c.lrn := rfl
@[simp] theorem waitTo_cust (c : Chip) (t : Nat) : (c.waitTo t).cust = c.cust := rfl
@[simp] theorem waitTo_cport (c : Chip) (t : Nat) : (c.waitTo t).cport = c.cport := rfl
@[simp] theorem waitTo_vxl (c : Chip) (t : Nat) : (c.waitTo t).vxl = c.vxl := rfl
@[simp] theorem waitTo_casc (c : Chip) (t : Nat) : (c.waitTo t).casc = c.casc := rfl
@[simp] theorem waitTo_landing (c : Chip) (t : Nat) : (c.waitTo t).landing = c.landing := rfl
@[simp] theorem waitTo_dport (c : Chip) (t : Nat) : (c.waitTo t).dport = c.dport := rfl
@[simp] theorem waitTo_ing (c : Chip) (t : Nat) : (c.waitTo t).ing = c.ing := rfl
@[simp] theorem waitTo_elg (c : Chip) (t : Nat) : (c.waitTo t).elg = c.elg := rfl
@[simp] theorem waitTo_egr (c : Chip) (t : Nat) : (c.waitTo t).egr = c.egr := rfl
@[simp] theorem waitTo_msixTab (c : Chip) (t : Nat) : (c.waitTo t).msixTab = c.msixTab := rfl
@[simp] theorem waitTo_out (c : Chip) (t : Nat) : (c.waitTo t).out = c.out := rfl

@[simp] theorem waitTo_now (c : Chip) (t : Nat) : (c.waitTo t).now = max c.now t := rfl
@[simp] theorem emit_out (c : Chip) (o : Output) : (c.emit o).out = o :: c.out := rfl
@[simp] theorem modTick_tick (c : Chip) (f : TickUnit → TickUnit) : (c.modTick f).tick = f c.tick := rfl

/-! ### Registers -/

/-- What a register reads follows from the register file alone. -/
theorem r_of_regs {c d : Chip} (h : d.regs = c.regs) (k : Nat) : d.r k = c.r k := by simp only [r, h]

/-- A register after one has been written. -/
@[simp] theorem r_w (c : Chip) (k j : Nat) (v : BitVec 32) : (c.w k v).r j = if j = k then v else c.r j := by
  simp only [r, w]
  split
  · rename_i h; subst h; rw [getKey_putKey, if_pos rfl]
  · rename_i h; exact getKey_putKey_ne _ _ _ _ _ _ h

@[simp] theorem r_modCore (c : Chip) (k : Nat) (f : Core → Core) (j : Nat) : (c.modCore k f).r j = c.r j := r_of_regs rfl j
@[simp] theorem r_modSp (c : Chip) (t : Nat) (f : Scratch → Scratch) (j : Nat) : (c.modSp t f).r j = c.r j := r_of_regs rfl j
@[simp] theorem r_modTick (c : Chip) (f : TickUnit → TickUnit) (j : Nat) : (c.modTick f).r j = c.r j := r_of_regs rfl j
@[simp] theorem r_modWdt (c : Chip) (i : Nat) (f : Watchdog → Watchdog) (j : Nat) : (c.modWdt i f).r j = c.r j := r_of_regs rfl j
@[simp] theorem r_emit (c : Chip) (o : Output) (j : Nat) : (c.emit o).r j = c.r j := r_of_regs rfl j
@[simp] theorem r_waitTo (c : Chip) (t : Nat) (j : Nat) : (c.waitTo t).r j = c.r j := r_of_regs rfl j

/-! ### Cores -/

theorem core_of_cores {c d : Chip} (h : d.cores = c.cores) (k : Nat) : d.core k = c.core k := by simp only [core, h]

theorem length_modNth {α : Type} (f : α → α) (l : List α) (i : Nat) : (modNth f l i).length = l.length := by
  induction l generalizing i with
  | nil => rfl
  | cons x r ih => cases i <;> simp [modNth, ih]

theorem nth_modNth {α : Type} (d : α) (f : α → α) (l : List α) (i j : Nat) :
    nth d (modNth f l i) j = if j = i ∧ i < l.length then f (nth d l i) else nth d l j := by
  unfold nth
  induction l generalizing i j with
  | nil => simp [modNth]
  | cons x r ih =>
    cases i with
    | zero => cases j <;> simp [modNth]
    | succ i =>
      cases j with
      | zero => simp [modNth]
      | succ j =>
        have := ih i j
        simp only [modNth, List.getD_cons_succ, List.length_cons, Nat.add_right_cancel_iff, Nat.add_lt_add_iff_right] at this ⊢
        exact this

/-- A core after one has been changed. -/
theorem core_modCore (c : Chip) (k j : Nat) (f : Core → Core) :
    (c.modCore k f).core j = if j = k ∧ k < c.cores.length then f (c.core k) else c.core j := nth_modNth _ _ _ _ _

@[simp] theorem length_cores_modCore (c : Chip) (k : Nat) (f : Core → Core) : (c.modCore k f).cores.length = c.cores.length :=
  length_modNth _ _ _

@[simp] theorem core_w (c : Chip) (k j : Nat) (v : BitVec 32) : (c.w k v).core j = c.core j := rfl
@[simp] theorem core_waitTo (c : Chip) (t j : Nat) : (c.waitTo t).core j = c.core j := rfl
@[simp] theorem core_emit (c : Chip) (o : Output) (j : Nat) : (c.emit o).core j = c.core j := rfl

/-! ### The watchdogs' counts follow every command -/

end Chip

/-- What each step of a loop keeps, the loop keeps. -/
theorem forN_inv {α : Type} (P : α → Prop) (n : Nat) (f : Nat → α → α) (h : ∀ i x, P x → P (f i x)) (a : α) (ha : P a) :
    P (forN n f a) := by
  unfold forN
  induction List.range n generalizing a with
  | nil => exact ha
  | cons i r ih => exact ih _ (h i a ha)

namespace Chip

/-- Bringing the watchdogs' counts up to date changes nothing but the watchdogs. -/
theorem wdtSync_eq (c : Chip) : c.wdtSync = { c with wdt := c.wdtSync.wdt } := by
  unfold wdtSync
  refine forN_inv (fun d => d = { c with wdt := d.wdt }) 18 _ ?_ c rfl
  intro i d hd
  dsimp only
  split
  · exact hd
  · simp only [modWdt]; rw [hd]

@[simp] theorem wdtSync_now (c : Chip) : c.wdtSync.now = c.now := by rw [c.wdtSync_eq]
@[simp] theorem wdtSync_fresh (c : Chip) : c.wdtSync.fresh = c.fresh := by rw [c.wdtSync_eq]
@[simp] theorem wdtSync_fuse (c : Chip) : c.wdtSync.fuse = c.fuse := by rw [c.wdtSync_eq]
@[simp] theorem wdtSync_regs (c : Chip) : c.wdtSync.regs = c.regs := by rw [c.wdtSync_eq]
@[simp] theorem wdtSync_bus (c : Chip) : c.wdtSync.bus = c.bus := by rw [c.wdtSync_eq]
@[simp] theorem wdtSync_mem (c : Chip) : c.wdtSync.mem = c.mem := by rw [c.wdtSync_eq]
@[simp] theorem wdtSync_pstore (c : Chip) : c.wdtSync.pstore = c.pstore := by rw [c.wdtSync_eq]
@[simp] theorem wdtSync_ecc (c : Chip) : c.wdtSync.ecc = c.ecc := by rw [c.wdtSync_eq]
@[simp] theorem wdtSync_err (c : Chip) : c.wdtSync.err = c.err := by rw [c.wdtSync_eq]
@[simp] theorem wdtSync_ev (c : Chip) : c.wdtSync.ev = c.ev := by rw [c.wdtSync_eq]
@[simp] theorem wdtSync_trace (c : Chip) : c.wdtSync.trace = c.trace := by rw [c.wdtSync_eq]
@[simp] theorem wdtSync_dbg (c : Chip) : c.wdtSync.dbg = c.dbg := by rw [c.wdtSync_eq]
@[simp] theorem wdtSync_tick (c : Chip) : c.wdtSync.tick = c.tick := by rw [c.wdtSync_eq]
@[simp] theorem wdtSync_kens (c : Chip) : c.wdtSync.kens = c.kens := by rw [c.wdtSync_eq]
@[simp] theorem wdtSync_sp (c : Chip) : c.wdtSync.sp = c.sp := by rw [c.wdtSync_eq]
@[simp] theorem wdtSync_hbm (c : Chip) : c.wdtSync.hbm = c.hbm := by rw [c.wdtSync_eq]
@[simp] theorem wdtSync_cores (c : Chip) : c.wdtSync.cores = c.cores := by rw [c.wdtSync_eq]
@[simp] theorem wdtSync_coreUp (c : Chip) : c.wdtSync.coreUp = c.coreUp := by rw [c.wdtSync_eq]
@[simp] theorem wdtSync_netEv (c : Chip) : c.wdtSync.netEv = c.netEv := by rw [c.wdtSync_eq]
@[simp] theorem wdtSync_gtBase (c : Chip) : c.wdtSync.gtBase = c.gtBase := by rw [c.wdtSync_eq]
@[simp] theorem wdtSync_gtAt (c : Chip) : c.wdtSync.gtAt = c.gtAt := by rw [c.wdtSync_eq]
@[simp] theorem wdtSync_gtSlew (c : Chip) : c.wdtSync.gtSlew = c.gtSlew := by rw [c.wdtSync_eq]
@[simp] theorem wdtSync_pwr (c : Chip) : c.wdtSync.pwr = c.pwr := by rw [c.wdtSync_eq]
@[simp] theorem wdtSync_engines (c : Chip) : c.wdtSync.engines = c.engines := by rw [c.wdtSync_eq]
@[simp] theorem wdtSync_ports (c : Chip) : c.wdtSync.ports = c.ports := by rw [c.wdtSync_eq]
@[simp] theorem wdtSync_lost (c : Chip) : c.wdtSync.lost = c.lost := by rw [c.wdtSync_eq]
@[simp] theorem wdtSync_plmap (c : Chip) : c.wdtSync.plmap = c.plmap := by rw [c.wdtSync_eq]
@[simp] theorem wdtSync_ary (c : Chip) : c.wdtSync.ary = c.ary := by rw [c.wdtSync_eq]
@[simp] theorem wdtSync_drn (c : Chip) : c.wdtSync.drn = c.drn := by rw [c.wdtSync_eq]
@[simp] theorem wdtSync_lrn (c : Chip) : c.wdtSync.lrn = c.lrn := by rw [c.wdtSync_eq]
@[simp] theorem wdtSync_cust (c : Chip) : c.wdtSync.cust = c.cust := by rw [c.wdtSync_eq]
@[simp] theorem wdtSync_cport (c : Chip) : c.wdtSync.cport = c.cport := by rw [c.wdtSync_eq]
@[simp] theorem wdtSync_vxl (c : Chip) : c.wdtSync.vxl = c.vxl := by rw [c.wdtSync_eq]
@[simp] theorem wdtSync_casc (c : Chip) : c.wdtSync.casc = c.casc := by rw [c.wdtSync_eq]
@[simp] theorem wdtSync_landing (c : Chip) : c.wdtSync.landing = c.landing := by rw [c.wdtSync_eq]
@[simp] theorem wdtSync_dport (c : Chip) : c.wdtSync.dport = c.dport := by rw [c.wdtSync_eq]
@[simp] theorem wdtSync_ing (c : Chip) : c.wdtSync.ing = c.ing := by rw [c.wdtSync_eq]
@[simp] theorem wdtSync_elg (c : Chip) : c.wdtSync.elg = c.elg := by rw [c.wdtSync_eq]
@[simp] theorem wdtSync_egr (c : Chip) : c.wdtSync.egr = c.egr := by rw [c.wdtSync_eq]
@[simp] theorem wdtSync_msixTab (c : Chip) : c.wdtSync.msixTab = c.msixTab := by rw [c.wdtSync_eq]
@[simp] theorem wdtSync_out (c : Chip) : c.wdtSync.out = c.out := by rw [c.wdtSync_eq]
@[simp] theorem r_wdtSync (c : Chip) (k : Nat) : c.wdtSync.r k = c.r k := r_of_regs (wdtSync_regs c) k
@[simp] theorem core_wdtSync (c : Chip) (k : Nat) : c.wdtSync.core k = c.core k := core_of_cores (wdtSync_cores c) k
@[simp] theorem r_withFuse (c : Chip) (f : Fuses) (k : Nat) : ({ c with fuse := f } : Chip).r k = c.r k := rfl
@[simp] theorem core_withFuse (c : Chip) (f : Fuses) (k : Nat) : ({ c with fuse := f } : Chip).core k = c.core k := rfl

end Chip

/-! ### Every command's frame around its effect -/

/-- What a command answers when its effect on the device is `f`. -/
theorem State.on_eq (s : State) (f : Chip → Chip) :
    s.on f = .next { pending := s.pending, chip := { (f s.chip).wdtSync with fuse := s.chip.fuse } } := rfl

/-- A core-domain command, while the core domain runs. -/
theorem State.up_eq (s : State) (f : Chip → Chip) (h : s.chip.coreUp = true) (h' : s.chip.pwr.deep ≠ 2) : s.up f = s.on f := by
  simp [State.up, State.on, h, h']

end Sys2Proof.Machine
end

