-- ==== Sys2Proof/Laws/Fields.lean ====
section
/-!
SUPPORT. Fields of registers: what a field or a bit reads after a field or a bit has been written.
-/
namespace Sys2Proof.Machine

/-- A number with a field replaced, as its three parts. -/
theorem setFld_split (w lo m x : Nat) :
    w - w / 2 ^ lo % 2 ^ m * 2 ^ lo + x % 2 ^ m * 2 ^ lo = 2 ^ lo * (2 ^ m * (w / 2 ^ (lo + m)) + x % 2 ^ m) + w % 2 ^ lo := by
  have h1 := Nat.div_add_mod w (2 ^ lo)
  have h2 := Nat.div_add_mod (w / 2 ^ lo) (2 ^ m)
  rw [Nat.div_div_eq_div_mul, ← Nat.pow_add] at h2
  generalize w / 2 ^ (lo + m) = a at *
  generalize w / 2 ^ lo % 2 ^ m = f at *
  generalize w / 2 ^ lo = q at *
  generalize w % 2 ^ lo = l at *
  generalize x % 2 ^ m = y
  generalize 2 ^ m = M at *
  generalize 2 ^ lo = P at *
  subst h1 h2
  rw [Nat.mul_add, Nat.mul_add, Nat.mul_comm f P, Nat.mul_comm y P]
  omega

/-- A bit of a word whose field has been replaced. -/
theorem bit_setFld (v : BitVec 32) (hi lo x i : Nat) (h : lo ≤ hi) (h' : hi < 32) :
    bit (setFld v hi lo x) i = if lo ≤ i ∧ i ≤ hi then x.testBit (i - lo) else bit v i := by
  obtain ⟨m, hm⟩ : ∃ m, hi + 1 = lo + m := ⟨hi + 1 - lo, by omega⟩
  unfold bit setFld fld
  rw [BitVec.getLsbD_ofNat, show hi + 1 - lo = m by omega, setFld_split]
  rw [Nat.testBit_two_pow_mul_add _ (Nat.mod_lt _ (Nat.two_pow_pos lo)),
    Nat.testBit_two_pow_mul_add _ (Nat.mod_lt _ (Nat.two_pow_pos m))]
  rw [← hm]
  by_cases h1 : i < lo
  · rw [if_pos h1, if_neg (by omega), Nat.testBit_mod_two_pow]
    simp [h1, show i < 32 by omega, BitVec.getLsbD]
  · rw [if_neg h1]
    by_cases h2 : i - lo < m
    · rw [if_pos h2, if_pos (by omega), Nat.testBit_mod_two_pow]
      simp [h2, show i < 32 by omega]
    · rw [if_neg h2, if_neg (by omega), Nat.testBit_div_two_pow]
      rw [show i - lo - m + (hi + 1) = i by omega]
      by_cases h3 : i < 32
      · simp [h3, BitVec.getLsbD]
      · simp only [h3, decide_false, Bool.false_and]
        exact (BitVec.getLsbD_of_ge v i (by omega)).symm

/-- The bits of a field. -/
theorem testBit_fld {w : Nat} (v : BitVec w) (hi lo i : Nat) (h : lo ≤ hi) :
    (fld v hi lo).testBit i = (decide (i ≤ hi - lo) && bit v (i + lo)) := by
  unfold fld bit
  rw [Nat.testBit_mod_two_pow, Nat.testBit_div_two_pow]
  by_cases hi' : i ≤ hi - lo
  · simp [hi', show i < hi + 1 - lo by omega, BitVec.getLsbD]
  · simp [hi', show ¬ i < hi + 1 - lo by omega]

/-- A field that has been replaced. -/
theorem fld_setFld (v : BitVec 32) (hi lo x : Nat) (h : lo ≤ hi) (h' : hi < 32) :
    fld (setFld v hi lo x) hi lo = x % 2 ^ (hi + 1 - lo) := by
  apply Nat.eq_of_testBit_eq
  intro i
  rw [testBit_fld _ _ _ _ h, bit_setFld _ _ _ _ _ h h', Nat.testBit_mod_two_pow]
  by_cases hi' : i ≤ hi - lo
  · rw [if_pos (by omega)]; simp [hi', show i < hi + 1 - lo by omega]
  · simp [hi', show ¬ i < hi + 1 - lo by omega]

/-- A field beside the one that has been replaced. -/
theorem fld_setFld_ne (v : BitVec 32) (hi lo x hi' lo' : Nat) (h : lo ≤ hi) (h' : hi < 32) (hl : lo' ≤ hi')
    (hd : hi' < lo ∨ hi < lo') : fld (setFld v hi lo x) hi' lo' = fld v hi' lo' := by
  apply Nat.eq_of_testBit_eq
  intro i
  rw [testBit_fld _ _ _ _ hl, testBit_fld _ _ _ _ hl, bit_setFld _ _ _ _ _ h h']
  by_cases hi2 : i ≤ hi' - lo'
  · rw [if_neg (by omega)]
  · simp [hi2]

/-- A bit of a word one of whose bits has been set. -/
theorem bit_setBit (v : BitVec 32) (i j : Nat) (b : Bool) (h : i < 32) :
    bit (setBit v i b) j = if j = i then b else bit v j := by
  unfold setBit
  rw [bit_setFld _ _ _ _ _ (Nat.le_refl _) h]
  by_cases hj : j = i
  · subst hj; cases b <;> simp
  · rw [if_neg (by omega), if_neg hj]

/-- A field beside a bit that has been set. -/
theorem fld_setBit_ne (v : BitVec 32) (i hi lo : Nat) (b : Bool) (h : i < 32) (hl : lo ≤ hi) (hd : hi < i ∨ i < lo) :
    fld (setBit v i b) hi lo = fld v hi lo := fld_setFld_ne _ _ _ _ _ _ (Nat.le_refl _) h hl (by omega)

/-- A bit beside a field that has been replaced. -/
theorem bit_setFld_ne (v : BitVec 32) (hi lo x i : Nat) (h : lo ≤ hi) (h' : hi < 32) (hd : i < lo ∨ hi < i) :
    bit (setFld v hi lo x) i = bit v i := by rw [bit_setFld _ _ _ _ _ h h', if_neg (by omega)]

namespace Chip

/-! ### Fields of the register file -/

@[simp] theorem r_wf (c : Chip) (k hi lo x j : Nat) : (c.wf k hi lo x).r j = if j = k then setFld (c.r k) hi lo x else c.r j :=
  r_w _ _ _ _
@[simp] theorem r_wb (c : Chip) (k i j : Nat) (b : Bool) : (c.wb k i b).r j = if j = k then setBit (c.r k) i b else c.r j :=
  r_w _ _ _ _

theorem rb_eq (c : Chip) (k i : Nat) : c.rb k i = bit (c.r k) i := rfl
theorem rf_eq (c : Chip) (k hi lo : Nat) : c.rf k hi lo = fld (c.r k) hi lo := rfl

end Chip
end Sys2Proof.Machine
end

