-- ==== Sys2Proof/Laws/Report.lean ====
section
/-!
SUPPORT. What the reporting of a code can change: the header of a page, the error aggregator and its registers, the AON
event ring, the trace units, pending interrupts to the host, and nothing else.
-/
namespace Sys2Proof.Machine

namespace Chip

/-- `d` differs from `c` in nothing but what the reporting of codes writes. -/
structure RepOnly (c d : Chip) : Prop where
  rest : d = { c with regs := d.regs, bus := { c.bus with once := d.bus.once }, err := d.err, ev := d.ev, trace := d.trace,
                      netEv := d.netEv, msixTab := d.msixTab, out := d.out }
  regs : ∀ key, reportKey key = false → d.r key = c.r key

namespace RepOnly

theorem refl (c : Chip) : RepOnly c c := ⟨rfl, fun _ _ => rfl⟩

theorem trans {c d e : Chip} (h : RepOnly c d) (h' : RepOnly d e) : RepOnly c e := by
  refine ⟨?_, fun k hk => (h'.regs k hk).trans (h.regs k hk)⟩
  have a := h'.rest
  have b := h.rest
  rw [a, b]

end RepOnly

theorem repOnly_w (c : Chip) (k : Nat) (v : BitVec 32) (h : reportKey k = true) : RepOnly c (c.w k v) := by
  refine ⟨rfl, fun j hj => ?_⟩
  rw [r_w, if_neg]
  rintro rfl
  rw [h] at hj; cases hj

theorem repOnly_wf (c : Chip) (k hi lo x : Nat) (h : reportKey k = true) : RepOnly c (c.wf k hi lo x) := repOnly_w _ _ _ h
theorem repOnly_wb (c : Chip) (k i : Nat) (b : Bool) (h : reportKey k = true) : RepOnly c (c.wb k i b) := repOnly_w _ _ _ h
theorem repOnly_cnt (c : Chip) (k hi lo d : Nat) (h : reportKey k = true) : RepOnly c (c.cnt k hi lo d) := repOnly_w _ _ _ h
theorem repOnly_w64 (c : Chip) (k v : Nat) (h : reportKey k = true) (h' : reportKey (k + 4) = true) : RepOnly c (c.w64 k v) :=
  (repOnly_w _ _ _ h).trans (repOnly_w _ _ _ h')

theorem repKey_hdr (slot i : Nat) (h : i < 0x40) : reportKey (0x1000 * slot + i) = true := by
  unfold reportKey
  rw [show (0x1000 * slot + i) % 0x1000 = i by omega]
  simp [h]

theorem repOnly_msi (c : Chip) (fn vec : Nat) : RepOnly c (c.msi fn vec) := by
  unfold msi
  split
  · exact ⟨rfl, fun _ _ => rfl⟩
  · exact ⟨rfl, fun _ _ => rfl⟩

theorem repOnly_irqToHost (c : Chip) (slot : Nat) : RepOnly c (c.irqToHost slot) := by
  unfold irqToHost
  dsimp only
  repeat' split
  all_goals first
    | exact .refl _
    | exact repOnly_msi _ _ _
    | exact (repOnly_msi _ _ _).trans (repOnly_msi _ _ _)

theorem repOnly_setIrq (c : Chip) (slot mask : Nat) : RepOnly c (c.setIrq slot mask) := by
  unfold setIrq
  dsimp only
  have h : RepOnly c (c.w (R.H.PIRQS slot) (c.r (R.H.PIRQS slot) ||| BitVec.ofNat 32 mask)) :=
    repOnly_w _ _ _ (repKey_hdr _ _ (by decide))
  split
  · exact h.trans (repOnly_irqToHost _ _)
  · exact h

theorem repOnly_ite {c d e : Chip} {p : Prop} [Decidable p] (h : RepOnly c d) (h' : RepOnly c e) :
    RepOnly c (if p then d else e) := by split <;> assumption

theorem repOnly_errClose (c : Chip) (e : ErrEntry) : RepOnly c (c.errClose e) := by
  unfold errClose
  have h1 : RepOnly c (if c.err.log.length < 64 then { c with err := { c.err with log := c.err.log ++ [e] } }
      else ((c.wb R.ERR.ESTAT 8 true).cnt R.ERR.ELOST 15 0 1).setIrq 6 2) := by
    split
    · exact ⟨rfl, fun _ _ => rfl⟩
    · exact ((repOnly_wb _ _ _ _ (by decide)).trans (repOnly_cnt _ _ _ _ _ (by decide))).trans (repOnly_setIrq _ _ _)
  generalize (if c.err.log.length < 64 then { c with err := { c.err with log := c.err.log ++ [e] } }
      else ((c.wb R.ERR.ESTAT 8 true).cnt R.ERR.ELOST 15 0 1).setIrq 6 2) = d at h1 ⊢
  dsimp only
  have h2 := h1.trans (repOnly_wf d R.ERR.ESTAT 6 0 d.err.log.length (by decide))
  generalize d.wf R.ERR.ESTAT 6 0 d.err.log.length = d2 at h2 ⊢
  generalize d2.r (R.ERR.CRTE (e.code / 0x100 - 1)) = t
  have h3 := h2.trans (repOnly_ite (p := bit t 0 = true) (repOnly_setIrq d2 6 1) (.refl d2))
  generalize (if bit t 0 = true then d2.setIrq 6 1 else d2) = d3 at h3 ⊢
  have h4 := h3.trans (repOnly_ite (p := bit t 1 = true) (repOnly_msi d3 0 (18 + (e.code / 0x100 - 1))) (.refl d3))
  generalize (if bit t 1 = true then d3.msi 0 (18 + (e.code / 0x100 - 1)) else d3) = d4 at h4 ⊢
  have h5 := h4.trans (repOnly_ite (p := bit t 2 = true) (d := { d4 with netEv := d4.netEv ++ [e] })
    ⟨rfl, fun _ _ => rfl⟩ (.refl d4))
  generalize (if bit t 2 = true then { d4 with netEv := d4.netEv ++ [e] } else d4) = d5 at h5 ⊢
  have h6 := h5.trans (repOnly_ite (p := bit t 3 = true) (repOnly_wb d5 R.AON.FSRC 7 true (by decide)) (.refl d5))
  generalize (if bit t 3 = true then d5.wb R.AON.FSRC 7 true else d5) = d6 at h6 ⊢
  refine h6.trans ?_
  split
  · split
    · exact repOnly_msi _ _ _
    · exact .refl _
  · exact .refl _

theorem repOnly_errArrive (c : Chip) (slot code ken path addr : Nat) : RepOnly c (c.errArrive slot code ken path addr) := by
  unfold errArrive
  split
  · exact .refl _
  · dsimp only
    split
    · exact ⟨rfl, fun _ _ => rfl⟩
    · split
      · exact repOnly_errClose _ _
      · exact ⟨rfl, fun _ _ => rfl⟩

theorem repOnly_evPush (c : Chip) (slot code ken path : Nat) : RepOnly c (c.evPush slot code ken path) := by
  unfold evPush
  dsimp only
  split
  · exact ⟨rfl, fun _ _ => rfl⟩
  · exact repOnly_cnt _ _ _ _ _ (by decide)

theorem repOnly_capture (c : Chip) (slot code : Nat) (sc : Scope) (q : Req) (addr : Nat) :
    RepOnly c (c.capture slot code sc q addr) := by
  unfold capture
  dsimp only
  refine RepOnly.trans ?_ (repOnly_setIrq _ _ _)
  refine RepOnly.trans ?_ (repOnly_w _ _ _ (repKey_hdr _ _ (by decide)))
  split
  · exact repOnly_wb _ _ _ _ (repKey_hdr _ _ (by decide))
  · exact ((repOnly_w _ _ _ (repKey_hdr _ _ (by decide))).trans
      (repOnly_w64 _ _ _ (repKey_hdr _ _ (by decide)) (repKey_hdr _ 0x2C (by decide)))).trans
      (repOnly_wb _ _ _ _ (repKey_hdr _ _ (by decide)))

theorem repOnly_reportBase (c : Chip) (slot code : Nat) (sc : Scope) (q : Req) (addr : Nat) :
    RepOnly c (c.reportBase slot code sc q addr) := by
  unfold reportBase
  dsimp only
  have h := (repOnly_capture c slot code sc q addr).trans (repOnly_errArrive _ slot code q.ken q.path addr)
  split
  · exact h.trans (repOnly_evPush _ _ _ _ _)
  · exact h

theorem repOnly_onceTick (c : Chip) (code inst : Nat) : RepOnly c (c.onceTick code inst).2 := by
  unfold onceTick
  split
  · exact .refl _
  · exact ⟨rfl, fun _ _ => rfl⟩

theorem repKey_tlost (u : Nat) (h : u < 18) : reportKey (R.TRC.TLOST u) = true := by
  unfold reportKey R.TRC.TLOST
  have h1 : (0x710C + 16 * u) % 16 = 12 := by omega
  have h2 : 0x710C ≤ 0x710C + 16 * u := by omega
  have h3 : 0x710C + 16 * u < 0x7300 := by omega
  simp [h1, h3]

theorem repOnly_tracePush (c : Chip) (u : Nat) (p : Packet) (room : Nat) (h : u < 18) : RepOnly c (c.tracePush u p room) := by
  unfold tracePush
  dsimp only
  split
  · exact .refl _
  · split
    · exact ⟨rfl, fun _ _ => rfl⟩
    · have h0 : RepOnly c { c with trace := modNth (fun t => { t with lost := t.lost + 1 }) c.trace u } := ⟨rfl, fun _ _ => rfl⟩
      have h1 := h0.trans (repOnly_cnt _ (R.TRC.TLOST u) 31 0 1 (repKey_tlost u h))
      have h2 := h1.trans (repOnly_onceTick _ 0x0B44 u)
      split
      · rename_i hq; rw [hq] at h2
        exact h2.trans (repOnly_reportBase _ _ _ _ _ _)
      · rename_i hq; rw [hq] at h2; exact h2

theorem repOnly_traceAdd (c : Chip) (u typ a b : Nat) (h : u < 18) : RepOnly c (c.traceAdd u typ a b) :=
  repOnly_tracePush _ _ _ _ h

/-- What the reporting of a code can change. -/
theorem repOnly_report (c : Chip) (slot code : Nat) (sc : Scope) (q : Req) (addr : Nat) :
    RepOnly c (c.report slot code sc q addr) := by
  unfold report
  dsimp only
  split
  · exact (repOnly_reportBase _ _ _ _ _ _).trans (repOnly_traceAdd _ _ _ _ _ (by decide))
  · exact repOnly_reportBase _ _ _ _ _ _

theorem repOnly_event (c : Chip) (slot code : Nat) : RepOnly c (c.event slot code) := repOnly_report _ _ _ _ _ _

theorem repOnly_eventOnce (c : Chip) (slot code inst : Nat) : RepOnly c (c.eventOnce slot code inst) := by
  unfold eventOnce
  have h := repOnly_onceTick c code inst
  split
  · rename_i hq; rw [hq] at h; exact h.trans (repOnly_event _ _ _)
  · rename_i hq; rw [hq] at h; exact h

end Chip
end Sys2Proof.Machine
end

