-- ==== Sys2Proof/Laws/Syllable.lean ====
section
/-!
SUPPORT. What a syllable does that is the whole of its bundle and whose effects are all on registers, on a quiet core: its
registers change as its body says, and nothing else does.
-/
namespace Sys2Proof.Machine

/-- An effect that only writes registers or moves the pc. -/
def Eff.plain : Eff → Bool
  | .load .. | .store .. | .vload .. | .vstore .. | .ring .. | .attach _ | .strop .. | .mtcc _ | .waitt | .trap _ => false
  | _ => true

namespace Chip

theorem modNth_id {α : Type} (f : α → α) (d : α) (l : List α) (i : Nat) (h : f (nth d l i) = nth d l i) : modNth f l i = l := by
  induction l generalizing i with
  | nil => rfl
  | cons x r ih =>
    cases i with
    | zero => simp only [nth, List.getD_cons_zero] at h; simp [modNth, h]
    | succ i => simp only [nth, List.getD_cons_succ] at h ih; simp [modNth, ih i h]

/-- A change that leaves the core as it is leaves the device as it is. -/
theorem modCore_id (c : Chip) (k : Nat) (f : Core → Core) (h : f (c.core k) = c.core k) : c.modCore k f = c := by
  unfold modCore
  rw [modNth_id f {} c.cores k h]

theorem modNth_congr {α : Type} (f g : α → α) (d : α) (l : List α) (i : Nat) (h : f (nth d l i) = g (nth d l i)) :
    modNth f l i = modNth g l i := by
  induction l generalizing i with
  | nil => rfl
  | cons x r ih =>
    cases i with
    | zero => simp only [nth, List.getD_cons_zero] at h; simp [modNth, h]
    | succ i => simp only [nth, List.getD_cons_succ] at h ih; simp [modNth, ih i h]

theorem modCore_congr (c : Chip) (k : Nat) (f g : Core → Core) (h : f (c.core k) = g (c.core k)) : c.modCore k f = c.modCore k g := by
  unfold modCore
  rw [modNth_congr f g {} c.cores k h]

theorem modCore_modCore (c : Chip) (k : Nat) (f g : Core → Core) : (c.modCore k f).modCore k g = c.modCore k (g ∘ f) := by
  unfold modCore
  simp only
  congr 1
  induction c.cores generalizing k with
  | nil => rfl
  | cons x r ih => cases k <;> simp [modNth, *]

/-- A quiet core, point by point. -/
structure Quiet (c : Chip) (k : Nat) : Prop where
  up : c.coreUp = true
  deep : c.pwr.deep = 0
  surv : (!c.surv k && decide (k < 16)) = false
  lt : k < 17
  len : c.cores.length = 17
  prog : c.inProgram k (c.core k).pc = true
  run : (c.core k).run = .run
  bundle : (c.core k).bundle = []
  loads : (c.core k).loads = []
  posted : (c.core k).posted = []
  busErrs : (c.core k).busErrs = []
  badPar : (c.core k).badPar = []
  loopDue : (c.core k).loopDue = false
  stopReq : (c.core k).stopReq = false
  takenBr : (c.core k).takenBr = false
  inString : (c.core k).inString = false
  target : (c.core k).target = none
  repst : (c.core k).repst = 0
  frz : c.coreFrz k = false
  halt : c.haltCause k = 0
  step : c.dbg.stepping.contains k = false
  trc : c.rf (R.TRC.TCFG k) 1 0 ≠ 2
  von : k = 16 ∨ c.vOn k = true
  held : ∀ j, j < 17 → (c.core j).held = false
  cust : ∀ t, t < 16 → (c.custSt t).queue = [] ∧ (c.custSt t).ntf = []

theorem quiet_iff (c : Chip) (k : Nat) (hk : k < 17) : c.quiet k = true ↔ Quiet c k := by
  unfold quiet
  simp only [Bool.and_eq_true, beq_iff_eq, List.isEmpty_iff, Bool.not_eq_true', bne_iff_ne, List.all_eq_true, List.mem_range,
    Option.isNone_iff_eq_none, Bool.or_eq_true]
  constructor
  · intro h
    obtain ⟨⟨⟨⟨⟨⟨⟨⟨⟨⟨⟨⟨⟨⟨⟨⟨⟨⟨⟨⟨⟨⟨⟨h1, h2⟩, h3⟩, h4⟩, h5⟩, h6⟩, h7⟩, h8⟩, h9⟩, h10⟩, h11⟩, h12⟩, h13⟩, h14⟩, h15⟩, h16⟩, h17⟩, h18⟩, h19⟩, h20⟩, h21⟩, h22⟩, h23⟩, h24⟩ := h
    refine ⟨h1, h2, ?_, hk, h4, h5, h6, h7, h8, h9, h10, h11, h12, h13, h14, h15, h16, h17, h18, h19, h20, h21, h22, h23, h24⟩
    rcases h3 with rfl | h3
    · simp
    · simp [h3]
  · rintro ⟨h1, h2, h3, _, h4, h5, h6, h7, h8, h9, h10, h11, h12, h13, h14, h15, h16, h17, h18, h19, h20, h21, h22, h23, h24⟩
    refine ⟨⟨⟨⟨⟨⟨⟨⟨⟨⟨⟨⟨⟨⟨⟨⟨⟨⟨⟨⟨⟨⟨⟨h1, h2⟩, ?_⟩, h4⟩, h5⟩, h6⟩, h7⟩, h8⟩, h9⟩, h10⟩, h11⟩, h12⟩, h13⟩, h14⟩, h15⟩, h16⟩, h17⟩, h18⟩, h19⟩, h20⟩, h21⟩, h22⟩, h23⟩, h24⟩
    by_cases hk16 : k = 16
    · exact .inl hk16
    · right
      have : k < 16 := by omega
      simpa [this] using h3

theorem syncCore_quiet {c : Chip} {k : Nat} (hr : (c.core k).run = .run) (hs : (c.core k).stopReq = false)
    (hf : c.coreFrz k = false) : c.syncCore k = c := by
  unfold syncCore
  simp [hr, hs, hf]

theorem boundary_quiet {c : Chip} {k : Nat} (q : Quiet c k) : c.boundary k = c := by
  unfold boundary
  have h1 : c.modCore k Core.loopBack = c := modCore_id _ _ _ (by simp [Core.loopBack, q.loopDue])
  simp [q.bundle, q.run, h1, syncCore_quiet q.run q.stopReq q.frz, q.frz, q.stopReq, q.halt, takeBusErr, q.busErrs]

theorem issues_quiet {c : Chip} {k : Nat} (q : Quiet c k) : c.coreIssues k = true := by
  simp [coreIssues, q.run, q.frz, q.stopReq, q.halt]


theorem meter_eq (c : Chip) (s cls k n : Nat) : c.meter s cls k n = { c with elg := (c.meter s cls k n).elg } := by
  unfold meter
  split
  · rfl
  · simp only [charge]

theorem plain_any (effs : List Eff) (h : ∀ e ∈ effs, e.plain = true) (p : Eff → Bool) (hp : ∀ e, e.plain = true → p e = false) :
    effs.any p = false := by
  simp only [List.any_eq_false]
  intro e he; simp [hp e (h e he)]

theorem plain_findSome {α : Type} (effs : List Eff) (h : ∀ e ∈ effs, e.plain = true) (p : Eff → Option α)
    (hp : ∀ e, e.plain = true → p e = none) : effs.findSome? p = none := by
  simp only [List.findSome?_eq_none_iff]
  intro e he; exact hp e (h e he)

theorem rank_plain {e : Eff} (h : e.plain = true) : accessRank e = 4 := by
  cases e <;> first | exact rfl | exact (Bool.false_ne_true h).elim

theorem doAccesses_plain (c : Chip) (k : Nat) (effs : List Eff) (h : ∀ e ∈ effs, e.plain = true) :
    c.doAccesses k effs = .ok c := by
  have hr : ∀ r : Nat, r < 4 → effs.filter (fun e => accessRank e == r) = [] := by
    intro r hr
    rw [List.filter_eq_nil_iff]
    intro e he
    rw [rank_plain (h e he), beq_iff_eq]
    omega
  unfold doAccesses
  simp only [List.foldlM_cons, List.foldlM_nil, hr 0 (by decide), hr 1 (by decide), hr 2 (by decide), hr 3 (by decide)]
  rfl

theorem inProgram_of_regs {c d : Chip} (h : d.regs = c.regs) (k : Nat) (a : BitVec 48) : d.inProgram k a = c.inProgram k a := by
  unfold inProgram r64 rf r
  rw [h]

theorem bundleExc_one {c : Chip} {k : Nat} {r : SylRec} (hp : c.inProgram k (c.core k).pc = true) (hb : (c.core k).bundle = [r])
    (hran : r.ran = true) (hexc : r.exc = none) (hrep : r.rep = false) (ht : (c.core k).takenBr = false)
    (htg : (c.core k).target = none) (hst : (c.core k).repst = 0) : c.bundleExc k = none := by
  have hl : (c.core k).lastTwo (c.core k).pc.toNat = false := by
    simp [Core.lastTwo, Core.inBlock, Core.act, hst]
  unfold bundleExc
  simp only [hp, Bool.not_true, Bool.false_eq_true, if_false, hb, hl, ht, htg]
  simp only [List.findSome?_eq_none_iff]
  intro s hs'
  simp [hran, hrep]
  intro a
  rw [hexc]


theorem bundleEffs_one {x : Core} {r : SylRec} (hb : x.bundle = [r]) (hs : r.slot < 4) (hran : r.ran = true) :
    bundleEffs x = r.effs := by
  unfold bundleEffs
  rw [hb]
  have : ∀ s, (([r].filter (fun q => q.slot == s && q.ran)).flatMap (·.effs)) = if r.slot = s then r.effs else [] := by
    intro s
    by_cases h : r.slot = s <;> simp [h, hran]
  simp only [this, List.flatMap_cons, List.flatMap_nil]
  have : r.slot = 0 ∨ r.slot = 1 ∨ r.slot = 2 ∨ r.slot = 3 := by omega
  rcases this with h | h | h | h <;> simp [h]

theorem meterBundle_eq (c : Chip) (k b : Nat) : c.meterBundle k b = { c with elg := (c.meterBundle k b).elg } := by
  unfold meterBundle
  split
  · rw [meter_eq]
  · rw [meter_eq, meter_eq]

theorem wakeFor_on {c : Chip} {k t b : Nat} (h : b = 0 ∨ c.vOn k = true) : c.wakeFor k t b = (c, t) := by
  unfold wakeFor; rw [if_pos h]

theorem timed_arch (x : Core) (t last b e : Nat) (v : Bool) (l : List (Nat × Nat × Nat)) (h : x.loads = []) :
    (timed x t last b e v l).arch = x.arch := by
  simp [timed, Core.arch, h]

/-- What the timing of a bundle changes: the time, the meters and its core's issue bookkeeping. -/
theorem timeBundle_spec (c : Chip) (k : Nat) (effs : List Eff) (hv : beatsOf (c.core k) = 0 ∨ c.vOn k = true)
    (hl : (c.core k).loads = []) :
    ∃ (n : Nat) (e : Energy) (f : Core → Core), c.timeBundle k effs = { c with now := n, elg := e, cores := modNth f c.cores k } ∧
      (f (c.core k)).arch = (c.core k).arch := by
  unfold timeBundle
  dsimp only
  rw [wakeFor_on hv, modCore, meterBundle_eq]
  exact ⟨_, _, _, rfl, timed_arch _ _ _ _ _ _ _ hl⟩

/-- Effects of registers do not see the issue bookkeeping. -/
theorem apply_arch (x : Core) (n : Nat) (e : Eff) : (x.apply n e).arch = (x.arch).apply n e := by
  cases e <;> try rfl
  · rename_i r v; simp only [Core.apply, Core.setP]; split <;> rfl
  · rename_i r m v; simp only [Core.apply]; split <;> rfl
  · rename_i l m n; simp only [Core.apply]; split <;> rfl
  · rename_i n v; simp only [Core.apply]; unfold Core.mtc; split <;> rfl

theorem foldl_apply_arch (effs : List Eff) (x : Core) (n : Nat) :
    (effs.foldl (fun x e => x.apply n e) x).arch = effs.foldl (fun x e => x.apply n e) x.arch := by
  induction effs generalizing x with
  | nil => rfl
  | cons e r ih => rw [List.foldl_cons, List.foldl_cons, ih, apply_arch]


/-- What register effects and the pc leave alone of a core's issue. -/
def hid (x : Core) : CoreRun × List Load × Bool × Bool × List BusErr := (x.run, x.loads, x.stopReq, x.held, x.busErrs)

theorem hid_apply (x : Core) (n : Nat) (e : Eff) : hid (x.apply n e) = hid x := by
  cases e <;> try rfl
  · rename_i r v; simp only [Core.apply, Core.setP]; split <;> rfl
  · rename_i r m v; simp only [Core.apply]; split <;> rfl
  · rename_i l m n; simp only [Core.apply]; split <;> rfl
  · rename_i n v; simp only [Core.apply]; unfold Core.mtc; split <;> rfl

theorem hid_foldl (effs : List Eff) (x : Core) (n : Nat) : hid (effs.foldl (fun x e => x.apply n e) x) = hid x := by
  induction effs generalizing x with
  | nil => rfl
  | cons e r ih => rw [List.foldl_cons, ih, hid_apply]

theorem leaveBlocks_arch (x : Core) (a b : Nat) : (x.leaveBlocks a b).arch = x.arch.leaveBlocks a b := by
  unfold Core.leaveBlocks
  induction List.range 2 generalizing x with
  | nil => rfl
  | cons l r ih =>
    rw [List.foldl_cons, List.foldl_cons, ih]
    congr 1
    have : x.arch.inBlock l a = x.inBlock l a ∧ x.arch.inBlock l b = x.inBlock l b := ⟨rfl, rfl⟩
    rw [this.1, this.2]
    split <;> rfl

theorem hid_leaveBlocks (x : Core) (a b : Nat) : hid (x.leaveBlocks a b) = hid x := by
  unfold Core.leaveBlocks
  induction List.range 2 generalizing x with
  | nil => rfl
  | cons l r ih =>
    rw [List.foldl_cons, ih]
    split <;> rfl

theorem nextPc_arch (x : Core) (effs : List Eff) : (nextPc x effs).arch = nextPc x.arch effs := by
  unfold nextPc
  dsimp only
  split
  · rfl
  · rw [show x.arch.target = x.target from rfl]
    split
    · rw [show x.arch.brPc = x.brPc from rfl, ← leaveBlocks_arch]; rfl
    · split
      · rfl
      · split <;> rfl

theorem hid_nextPc (x : Core) (effs : List Eff) : hid (nextPc x effs) = hid x := by
  unfold nextPc
  dsimp only
  split
  · rfl
  · split
    · exact hid_leaveBlocks x _ _
    · split
      · rfl
      · split <;> rfl

theorem retired_arch (x : Core) (n : Nat) (effs : List Eff) (h : x.run = .run) :
    (retired x n effs).arch = nextPc (effs.foldl (fun x e => x.apply n e) x.arch) effs := by
  rw [← foldl_apply_arch, ← nextPc_arch]
  have h1 : (nextPc (effs.foldl (fun x e => x.apply n e) x) effs).run = .run := by
    have := congrArg (·.1) ((hid_nextPc (effs.foldl (fun x e => x.apply n e) x) effs).trans (hid_foldl effs x n))
    exact this.trans h
  unfold retired
  rw [h]
  generalize nextPc (effs.foldl (fun x e => x.apply n e) x) effs = y at h1 ⊢
  cases y
  simp only at h1
  subst h1
  rfl

theorem hid_retired (x : Core) (n : Nat) (effs : List Eff) (h : x.run = .run) :
    hid (retired x n effs) = (.run, x.loads, x.stopReq, false, x.busErrs) := by
  have h1 := (hid_nextPc (effs.foldl (fun x e => x.apply n e) x) effs).trans (hid_foldl effs x n)
  simp only [hid, h, Prod.mk.injEq] at h1
  unfold retired hid
  simp [h, h1.2.1, h1.2.2.1, h1.2.2.2.2]


/-- The cores differ; everything else but the time and the meters is as it was. -/
structure Moved (c d : Chip) (k : Nat) : Prop where
  rest : d = { c with now := d.now, elg := d.elg, cores := d.cores }
  others : ∀ j, j ≠ k → d.core j = c.core j
  len : d.cores.length = c.cores.length

theorem Moved.trans {c d e : Chip} {k : Nat} (h : Moved c d k) (h' : Moved d e k) : Moved c e k := by
  refine ⟨?_, fun j hj => (h'.others j hj).trans (h.others j hj), h'.len.trans h.len⟩
  have a := h'.rest
  have b := h.rest
  rw [a, b]

theorem moved_modCore (c : Chip) (k : Nat) (f : Core → Core) : Moved c (c.modCore k f) k :=
  ⟨rfl, fun _ hj => by rw [core_modCore, if_neg (fun h => hj h.1)], length_modNth _ _ _⟩

theorem moved_timed (c : Chip) (k n : Nat) (e : Energy) (f : Core → Core) :
    Moved c { c with now := n, elg := e, cores := modNth f c.cores k } k :=
  ⟨rfl, fun _ hj => (nth_modNth _ _ _ _ _).trans (if_neg (fun h => hj h.1)), length_modNth _ _ _⟩

theorem Moved.coreFrz {c d : Chip} {k : Nat} (h : Moved c d k) : d.coreFrz k = c.coreFrz k := by rw [h.rest]; rfl
theorem Moved.r {c d : Chip} {k : Nat} (h : Moved c d k) (j : Nat) : d.r j = c.r j := by rw [h.rest]; rfl

theorem foldl_mtcc (k : Nat) (c : Chip) (effs : List Eff) (he : ∀ e ∈ effs, e.plain = true) :
    effs.foldl (mtccStep k) c = c := by
  induction effs with
  | nil => rfl
  | cons e r ih =>
    have hp := he e (List.mem_cons_self ..)
    have : mtccStep k c e = c := by
      cases e <;> first | rfl | exact (Bool.false_ne_true hp).elim
    rw [List.foldl_cons, this]
    exact ih (fun e' h' => he e' (List.mem_cons_of_mem _ h'))

/-- The last syllable of a bundle of register effects alone, on a quiet core. -/
theorem endBundle_plain {c : Chip} {k : Nat} {effs : List Eff} (hk : k < c.cores.length) (hv : beatsOf (c.core k) = 0 ∨ c.vOn k = true)
    (hrun : (c.core k).run = .run) (hl : (c.core k).loads = []) (hbp : (c.core k).badPar = [])
    (hs : (c.core k).stopReq = false) (hf : c.coreFrz k = false) (hst : c.dbg.stepping.contains k = false)
    (ht : c.rf (R.TRC.TCFG k) 1 0 ≠ 2) (he : ∀ e ∈ effs, e.plain = true) :
    ∃ n, Moved c (c.endBundle k 0 effs) k ∧
      ((c.endBundle k 0 effs).core k).arch = nextPc (effs.foldl (fun x e => x.apply n e) (c.core k).arch) effs ∧
      ((c.endBundle k 0 effs).core k).held = false := by
  obtain ⟨n, e, f, h1, h2⟩ := timeBundle_spec c k effs hv hl
  unfold endBundle
  dsimp only
  have hbad : readsBad (c.core k) effs = false := by
    unfold readsBad
    rw [hbp]
    simp only [List.any_eq_false]
    intro e _
    cases e <;> simp
  rw [hbad, h1]
  have m1 := moved_timed c k n e f
  have hc1 : ({ c with now := n, elg := e, cores := modNth f c.cores k } : Chip).core k = f (c.core k) :=
    (nth_modNth _ _ _ _ _).trans (if_pos ⟨rfl, hk⟩)
  generalize ({ c with now := n, elg := e, cores := modNth f c.cores k } : Chip) = d at m1 hc1 ⊢
  have hrun1 : (d.core k).run = .run := by
    rw [hc1]; have := congrArg Core.run h2; exact this.trans hrun
  have hl1 : (d.core k).loads = [] := by
    rw [hc1]; have := congrArg Core.loads h2; exact this.trans hl
  have hs1 : (d.core k).stopReq = false := by
    rw [hc1]; have := congrArg Core.stopReq h2; exact this.trans hs
  generalize (d.core k).issued = cy
  have m2 := m1.trans (moved_modCore d k (fun x => retired x cy effs))
  have hc2 : (d.modCore k (fun x => retired x cy effs)).core k = retired (d.core k) cy effs := by
    rw [core_modCore, if_pos ⟨rfl, by rw [m1.len]; exact hk⟩]
  have hh := hid_retired (d.core k) cy effs hrun1
  have ha := retired_arch (d.core k) cy effs hrun1
  rw [← hc2] at hh ha
  generalize d.modCore k (fun x => retired x cy effs) = d2 at m2 hh ha ⊢
  simp only [hid, Prod.mk.injEq] at hh
  obtain ⟨hrun2, hl2, hs2, hheld, _⟩ := hh
  rw [hl1] at hl2
  rw [hs1] at hs2
  have e1 : effs.foldl (mtccStep k) d2 = d2 := foldl_mtcc k d2 effs he
  rw [e1]
  have e2 : d2.checkPar k false = d2 := rfl
  rw [e2]
  have e3 : d2.ageLoads k 0 = d2 := by
    unfold ageLoads
    apply modCore_id
    simp [hl2]
    generalize d2.core k = y at hl2
    cases y
    simp only at hl2
    subst hl2
    rfl
  rw [e3]
  have e4 : effs.any (· == .waitt) = false := plain_any effs he _ (fun e he => by
    cases e <;> first | rfl | exact (Bool.false_ne_true he).elim)
  rw [e4]
  have e5 : d2.doTrap k effs = d2 := by
    unfold doTrap
    rw [plain_findSome effs he _ (fun e he => by cases e <;> first | rfl | exact (Bool.false_ne_true he).elim)]
  rw [if_neg (by decide), e5]
  have e6 : d2.traceFlow k effs cy = d2 := by
    unfold traceFlow
    have : d2.rf (R.TRC.TCFG k) 1 0 = c.rf (R.TRC.TCFG k) 1 0 := by rw [rf, rf, m2.r]
    rw [this, if_pos ht]
  rw [e6]
  have e7 : d2.stepEnd k = d2 := by
    unfold stepEnd
    have : d2.dbg.stepping.contains k = false := by rw [m2.rest]; exact hst
    simp only [this, Bool.not_false, Bool.true_or, if_true]
  rw [e7, syncCore_quiet hrun2 hs2 (m2.coreFrz.trans hf)]
  refine ⟨cy, m2, ?_, hheld⟩
  rw [ha, hc1, h2]


theorem custRun_idle {c : Chip} {t : Nat} (h : (c.custSt t).queue = []) (h' : (c.custSt t).ntf = []) : c.custRun t = c := by
  unfold custRun
  rw [h, h']
  rfl

theorem forN_id {α : Type} (n : Nat) (f : Nat → α → α) (a : α) (h : ∀ i, i < n → f i a = a) : forN n f a = a := by
  unfold forN
  have : ∀ l : List Nat, (∀ i ∈ l, i < n) → l.foldl (fun x i => f i x) a = a := by
    intro l hl
    induction l with
    | nil => rfl
    | cons i r ih =>
      rw [List.foldl_cons, h i (hl i (List.mem_cons_self ..))]
      exact ih (fun j hj => hl j (List.mem_cons_of_mem _ hj))
  exact this _ (fun i hi => List.mem_range.1 hi)

theorem settle_quiet {c : Chip} (hh : ∀ j, j < 17 → (c.core j).held = false)
    (hc : ∀ t, t < 16 → (c.custSt t).queue = [] ∧ (c.custSt t).ntf = []) : c.settle = c := by
  unfold settle
  have h1 : forN 16 (fun t c => c.custRun t) c = c := forN_id _ _ _ (fun t ht => custRun_idle (hc t ht).1 (hc t ht).2)
  dsimp only
  rw [h1]
  apply forN_id
  intro k hk
  simp [hh k hk]

/-- A bundle of one syllable whose effects are all on registers, on a quiet core. -/
theorem closeBundle_plain {c : Chip} {k : Nat} {r : SylRec} (q : Quiet c k) (hs : r.slot < 4) (hran : r.ran = true)
    (hexc : r.exc = none) (hrep : r.rep = false) (hb : r.beats = 0 ∨ c.vOn k = true) (he : ∀ e ∈ r.effs, e.plain = true) :
    ∃ n, Moved c ((c.modCore k fun x => { x with bundle := [r] }).closeBundle k) k ∧
      ((((c.modCore k fun x => { x with bundle := [r] }).closeBundle k).core k).arch =
        nextPc (r.effs.foldl (fun x e => x.apply n e) (c.core k).arch) r.effs) ∧
      (((c.modCore k fun x => { x with bundle := [r] }).closeBundle k).core k).held = false := by
  have hk : k < c.cores.length := by rw [q.len]; exact q.lt
  have m1 := moved_modCore c k (fun x => { x with bundle := [r] })
  have hc1 : (c.modCore k fun x => { x with bundle := [r] }).core k = { c.core k with bundle := [r] } := by
    rw [core_modCore, if_pos ⟨rfl, hk⟩]
  have hp1 : (c.modCore k fun x => { x with bundle := [r] }).inProgram k (c.core k).pc = true :=
    (inProgram_of_regs rfl k _).trans q.prog
  have hv1 : (c.modCore k fun x => { x with bundle := [r] }).vOn k = c.vOn k := rfl
  have hst1 : (c.modCore k fun x => { x with bundle := [r] }).dbg.stepping.contains k = false := q.step
  generalize (c.modCore k fun x => { x with bundle := [r] }) = d at m1 hc1 hp1 hv1 hst1 ⊢
  have hbe : d.bundleExc k = none := by
    apply bundleExc_one (r := r) _ _ hran hexc hrep
    · rw [hc1]; exact q.takenBr
    · rw [hc1]; exact q.target
    · rw [hc1]; exact q.repst
    · rw [hc1]; exact hp1
    · rw [hc1]
  have heff : bundleEffs (d.core k) = r.effs := bundleEffs_one (by rw [hc1]) hs hran
  unfold closeBundle
  rw [hbe]
  dsimp only
  rw [heff]
  have e1 : r.effs.any (d.meetsFull k) = false :=
    plain_any _ he _ (fun e he => by cases e <;> first | rfl | exact (Bool.false_ne_true he).elim)
  have e2 : (d.core k).posted.isEmpty = true := by rw [hc1]; simp [q.posted]
  have e3 : stringOf r.effs = none :=
    plain_findSome _ he _ (fun e he => by cases e <;> first | rfl | exact (Bool.false_ne_true he).elim)
  rw [e1, e2, e3, doAccesses_plain _ _ _ he]
  simp only [Bool.not_true, Bool.and_false, Bool.or_self, Bool.false_eq_true, if_false]
  have e4 : (d.core k).loads.length = 0 := by rw [hc1]; simp [q.loads]
  rw [e4]
  have hbeats : beatsOf (d.core k) = r.beats := by rw [hc1]; simp [beatsOf]
  obtain ⟨n, m, a, hd⟩ := endBundle_plain (c := d) (k := k) (effs := r.effs) (by rw [m1.len]; exact hk)
    (by rw [hbeats, hv1]; exact hb) (by rw [hc1]; exact q.run) (by rw [hc1]; exact q.loads) (by rw [hc1]; exact q.badPar)
    (by rw [hc1]; exact q.stopReq) (m1.coreFrz.trans q.frz) hst1 (by rw [rf, m1.r]; exact q.trc) he
  refine ⟨n, m1.trans m, ?_, hd⟩
  rw [a, hc1]
  rfl

/-- A syllable that is its whole bundle, and whose effects are all on registers. -/
theorem syl_plain {c : Chip} {h : Syl} {slots : List Slot} {onCC : Bool} {body : Core → Body} (ha : c.alone h slots = true)
    (hcc : h.core.val ≠ 16 ∨ onCC = true) (hok : (body (c.core h.core.val)).ok = true) (hav : (body (c.core h.core.val)).argOk = true)
    (hu : (body (c.core h.core.val)).user = true ∨ (c.core h.core.val).priv = true)
    (hbad : (body (c.core h.core.val)).bad = none) (hrep : (body (c.core h.core.val)).rep = false)
    (hb : (body (c.core h.core.val)).beats = 0 ∨ h.core.val ≠ 16)
    (he : ∀ e ∈ (body (c.core h.core.val)).effs, e.plain = true) :
    ∃ n, Moved c (c.syl h slots onCC body) h.core.val ∧
      ((c.syl h slots onCC body).core h.core.val).arch =
        nextPc ((body (c.core h.core.val)).effs.foldl (fun x e => x.apply n e) (c.core h.core.val).arch)
          (body (c.core h.core.val)).effs := by
  unfold alone at ha
  simp only [Bool.and_eq_true, List.isEmpty_iff] at ha
  obtain ⟨⟨⟨⟨⟨⟨hq, hsl⟩, hrsv⟩, hlast⟩, hup⟩, hg⟩, hrun⟩ := ha
  have q := (quiet_iff c h.core.val h.core.isLt).1 hq
  have hlegal : sylLegal h slots onCC (body (c.core h.core.val)) = true := by
    unfold sylLegal
    simp only [hsl, hrsv, hok, hg, Bool.and_true, Bool.true_and]
    rcases hcc with hcc | hcc <;> simp [hcc]
  have hguard : sylGuard (c.core h.core.val) h = true := hrun
  have hexc : sylExc (c.core h.core.val) h slots onCC (body (c.core h.core.val)) = none := by
    unfold sylExc
    rw [hlegal, hguard, hbad, hav]
    rcases hu with hu | hu <;> simp [hu]
  unfold syl
  dsimp only
  rw [q.surv, boundary_quiet q, issues_quiet q, hlast]
  simp only [Bool.false_eq_true, if_false, Bool.not_true, if_true]
  have hmod : ∀ r : SylRec, (c.modCore h.core.val fun x => joined x r h.upset)
      = (c.modCore h.core.val fun x => { x with bundle := [r] }) := by
    intro r
    apply modCore_congr
    simp [joined, q.bundle, hup]
  rw [hmod]
  obtain ⟨n, m, a, hd⟩ := closeBundle_plain (c := c) (k := h.core.val)
    (r := sylRec (c.core h.core.val) h slots onCC (body (c.core h.core.val)))
    q (by show slotNum h.slot < 4; cases h.slot <;> decide) (by simp [sylRec, hlegal, hguard]) hexc hrep (by
      simp only [sylRec, hlegal, if_true]
      rcases hb with hb | hb
      · exact .inl hb
      · rcases q.von with hv | hv
        · exact absurd hv hb
        · exact .inr hv) (by simpa [sylRec, hlegal, hguard] using he)
  have heffs : (sylRec (c.core h.core.val) h slots onCC (body (c.core h.core.val))).effs = (body (c.core h.core.val)).effs := by
    simp [sylRec, hlegal, hguard]
  rw [heffs] at a
  generalize (c.modCore h.core.val fun x => { x with bundle := [sylRec (c.core h.core.val) h slots onCC (body (c.core h.core.val))] }).closeBundle h.core.val = d at m a hd ⊢
  have hset : d.settle = d := by
    apply settle_quiet
    · intro j hj
      by_cases hjk : j = h.core.val
      · rw [hjk]; exact hd
      · rw [m.others j hjk]; exact q.held j hj
    · intro t ht
      have : d.custSt t = c.custSt t := by rw [m.rest]; rfl
      rw [this]; exact q.cust t ht
  rw [hset]
  exact ⟨n, m, a⟩

end Chip

/-- A syllable that is its whole bundle, and whose effects are all on registers: its command. -/
theorem up_syl_plain (s : State) (i : Instr) {h : Syl} {slots : List Slot} {onCC : Bool} {body : Core → Body} (f : Core → Core)
    (hi : exec i s = s.up fun c => c.syl h slots onCC body) (ha : s.chip.alone h slots = true)
    (hcc : h.core.val ≠ 16 ∨ onCC = true) (hok : (body (s.chip.core h.core.val)).ok = true)
    (hav : (body (s.chip.core h.core.val)).argOk = true)
    (hu : (body (s.chip.core h.core.val)).user = true ∨ (s.chip.core h.core.val).priv = true)
    (hbad : (body (s.chip.core h.core.val)).bad = none) (hrep : (body (s.chip.core h.core.val)).rep = false)
    (hb : (body (s.chip.core h.core.val)).beats = 0 ∨ h.core.val ≠ 16)
    (he : ∀ e ∈ (body (s.chip.core h.core.val)).effs, e.plain = true)
    (hf : ∀ n, Chip.nextPc ((body (s.chip.core h.core.val)).effs.foldl (fun x e => x.apply n e) (s.chip.core h.core.val))
      (body (s.chip.core h.core.val)).effs = f (s.chip.core h.core.val)) :
    Runs i s fun d => Completes s.chip d h.core.val f := by
  have hq : s.chip.quiet h.core.val = true := by
    unfold Chip.alone at ha
    simp only [Bool.and_eq_true] at ha
    exact ha.1.1.1.1.1.1
  have q := (Chip.quiet_iff _ _ h.core.isLt).1 hq
  obtain ⟨n, m, a⟩ := Chip.syl_plain ha hcc hok hav hu hbad hrep hb he
  refine ⟨_, hi.trans ((State.up_eq s _ q.up (by rw [q.deep]; decide)).trans (State.on_eq _ _)), rfl, ?_, ?_, ?_⟩
  · simp only [Chip.core_withFuse, Chip.core_wdtSync]
    rw [a, ← hf n, ← Chip.foldl_apply_arch, ← Chip.nextPc_arch]
  · intro j hj
    simp only [Chip.core_withFuse, Chip.core_wdtSync]
    exact m.others j hj
  · rw [Chip.wdtSync_eq, m.rest]

/-! ### Effects that leave the pc to move on -/

/-- An effect that writes registers other than the pc and the repeat levels. -/
def Eff.seq : Eff → Bool
  | .branch _ | .eret | .nret | .repb .. | .mtc .. => false
  | e => e.plain

theorem Eff.seq_plain {e : Eff} (h : Eff.seq e = true) : e.plain = true := by
  cases e <;> first | rfl | exact h

theorem seq_fields (x : Core) (n : Nat) (e : Eff) (h : Eff.seq e = true) :
    (x.apply n e).target = x.target ∧ (x.apply n e).repst = x.repst ∧ (x.apply n e).loopDue = x.loopDue ∧ (x.apply n e).pc = x.pc := by
  cases e <;> try exact ⟨rfl, rfl, rfl, rfl⟩
  · rename_i r v; simp only [Core.apply, Core.setP]; split <;> exact ⟨rfl, rfl, rfl, rfl⟩
  · rename_i r m v; simp only [Core.apply]; split <;> exact ⟨rfl, rfl, rfl, rfl⟩
  · exact (Bool.false_ne_true h).elim
  · exact (Bool.false_ne_true h).elim

theorem seq_foldl (effs : List Eff) (x : Core) (n : Nat) (h : ∀ e ∈ effs, Eff.seq e = true) :
    (effs.foldl (fun x e => x.apply n e) x).target = x.target ∧ (effs.foldl (fun x e => x.apply n e) x).repst = x.repst ∧
      (effs.foldl (fun x e => x.apply n e) x).loopDue = x.loopDue ∧ (effs.foldl (fun x e => x.apply n e) x).pc = x.pc := by
  induction effs generalizing x with
  | nil => exact ⟨rfl, rfl, rfl, rfl⟩
  | cons e r ih =>
    obtain ⟨a, b, c, d⟩ := ih (x.apply n e) (fun e' h' => h e' (List.mem_cons_of_mem _ h'))
    obtain ⟨a', b', c', d'⟩ := seq_fields x n e (h e (List.mem_cons_self ..))
    exact ⟨a.trans a', b.trans b', c.trans c', d.trans d'⟩

theorem seq_findSome {α : Type} (effs : List Eff) (h : ∀ e ∈ effs, Eff.seq e = true) (p : Eff → Option α)
    (hp : ∀ e, Eff.seq e = true → p e = none) : effs.findSome? p = none := by
  simp only [List.findSome?_eq_none_iff]
  intro e he; exact hp e (h e he)

theorem nextPc_seq (effs : List Eff) (y : Core) (h : ∀ e ∈ effs, Eff.seq e = true) (ht : y.target = none) (hr : y.repst = 0)
    (hl : y.loopDue = false) : Chip.nextPc y effs = y.next := by
  unfold Chip.nextPc
  dsimp only
  rw [seq_findSome effs h _ (fun e he => by cases e <;> first | rfl | exact (Bool.false_ne_true he).elim), ht]
  dsimp only
  rw [seq_findSome effs h _ (fun e he => by cases e <;> first | rfl | exact (Bool.false_ne_true he).elim)]
  dsimp only
  rw [seq_findSome effs h _ (fun e he => by cases e <;> first | rfl | exact (Bool.false_ne_true he).elim)]
  dsimp only
  have : (List.range 2).any (fun l => y.act l && y.LE l == y.pc.toNat) = false := by
    simp [Core.act, hr]
  rw [this]
  cases y
  simp only at ht hl
  subst ht hl
  rfl

theorem quiet_of_alone {s : State} {h : Syl} {l : List Slot} (ha : s.chip.alone h l = true) : Chip.Quiet s.chip h.core.val := by
  unfold Chip.alone at ha
  simp only [Bool.and_eq_true] at ha
  exact (Chip.quiet_iff _ _ h.core.isLt).1 ha.1.1.1.1.1.1

/-- A syllable alone in its bundle whose effects write registers in sequence. -/
theorem up_syl_seq (s : State) (i : Instr) {h : Syl} {slots : List Slot} {onCC : Bool} {body : Core → Body} (f : Core → Core)
    (hi : exec i s = s.up fun c => c.syl h slots onCC body) (ha : s.chip.alone h slots = true)
    (hcc : h.core.val ≠ 16 ∨ onCC = true) (hok : (body (s.chip.core h.core.val)).ok = true)
    (hav : (body (s.chip.core h.core.val)).argOk = true)
    (hu : (body (s.chip.core h.core.val)).user = true ∨ (s.chip.core h.core.val).priv = true)
    (hbad : (body (s.chip.core h.core.val)).bad = none) (hrep : (body (s.chip.core h.core.val)).rep = false)
    (hb : (body (s.chip.core h.core.val)).beats = 0 ∨ h.core.val ≠ 16)
    (he : ∀ e ∈ (body (s.chip.core h.core.val)).effs, Eff.seq e = true)
    (hf : ∀ n, ((body (s.chip.core h.core.val)).effs.foldl (fun x e => x.apply n e) (s.chip.core h.core.val)).next = f (s.chip.core h.core.val)) :
    Runs i s fun d => Completes s.chip d h.core.val f := by
  have q := quiet_of_alone ha
  refine up_syl_plain s i f hi ha hcc hok hav hu hbad hrep hb (fun e h' => Eff.seq_plain (he e h')) (fun n => ?_)
  obtain ⟨a, b, c, _⟩ := seq_foldl (body (s.chip.core h.core.val)).effs (s.chip.core h.core.val) n he
  rw [nextPc_seq _ _ he (a.trans q.target) (b.trans q.repst) (c.trans q.loopDue)]
  exact hf n

end Sys2Proof.Machine
end

