-- ==== Sys2Proof/WellFormed.lean ====
section
/-!
DEFINITION. Well-formed commands: the bounds that the spec sets on what a command carries beyond the widths of its operands.
-/
namespace Sys2Proof

/-- An upset strikes a 64-bit part that its vector register has (R468): 48 parts of V0 to V31, 6 of M0 to M7, 96 of VA0 to VA3. -/
def upsetOk (u : BitVec 2 × BitVec 5 × BitVec 7) : Bool :=
  match u.1.toNat with
  | 0 => decide (u.2.2.toNat < 48)
  | 1 => decide (u.2.1.toNat < 8) && decide (u.2.2.toNat < 6)
  | 2 => decide (u.2.1.toNat < 4) && decide (u.2.2.toNat < 96)
  | _ => false

/-- A syllable's upsets strike parts that exist (R468). -/
def Syl.ok (h : Syl) : Bool := h.upset.all upsetOk

/-- The syllable of a command, for the commands that are one. -/
def Instr.sylOk : Instr → Bool
  | .nop h | .msync h | .aswp h | .afree h => h.ok
  | .add h _ | .sub h _ | .addc h _ | .subc h _ | .adds h _ | .subs h _ | .andD h _ | .orD h _ | .xorD h _ | .andn h _ | .shl h _
    | .shr h _ | .sar h _ | .minD h _ | .maxD h _ | .minu h _ | .maxu h _ | .abs h _ | .neg h _ | .mov h _ | .movi h _ | .cmpeq h _
    | .cmpne h _ | .cmplt h _ | .cmple h _ | .cmpgt h _ | .cmpge h _ | .cmpltu h _ | .cmpleu h _ | .cmpgtu h _ | .cmpgeu h _ | .pand h _
    | .por h _ | .pxor h _ | .pandn h _ | .pnot h _ | .pmov h _ | .mul h _ | .mulh h _ | .mulhu h _ | .mac h _ | .macu h _ | .msu h _
    | .xclr h _ | .xrd h _ | .xwr h _ | .xsat h _ | .xrnd h _ | .fext h _ | .fexts h _ | .fins h _ | .clz h _ | .bperm h _ | .bra h _
    | .call h _ | .br h _ | .callr h _ | .repb h _ | .movs h _ | .fills h _ | .cmps h _ | .mfc h _ | .mtc h _ | .mtcc h _ | .eret h _
    | .nret h _ | .trap h _ | .waitt h _ | .ldbu h _ | .ldb h _ | .ldhu h _ | .ldh h _ | .ld h _ | .lda h _ | .ldq h _ | .stb h _
    | .sth h _ | .st h _ | .sta h _ | .stq h _ | .mova h _ | .adda h _ | .addad h _ | .subad h _ | .moval h _ | .movau h _ | .movda h _
    | .movad h _ | .movah h _ | .lea h _ | .rput h _ | .rfree h _ | .vadd h _ | .vsub h _ | .vadds h _ | .vsubs h _ | .vand h _ | .vor h _
    | .vxor h _ | .vandn h _ | .vshl h _ | .vshr h _ | .vsar h _ | .vmin h _ | .vmax h _ | .vmul h _ | .vmulh h _ | .vabsd h _ | .vavg h _
    | .vabs h _ | .vneg h _ | .vmov h _ | .vmovi h _ | .vfadd h _ | .vfsub h _ | .vfmul h _ | .vfmin h _ | .vfmax h _ | .vfabs h _
    | .vfneg h _ | .vcmpeq h _ | .vcmpne h _ | .vcmplt h _ | .vcmple h _ | .vcmpgt h _ | .vcmpge h _ | .vcmpltu h _ | .vcmpleu h _
    | .vcmpgtu h _ | .vcmpgeu h _ | .mand h _ | .mor h _ | .mxor h _ | .mandn h _ | .mnot h _ | .mmov h _ | .vmac h _ | .vmsu h _
    | .vaclr h _ | .vard h _ | .vamov h _ | .vast h _ | .vcmul h _ | .vcmac h _ | .vbperm h _ | .vsld h _ | .vsel h _ | .vwiden h _
    | .vnarrow h _ | .vcvt h _ | .vbcst h _ | .vins h _ | .vext h _ | .mpop h _ | .vld h _ | .vst h _ | .awld h _ | .cxcmd h _ => h.ok
  | .acfg h _ _ | .dmaj h _ _ | .tdnew h _ _ | .tdinv h _ _ | .cxfence h _ _ => h.ok
  | .otinv h _ _ _ | .lrew h _ _ _ => h.ok
  | .lsmp h _ _ _ _ => h.ok
  | .astr h _ _ _ _ _ _ | .djob h _ _ _ _ _ _ => h.ok
  | _ => true

/-- A register access names a 32-bit register: its offset is a multiple of 4 (R95, R96). -/
def ofsOk (ofs : BitVec 24) : Bool := ofs.toNat % 4 == 0

/-- A frame holds a 64-byte flit and the credits of four channels (R753). -/
def RxFrame.ok (f : RxFrame) : Bool := f.flit.length == 64 && f.cr.length == 4

/-- Part of a customer message's header: it returns at most 64 credits (R337). -/
def creditsOk (cr : BitVec 8) : Bool := decide (cr.toNat ≤ 64)

/-- What the spec bounds in a command that arrives from outside. -/
def Instr.carriesOk : Instr → Bool
  | .registerWrite w | .reg64LoWrite w | .reg64HiWrite w => ofsOk w.ofs
  | .readClearRegister w | .reg64LoRead w => ofsOk w.ofs
  | .smbusWrite _ _ ofs _ _ | .smbusRead _ _ ofs => ofsOk ofs
  | .dapacc addr _ _ => addr.toNat % 4 == 0
  | .pcieMemoryRequest q => [0, 2, 4].contains q.bar.toNat && decide (0 < q.len.val) && (match q.data with | some bs => bs.length == q.len.val | none => true)
  | .commandFetch _ entry => entry.length == 64
  | .frameReceived _ f | .nakReceived _ f | .pingReceived _ f | .echoReceived _ f _ => f.ok
  | .heelTokenReceived _ bytes _ _ => bytes.length == 152
  | .mailboxAck _ _ data => decide (data.length ≤ 256)
  | .pmbusPoll rs => decide (rs.length ≤ 8)
  | .pmbAlert sw => decide (sw.length ≤ 8)
  | .customerRd _ _ len cr => decide (0 < len.val) && creditsOk cr
  | .customerWr _ _ data cr => decide (0 < data.length) && decide (data.length ≤ 256) && creditsOk cr
  | .customerDone _ _ cr | .customerNop cr _ => creditsOk cr
  | .customerBadMessage ndat cr => decide (ndat.toNat ≤ 4) && creditsOk cr
  | _ => true

/-- A command stays within the bounds that the spec sets on what it carries. A command outside them is not refused: the device answers it
as its rule says. -/
def Instr.wf (i : Instr) : Bool := i.sylOk && i.carriesOk

end Sys2Proof
end

