-- ==== Sys2Proof/Tests/Slice0.lean ====
section
/-!
SUPPORT. The model's own tests: the smoke test of well-formedness; one witness per statement, a state and operands that meet the
hypotheses of each of its clauses together; and a few steps whose results are worked out from the spec by hand.
-/
namespace Sys2Proof.Tests
open Sys2Proof Sys2Proof.Machine
set_option Elab.async false

/-! ### States -/

/-- The part out of reset with its fuse block loaded: every unit survives, vector units are on, cores have a program of 4,096 bundles at 0x1000,
and registers of the given list hold the given values. -/
def upC (regs : List (Nat × BitVec 32)) : Chip :=
  { ({} : Chip) with
    coreUp := true, pwr := { ({} : Power) with porDone := true, fused := true, pwrgood := true }, now := 1000000
    regs := regs ++ [(R.DEV.SURV, 0xFFFFFFFF), (R.DEV.SURVX, 0xFFFFFFFF)] ++ (List.range 16).map (fun t => (R.TILE.VSTAT t, 0))
      ++ (List.range 16).flatMap (fun t => [(R.TILE.PBASE_LO t, 0x1000), (R.TILE.PLEN t, 4096)])
    cores := (List.range 17).map fun k => { nth {} ({} : Chip).cores k with run := .run, pc := if k = 16 then 0x120 else 0x1000 } }

/-- A register write by the control core. -/
def wr (key val : Nat) : RegWr := { who := .cc, ofs := BitVec.ofNat 24 key, val := BitVec.ofNat 32 val }
/-- A register read by the control core. -/
def rd (key : Nat) : RegRd := { who := .cc, ofs := BitVec.ofNat 24 key }
/-- A syllable alone in its bundle. -/
def syl (k : CoreId) (sl : Slot) : Syl := { core := k, slot := sl }

/-! ### Witnesses: steps and Talig -/

/-- A core of the part changed. -/
def upCore (k : Nat) (f : Core → Core) : Chip := (upC []).modCore k f

theorem witness_StepRunsTheFrontCommandOrPassesACycle : State.reset.pending = [] := rfl
theorem witness_EveryStepAnswersANextStateAndKeepsTheFuseBlock :
    Machine.step State.reset = .next { State.reset with chip := { State.reset.chip with now := State.reset.chip.now + 5 } } := rfl
theorem witness_EveryStepKeepsTheWatchdogPausesInLine :
    let c := ((upC []).modWdt 3 fun w => { w with running := true }).wdtSync
    (nth {} c.wdt 3).running = true ∧ ∀ i, i < 18 → (nth {} c.wdt i).running = true → (nth {} c.wdt i).paused = c.wdtPaused i := by
  and_intros <;> decide +kernel

theorem witness_AluSyllablesWriteResultAndFlags :
    (upC []).alone (syl 0 .s) [.s, .m] = true ∧ (upC []).alone (syl 15 .m) [.s, .m] = true ∧ (upC []).alone (syl 16 .s) [.s, .m] = true ∧
      ({ rd := 31, ra := 31, b := .reg 0 } : AluOp).oneSource = true ∧ ({ rd := 0, ra := 0, b := .imm 31 } : AluOp).shiftOk = true := by
  and_intros <;> decide +kernel
theorem witness_ComparesAndPredicatesWriteTheirCondition :
    (upC []).alone (syl 3 .s) [.s] = true ∧ ({ dk := false, dst := 7, ra := 1, b := .imm 0x8000 } : CmpOp).dstOk = true ∧
      ({ dk := true, dst := 31, ra := 1, b := .reg 2 } : CmpOp).dstOk = true ∧ ({ pd := 7, pa := 7, pb := 0 } : PlgOp).pb = 0 := by
  and_intros <;> decide +kernel
theorem witness_MultipliesUpdateDataRegistersAndAccumulators :
    (upC []).alone (syl 3 .s) [.s] = true ∧ (7 : BitVec 5).toNat < 8 ∧ (48 : BitVec 6).toNat ≤ 48 ∧ (2 : BitVec 2).toNat < 3 := by
  and_intros <;> decide +kernel
theorem witness_BitFieldsWriteTheirDestination :
    (upC []).alone (syl 3 .s) [.s] = true ∧ (0 : BitVec 5).toNat + (23 : BitVec 5).toNat < 24 := by and_intros <;> decide +kernel
theorem witness_AddressSyllablesWriteTheirRegister : (upC []).alone (syl 16 .m) [.m] = true := by decide +kernel
theorem witness_BranchesAndRepeatsSetUpControlFlow :
    let x := (upC []).core 3
    (upC []).alone (syl 3 .s) [.s] = true ∧ x.ls.length = 2 ∧ x.le.length = 2 ∧ x.lc.length = 2 := by and_intros <;> decide +kernel
theorem witness_BundlesReadOldValuesAndGuardsSelect :
    (upC []).bare { syl 3 .v with guard := 7, sense := true, rsv := true } = true ∧
    ((upC []).bare { syl 3 .m with guard := 1 } = true ∧ (((upC []).core 3).P 1 != false) = false) ∧
    ((upC []).quiet 3 = true ∧ ({ rd := 1, ra := 2, b := .reg 0 } : AluOp).oneSource = true ∧ (1 : BitVec 5) ≠ 2) := by and_intros <;> decide +kernel
theorem witness_ControlRegistersAreReadAndWritten :
    let c := upCore 3 fun x => { x with a := modNth (fun _ => 0xFFFFFFFFBFFC) x.a 5 }
    let v := (c.core 3).A 5
    c.alone (syl 3 .s) [.s] = true ∧ v.setWidth 2 = (0 : BitVec 2) ∧ bit v 14 = false ∧ (c.core 3).priv = true := by and_intros <;> decide +kernel
theorem witness_ReturnsAndWaitsAct :
    (upC []).alone (syl 3 .s) [.s] = true ∧ ((upC []).core 3).priv = true ∧ ((upC []).core 3).relPend = false ∧
    (let c := upCore 3 fun x => { x with relPend := true }
     c.alone (syl 3 .s) [.s] = true ∧ (c.core 3).priv = true ∧ (c.core 3).relPend = true) ∧
    (upC []).alone (syl 3 .m) [.m] = true ∧
    (let c := upCore 3 fun x => { x with posted := [{ addr := 0x100000000000, bytes := [1], bundle := 0x1000 }] }
     (c.core 3).posted ≠ [] ∧ (c.modCore 3 fun x => { x with posted := [] }).alone (syl 3 .m) [.m] = true) := by and_intros <;> decide +kernel
theorem witness_ExceptionsSaveTheirContextAndEnterTheirVector :
    ((upC [(R.TILE.CCTL 3, 0)]).takesExc 3 = true ∧ (upC [(R.TILE.CCTL 3, 0)]).bare { syl 3 .v with rsv := true } = true) ∧
    (let c := (upC [(R.TILE.CCTL 3, 0)]).modCore 3 fun x => { x with priv := false }
     c.takesExc 3 = true ∧ c.alone (syl 3 .s) [.s] = true ∧ (c.core 3).priv = false) ∧
    ((upC []).alone (syl 3 .m) [.m] = true ∧ (upC []).ownWindow 0x1FFFFF 1 = 0x1FFFFF ∧ (upC []).regionOf 0x1FFFFF 1 = .ccMem) ∧
    ((upC []).alone (syl 3 .s) [.s] = true ∧ ((upC []).core 3).exl = false) ∧
    ((upC [(R.TILE.CCTL 3, 4)]).bare { syl 3 .v with rsv := true } = true ∧ (upC [(R.TILE.CCTL 3, 4)]).rb (R.TILE.CCTL 3) 2 = true ∧
      (upC []).rb (R.KMAP.KSTAT 0) 3 = false) ∧
    (let c := (upC [(R.TILE.CCTL 3, 0)]).modCore 3 fun x => { x with exl := true }
     c.bare { syl 3 .v with rsv := true } = true ∧ (c.core 3).exl = true ∧ c.rb (R.TILE.CCTL 3) 2 = false) ∧
    (let c := upCore 16 fun x => { x with exl := true }
     c.bare { syl 16 .v with rsv := true } = true ∧ (c.core 16).exl = true) := by and_intros <;> decide +kernel
theorem witness_BoundariesTakeEvents :
    (let c := (upC [(R.TILE.SWI 3, 0x8000)]).modCore 3 fun x => { x with ie := true, ien := 0x8000 }
     c.quiet 3 = true ∧ c.irqLine 3 = some 15 ∧ c.irqOk 3 = true ∧ (c.core 3).nmi = false) ∧
    (let c := upCore 3 fun x => { x with nmi := true }
     c.quiet 3 = true ∧ (c.core 3).nmi = true ∧ (c.core 3).nxl = false) ∧
    (let c := upCore 3 fun x => { x with nmi := true, nxl := true }
     c.quiet 3 = true ∧ (c.core 3).nmi = true ∧ (c.core 3).nxl = true) ∧
    (let c := (upC [(R.TILE.CCTL 3, 0)]).modCore 3 fun x => { x with busErrs := [{ code := 0x521, addr := 5, bundle := 0x1000 }] }
     c.awake = true ∧ (c.core 3).run = .run ∧ (c.core 3).busErrs = { code := 0x521, addr := 5, bundle := 0x1000 } :: [] ∧ c.takesExc 3 = true) ∧
    (let c := upCore 3 fun x => { x with loopDue := true, repst := 1, pc := 0x1018, le := [0x1000, 0], lc := [2, 0] }
     c.awake = true ∧ (c.core 3).loopDue = true ∧ (c.core 3).repst = BitVec.ofNat 2 (2 ^ 0) ∧ (c.core 3).LE 0 = ((c.core 3).pc - 24).toNat) := by
  and_intros <;> decide +kernel

/-! ### Witnesses: memory, strings and rings -/

/-- The part with every quad of its scratchpads given to the vector port, and every A register of core 3 at a byte of its own scratchpad. -/
def spC (f : Core → Core) : Chip :=
  (upC ((List.range 16).map fun t => (R.TILE.SPBMAP t, 0x249249))).modCore 3 fun x =>
    f { x with a := (List.range 16).map fun i => BitVec.ofNat 48 (spBase 3 + 1000 * i) }

def ldO : LdsOp := { md := 0, rt := 15, ab := 5, imm := 0x7F }

theorem witness_LoadsReadTheirBytes :
    (let c := spC id
     c.alone (syl 3 .m) [.m] = true ∧ (scalarAddr (c.core 3) ldO 6).1 = true ∧ c.plainSp 3 (scalarAddr (c.core 3) ldO 6).2.1.toNat 6 = true ∧
       ldO.rt.toNat < 16) ∧
    (let c := (upC []).modCore 16 fun x => { x with a := modNth (fun _ => 0x1FFFFA - 0x7F) x.a 5 }
     let ea := (scalarAddr (c.core 16) ldO 6).2.1
     c.alone (syl 16 .m) [.m] = true ∧ (scalarAddr (c.core 16) ldO 6).1 = true ∧ c.ownSp 16 ea.toNat 6 = false ∧ c.isRemote ea.toNat 6 = false ∧
       reachBad c 16 (c.core 16) ea 6 = none) := by and_intros <;> decide +kernel
theorem witness_StoresWriteTheirBytes :
    (let c := spC id
     c.alone (syl 3 .m) [.m] = true ∧ (scalarAddr (c.core 3) ldO 1).1 = true ∧ c.plainSp 3 (scalarAddr (c.core 3) ldO 1).2.1.toNat 1 = true) ∧
    (let c := (upC []).modCore 16 fun x => { x with a := modNth (fun _ => 0x1FFFFF - 0x7F) x.a 5 }
     let ea := (scalarAddr (c.core 16) ldO 1).2.1
     c.alone (syl 16 .m) [.m] = true ∧ c.ownSp 16 ea.toNat 1 = false ∧ c.isRemote ea.toNat 1 = false ∧ reachBad c 16 (c.core 16) ea 1 = none) := by
  and_intros <;> decide +kernel

def aLoad (age : Nat) (val : Option Nat) : Load := ⟨.d 4, age, val, 0x100, 3, false, 0x120, 0, none, 0⟩
def aPost : Posted := { addr := 0x1FFFFE, bytes := [1, 2], bundle := 0x120 }

theorem witness_LoadsDeliverAndPostedStoresArrive :
    (∀ age, age = 1 ∨ age = 2 → let c := upCore 3 fun x => { x with loads := [aLoad age (some 5)] }
      (c.core 3).loads = [aLoad age (some 5)] ∧ (c.modCore 3 fun x => { x with loads := [] }).bare (syl 3 .s) = true) ∧
    (let c := upCore 16 fun x => { x with loads := [aLoad 1 none] }
     c.calm = true ∧ (c.core 16).run = .run ∧ (c.core 16).stopReq = false ∧ (c.core 16).loads = [aLoad 1 none] ∧ (c.core 16).posted = [] ∧
       c.plainCc 0x100 3 = true) ∧
    (let c := upCore 16 fun x => { x with posted := [aPost] }
     c.calm = true ∧ c.cores.length = 17 ∧ (c.core 16).loads = [] ∧ (c.core 16).posted = [aPost] ∧ c.plainCc 0x1FFFFE 2 = true) := by
  refine ⟨?_, ?_, ?_⟩
  · rintro _ (rfl | rfl) <;> (and_intros <;> decide +kernel)
  all_goals and_intros <;> decide +kernel

theorem witness_StringsMoveFillAndCompare :
    ((spC id).alone (syl 3 .s) [.s] = true ∧ ((spC id).core 3).scnt = 0) ∧
    (let c := spC fun x => { x with scnt := 9, sdir := 7 }
     c.alone (syl 3 .s) [.s] = true ∧ c.plainSp 3 ((c.core 3).A 13 - 18).toNat 24 = true ∧ c.plainSp 3 ((c.core 3).A 12 - 18).toNat 24 = true) ∧
    (let c := spC fun x => { x with scnt := 1, sdir := 0 }
     c.alone (syl 3 .s) [.s] = true ∧ c.plainSp 3 ((c.core 3).A 13).toNat 1 = true ∧ c.plainSp 3 ((c.core 3).A 12).toNat 1 = true ∧
       c.getBytes (.sp 3) ((c.core 3).A 12).toNat 1 = c.getBytes (.sp 3) ((c.core 3).A 13).toNat 1) := by and_intros <;> decide +kernel

/-- Ring context 5 of tile 3 active with 16 slots, at positions 15 and 15, with the tags given. -/
def ringC (full : Bool) : Chip :=
  let c := { upC [] with sp := modNth (fun u => { u with rings := modNth (fun r => { r with
    active := true, adv := false, tag := true, nslot := 16, pside := 1, cside := 1, gen := List.replicate 16 0 }) u.rings 5 }) (upC []).sp 3 }
  c.w (R.TILE.RPOS 3 5) (if full then 0x800000FF else 0xFF)

theorem witness_RingSyllablesMoveTheRing :
    ∀ f : Bool, let c := ringC f
      let r := c.ring 3 5
      c.alone (syl 3 .m) [.m] = true ∧ (∀ y, y < 16 → (c.ring 3 y).stalls = []) ∧ (c.scratch 3).rings.length = 16 ∧ c.sp.length = 16 ∧
      r.active = true ∧ r.adv = false ∧ 2 ≤ r.nslot ∧ r.nslot ≤ 16 ∧ r.gen.length = 16 ∧ c.pp 3 5 = 15 ∧ c.cp 3 5 = 15 ∧ r.pside = 1 ∧ r.cside = 1 ∧
      r.tag = true ∧ c.full 3 5 (c.pp 3 5) = f := by decide +kernel

/-! ### Witnesses: the vector unit -/

/-- Core 3 is quiet with a V-slot syllable alone in its bundle. -/
def vOk (c : Chip) : Bool := c.alone (syl 3 .v) [.v] && (c.core 3).vecWf

theorem witness_VectorIntegerLanesCompute :
    vOk (upC []) = true ∧ (VAlu.reg { vd := 28, va := 24, vb := 20, g := 2, t := 4 }).legal false false = true ∧
      (VAlu.imm { vd := 31, va := 0, t := 0, imm := 255 }).legal false false = true ∧
      (VAlu.imm { vd := 31, va := 31, t := 1, imm := 31 }).legal false true = true ∧
      (VAlu.reg { vd := 30, va := 28, g := 1, t := 1 }).legal true false = true ∧ (VAlu.reg { vd := 30, va := 28, t := 1 }).ty.signed = true := by
  and_intros <;> decide +kernel
theorem witness_VectorFloatLanesCompute :
    let o : VrOp := { vd := 28, va := 24, vb := 0, g := 2, t := 6 }
    vOk (upC []) = true ∧ (o.t = 5 ∨ o.t = 6) ∧ o.x = 0 ∧ grouped o.g o.vd = true ∧ grouped o.g o.va = true ∧ grouped o.g o.vb = true ∧ o.vb = 0 := by
  and_intros <;> decide +kernel
theorem witness_VectorComparesAndMasksWriteMasks :
    let o : VrOp := { vd := 7, va := 31, vb := 30, t := 4 }
    vOk (upC []) = true ∧ o.t ≠ 7 ∧ o.vd.toNat < 8 ∧ o.g = 0 ∧ o.x = 0 ∧ (laneOr o.t).isInt = true ∧ ({ md := 7, ma := 7, mb := 0 } : VkOp).mb = 0 := by
  and_intros <;> decide +kernel
theorem witness_VectorAccumulatorsAccumulate :
    vOk (upC []) = true ∧
    (let o : VrOp := { vd := 3, va := 0, vb := 0, t := 0 }
     o.t ≠ 7 ∧ o.g = 0 ∧ o.vd.toNat < 4 ∧ o.x = 0 ∧ o.va = 0 ∧ o.vb = 0) ∧
    (let o : VrOp := { vd := 31, va := 3, t := 2, x := 31 }
     o.t ≠ 7 ∧ o.va.toNat < 4 ∧ o.vb = 0 ∧ o.x.toNat < 64 ∧ (laneOr o.t).isInt = true ∧ o.x.toNat % 64 < 16 * (laneOr o.t).w) ∧
    (let o : VrOp := { vd := 3, va := 30 }
     o.t = 0 ∧ o.mask = 0 ∧ o.x = 0 ∧ o.vb = 0 ∧ o.vd.toNat < 4 ∧ o.va.toNat % 2 = 0) ∧
    (let o : VrOp := { vd := 30, va := 3 }
     o.va.toNat < 4 ∧ o.vd.toNat % 2 = 0) ∧
    (let o : VrOp := { vd := 3, va := 30, vb := 29, t := 5, x := 256 }
     3 ≤ o.t.toNat ∧ o.t ≠ 7 ∧ o.x.toNat / 64 % 4 = 0 ∧ (laneOr o.t).isInt = false ∧ o.x.toNat % 64 = 0 ∧ o.vd.toNat < 4) := by
  and_intros <;> decide +kernel
theorem witness_VectorPermutesConvertsAndExchanges :
    vOk (upC []) = true ∧
    (({ vd := 31, va := 31, vb := 30 } : VrOp).vb.toNat % 2 = 0) ∧ (({ vd := 31, va := 31, vb := 31, x := 383 } : VrOp).x.toNat ≤ 383) ∧
    (let o : VrOp := { vd := 30, va := 31, t := 1 }
     o.t.toNat ≤ 1 ∧ o.g = 0 ∧ o.vb = 0 ∧ o.x = 0 ∧ o.vd.toNat % 2 = 0) ∧
    (let o : VrOp := { vd := 31, va := 30, t := 1, x := 15 }
     o.t.toNat ≤ 1 ∧ o.x.toNat < 16 ∧ o.va.toNat % 2 = 0) ∧
    (let o : VrOp := { vd := 28, va := 24, t := 3, g := 2, x := 384 }
     o.t ≠ 7 ∧ o.t ≠ 4 ∧ o.x.toNat % 64 = 0 ∧ o.x.toNat / 64 < 7 ∧ (laneOr (BitVec.ofNat 3 (o.x.toNat / 64))).w = (laneOr o.t).w ∧
       grouped o.g o.vd = true ∧ grouped o.g o.va = true) ∧
    (let q : VxOp := { rd := 31, rs := 31, t := 0, lane := 383 }
     q.t ≠ 7 ∧ q.lane.toNat < 384 / (laneOr q.t).w ∧ q.mask = 0) ∧
    (let q : VxOp := { rd := 31, rs := 7 }
     q.rs.toNat < 8 ∧ q.mask = 0 ∧ q.t = 0 ∧ q.lane.toNat = 0) := by and_intros <;> decide +kernel
theorem witness_VectorLoadsAndStoresMoveGroups :
    let c := spC id
    let o (md : BitVec 3) : VsOp := { md := md, vr := 28, ab := 5, g := 2, imm := if md = 2 then 0 else 8 }
    vOk c = true ∧ grouped (o 0).g (o 0).vr = true ∧
      (∀ md : Fin 3, c.plainSp 3 ((c.core 3).A 5 + if md = 0 then 8 else 0).toNat 1536 = true ∧ (o (BitVec.ofNat 3 md.val)).dm = 0) := by
  and_intros <;> decide +kernel
theorem witness_VectorUnitsSleepAndWake :
    (let c := upC [(R.TILE.VCTL 15, 1), (R.TILE.CCTL 15, 0)]
     c.awake = true ∧ c.vOn 15 = true ∧ c.rf (R.TILE.VCTL 15) 9 0 ≠ 0 ∧ c.rb (R.TILE.CCTL 15) 1 = false ∧ c.napped 15 = false ∧ c.surv 15 = true) ∧
    (let c := upC [(R.TILE.VSTAT 0, 2), (R.H.POWN (slotTile 0), 0)]
     let w := wr (R.TILE.VCTL 0) 0x10000
     c.takes w = true ∧ w.ofs.toNat = R.TILE.VCTL 0 ∧ bit w.val 16 = true ∧ c.rf (R.TILE.VSTAT 0) 1 0 = 2 ∧ c.cores.length = 17) ∧
    (let c := upCore 0 fun x => { x with wakeEnd := some 240 }
     c.awake = true ∧ (c.core 0).wakeEnd = some 240) := by and_intros <;> decide +kernel

/-! ### Witnesses: attached commands and the register bus -/

/-- Core 3 with `n` commands in its array queue and its drain queue, and A5 at a 64-byte boundary of its scratchpad. -/
def attC (n : Nat) : Chip :=
  let c := spC fun x => { x with a := modNth (fun _ => BitVec.ofNat 48 (spBase 3 + 0x1000)) x.a 5 }
  { c with ary := modNth (fun u => { u with queue := List.replicate n ⟨.aswp, 0x1000, 0, 0⟩ }) c.ary 3
           drn := modNth (fun u => { u with queue := List.replicate n ⟨.aswp, 0x1000, 0⟩ }) c.drn 3
           ports := modNth (fun u => { u with queue := List.replicate n ⟨.tdinv 0 true, 0x1000, none⟩ }) c.ports 3 }

theorem witness_AttachedCommandsEnterTheirQueues :
    (let c := attC 7
     c.alone (syl 3 .n) [.n] = true ∧ c.ary.length = 16 ∧ (nth {} c.ary 3).queue.length < 8 ∧ c.drn.length = 16 ∧ (nth {} c.drn 3).queue.length < 8 ∧
       c.ports.length = 17 ∧ (nth {} c.ports 3).queue.length < 8 ∧ ((c.core 3).A 5).toNat % 64 = 0 ∧ c.plainSp 3 ((c.core 3).A 5).toNat 64 = true) ∧
    ((attC 8).alone (syl 3 .n) [.n] = true ∧ (nth {} (attC 8).ary 3).queue.length = 8) ∧
    (let c := upCore 16 fun x => { x with a := modNth (fun _ => 0x1FFFC0) x.a 5 }
     c.alone (syl 16 .n) [.n] = true ∧ c.ports.length = 17 ∧ c.plainCc ((c.core 16).A 5).toNat 64 = true) := by and_intros <;> decide +kernel

/-- A UZV-781 with its customer port up. -/
def custC (c : Chip) : Chip := { (c.w R.CC.CPST 2) with fuse := { c.fuse with part := 0x0781 } }

theorem witness_CustomerCommandsEnterTheirQueue :
    (let c := custC (attC 0)
     c.alone (syl 3 .n) [.n] = true ∧ c.hasCust = true ∧ c.cust.length = 16 ∧ c.custUp = true ∧ ((c.core 3).A 5).toNat % 64 = 0 ∧
       c.plainSp 3 ((c.core 3).A 5).toNat 64 = true) ∧
    (∀ f : Bool, let c := custC ((ringC f).modRing 3 5 fun r => { r with pside := 3, cside := 3 })
     let r := c.ring 3 5
     c.alone (syl 3 .n) [.n] = true ∧ c.hasCust = true ∧ (∀ z, z < 16 → (c.ring 3 z).stalls = []) ∧ (c.scratch 3).rings.length = 16 ∧ c.sp.length = 16 ∧
       r.active = true ∧ r.adv = false ∧ r.nslot = 16 ∧ r.gen.length = 16 ∧ c.pp 3 5 < r.nslot ∧ c.cp 3 5 < r.nslot ∧ r.pside = 3 ∧ r.cside = 3 ∧
       c.full 3 5 (c.pp 3 5) = f) := by and_intros <;> decide +kernel

theorem witness_RegisterWritesSetFieldsByAccessCode :
    let hyp (c : Chip) (key : Nat) (k : PageKind) (i : Nat) : Bool :=
      c.takes (wr key 0xFFFFFFFF) && pageOf (key / 0x1000) == some (k, i) && (rowOf key).isSome && Chip.loHi k i (key % 0x1000) == none
    hyp (upC []) (R.ARY.ASTAT 15) .ary 15 = true ∧ hyp (upC [(R.H.POWN 0x00C, 0)]) R.KMAP.TOWN0 .kmap 0 = true ∧
      hyp (upC []) (R.KMAP.KATTR 7) .kmap 0 = true ∧ (upC [(R.H.POWN 0x00C, 0)]).rwlOk .cc 0x00C = true ∧ (upC []).rwlOk .cc 0x00C = false := by
  and_intros <;> decide +kernel
theorem witness_RegisterReadsReturnTheValueAndClearRcFields :
    let hyp (c : Chip) (key : Nat) (k : PageKind) (i : Nat) : Bool :=
      c.gives (rd key) && pageOf (key / 0x1000) == some (k, i) && (rowOf key).isSome && Chip.loHi k i (key % 0x1000) == none &&
      !c.slotEmpty (key / 0x1000) && c.pagePwr (key / 0x1000) == 0 && !c.inSrst (key / 0x1000)
    hyp (upC []) (R.TICK.TSTAT) .tick 0 = true ∧ hyp (upC []) (R.VXL.HMARG 0) .vxl 0 = true := by and_intros <;> decide +kernel
theorem witness_SixtyFourBitRegistersMoveInOneCycle :
    (let c := upC []
     let key := R.TICK.FNUM_LO
     pageOf (key / 0x1000) = some (.tick, 0) ∧ c.slotEmpty (key / 0x1000) = false ∧ c.pagePwr (key / 0x1000) = 0 ∧ c.inSrst (key / 0x1000) = false ∧
       c.gives (rd key) = true ∧ Chip.loHi .tick 0 (key % 0x1000) = some false ∧ Chip.loHi .tick 0 (key % 0x1000 + 4) = some true ∧
       c.gives (rd (key + 4)) = true) ∧
    (let key := R.PCI.APBASE_LO
     let c := { upC [] with bus := { (upC []).bus with held := [(0x011, .cc, key + 4, 5)] } }
     pageOf (key / 0x1000) = some (.pci, 0) ∧ c.takes (wr key 7) = true ∧ c.takes (wr (key + 4) 7) = true ∧
       Chip.pairWord .pci 0 (key % 0x1000) = some false ∧ Chip.pairWord .pci 0 (key % 0x1000 + 4) = some true ∧ (upC []).heldLo .cc (key + 4) = none ∧
       c.heldLo .cc (key + 4) = some 5) := by and_intros <;> decide +kernel
theorem witness_PkeyLocksAndUnlocksThePage :
    let c := { upC [] with bus := { (upC []).bus with unlk := [(0x00C, .cc)] } }
    let key := 0xC03C
    (upC []).takes (wr key 0x554E4C4B) = true ∧ pageOf 0x00C = some (.kmap, 0) ∧ PageKind.kmap.lockable = true ∧ c.takes (wr key 0xAAB1B3B4) = true ∧
      (0x00C, Who.cc) ∈ c.bus.unlk ∧ (0x00C, Who.cc) ∉ (upC []).bus.unlk ∧ (upC []).takes (wr key 0x4C4F434B) = true := by
  and_intros <;> decide +kernel
theorem witness_PageHeadersResetFreezeAndForceInterrupts :
    (let key := slotAry 15 * 0x1000 + 0x010
     (upC []).takes (wr key 2) = true ∧ pageOf (slotAry 15) = some (.ary, 15)) ∧
    (let key := slotDma 7 * 0x1000 + 0x010
     (upC []).takes (wr key 4) = true ∧ pageOf (slotDma 7) = some (.dma, 7) ∧ PageKind.dma.hasFrz = true ∧ (upC []).rb (R.H.PCTL (slotDma 7)) 2 = false ∧
       (upC [(R.H.PCTL (slotDma 7), 4)]).takes (wr key 0) = true ∧ (upC [(R.H.PCTL (slotDma 7), 4)]).rb (R.H.PCTL (slotDma 7)) 2 = true ∧
       (upC [(R.H.PCTL (slotDma 7), 4)]).pageBusy (slotDma 7) = false ∧ (upC []).awake = true ∧ (upC []).rb (R.H.PSTAT (slotDma 7)) 6 = false) ∧
    (let c := { upC [(R.H.PCTL (slotDma 7), 4)] with bus := { (upC []).bus with srst := [slotDma 7], frzing := [slotDma 7] } }
     c.takes (wr (slotDma 7 * 0x1000 + 0x010) 0) = true ∧ c.pageBusy (slotDma 7) = true ∧ slotDma 7 ∈ c.bus.srst ∧ slotDma 7 ∉ c.bus.unfrz) ∧
    ((upC []).takes (wr (0x00B * 0x1000 + 0x024) 0x80000000) = true ∧ (upC []).takes (wr (0x00B * 0x1000 + 0x020) 0xFFFFFFFF) = true ∧
      (0xFFFFFFFF : BitVec 32) &&& BitVec.ofNat 32 PageKind.tick.irqMask ≠ 0) := by and_intros <;> decide +kernel

/-! ### Witnesses: the tick unit and camera ingest -/

/-- The tick unit in RUN with SRC = ENC, ×4 decoding and a line tick due. -/
def tickC (f : TickUnit → TickUnit) : Chip :=
  ((upC [(R.TICK.TCFG, 0x9), (R.TICK.TSTAT, 1), (R.KMAP.LIVE_TOWN0, 0)]).modTick f)

theorem witness_EncoderEdgesMoveThePosition :
    (let c := tickC fun t => { t with raw := 1, since := [900000, 0, 0], origin := -65536, nextIx := 1 }
     c.awake = true ∧ c.src ≠ 2 ∧ c.rf R.TICK.TCFG 3 2 = 2 ∧ (bit c.tick.raw 0 != bit c.tick.acc 0) = true ∧ (bit c.tick.raw 1 != bit c.tick.acc 1) = false ∧
       -(2 : Int) ^ 47 < c.posNow ∧ c.posNow < 2 ^ 47 - 1 ∧ c.tick.since.length = 3 ∧ bit c.tick.raw 2 ≠ true ∧ c.src = 1 ∧ c.tstate ≠ 0) ∧
    (let c := tickC fun t => { t with raw := 3 }
     (bit c.tick.raw 0 != bit c.tick.acc 0) = true ∧ (bit c.tick.raw 1 != bit c.tick.acc 1) = true ∧ bit c.tick.raw 2 = bit c.tick.acc 2) ∧
    (let c := (tickC fun t => { t with raw := 4, zPos := some (-9) }).wb R.TICK.TCFG 5 true
     (bit c.tick.raw 2 != bit c.tick.acc 2) = true ∧ bit c.tick.raw 2 = true ∧ c.rb R.TICK.TCFG 5 = true ∧ c.tick.zPos = some (-9)) := by
  and_intros <;> decide +kernel
theorem witness_LineTicksOpenFramesAndEdgesBeginTicks :
    (let c := tickC fun t => { t with lineDue := [1500000], lineAt := some 1000000, opened := true, row := 63, nextF := 5, frame := 4 }
     c.awake = true ∧ c.tstate = 1 ∧ c.decState ≠ 2 ∧ c.croleOf = 0 ∧ c.tick.lineDue = [1500000] ∧ c.src = 1 ∧ c.tick.lineAt = some 1000000 ∧
       (∀ g, g < 8 → c.rb (R.LST.LRCFG g) 31 = false)) ∧
    (let c := (tickC id).wf R.TICK.TCFG 1 0 3
     c.awake = true ∧ c.tstate = 1 ∧ c.decState ≠ 2 ∧ c.croleOf = 0 ∧ c.src = 3) ∧
    (let c := tickC fun t => { t with pend := [(2000000, 2 ^ 64 - 1)], edgeAt := some 1200000, leftAt := 5, lastFlush := false, swept := false }
     c.calm = true ∧ c.tick.pend = [(2000000, 2 ^ 64 - 1)] ∧ c.tick.edgeAt = some 1200000 ∧ c.tick.lastFlush = false ∧ c.tick.leftAt ≤ 1200000 ∧
       c.tick.swept = false) ∧
    (let c := tickC fun t => { t with edgeAt := some 1200000, reserved := true, kslot := t.kslot.set 7 0x4B001, flushFrom := none }
     let c := { c with elg := { c.elg with rsv := List.replicate 8 true } }
     c.awake = true ∧ c.cores.length = 17 ∧ c.tick.edgeAt = some 1200000 ∧ c.kmode 7 = 1 ∧ 7 ∉ c.tick.released ∧ 7 ∉ c.tick.noRel ∧ c.tick.reserved = true ∧
       nth false c.elg.rsv 7 = true ∧ c.tick.flushLeft = 0 ∧ c.fnum = 0 ∧ c.tick.pend = []) := by and_intros <;> decide +kernel
theorem witness_FlushesAndHoldsAndTickRegistersTakeEffect :
    (let c := tickC fun t => { t with opened := true }
     c.awake = true ∧ c.tstate = 1 ∧ c.decState ≠ 2 ∧ c.tick.pend = [] ∧ c.arole ≠ 1 ∧ c.tick.opened = true) ∧
    ((tickC id).tick.opened = false ∧ (tickC id).tick.toOff = false ∧ (tickC id).src ≠ 0) ∧
    (∀ n, n = 1 ∨ n = 3 → let c := (tickC fun t => { t with flushFrom := some (2 ^ 64 - 4), flushLeft := n }).wf R.TICK.TSTAT 1 0 2
     c.calm = true ∧ c.tstate = 2 ∧ c.tick.pend = [] ∧ c.tick.flushFrom = some (2 ^ 64 - 4) ∧ 0 < c.tick.flushLeft ∧ c.tick.flushLeft ≤ 3) ∧
    (let c := (tickC fun t => { t with holdAt := some 5, pulseEnd := some 6 }).wf R.TICK.TSTAT 1 0 2
     c.awake = true ∧ c.tstate = 2 ∧ c.tick.holdAt = some 5 ∧ c.tick.pulseEnd = some 6) ∧
    ((upC []).takes (wr R.TICK.NDIV 8) = true ∧ (upC []).takes (wr R.TICK.NDIV 1024) = true ∧ (upC []).tstate = 0 ∧ (upC []).takes (wr R.TICK.NDIV 7) = true ∧
      (upC []).takes (wr R.TICK.FDLY 30000) = true ∧ (upC []).takes (wr R.TICK.ZCPR 0xFFFFFFFF) = true ∧ (upC []).takes (wr R.TICK.LDIV 0x10000) = true ∧
      (upC []).takes (wr R.TICK.TCFG 0x185) = true ∧ (upC []).src = 0 ∧ (upC []).takes (wr (R.TICK.KSLOT 7) 0x4B002) = true ∧
      (upC []).takes { who := .tile 15, ofs := BitVec.ofNat 24 R.TICK.TDONE, val := 0xFFFF } = true) := by
  refine ⟨?_, ?_, ?_, ?_, ?_⟩
  case refine_3 => rintro _ (rfl | rfl) <;> (and_intros <;> decide +kernel)
  all_goals and_intros <;> decide +kernel

/-- Link 3 is enabled, locked and up, and LINE group 2 of one link is LOCKED, 100 pixels wide, with its view ring on and the lines given waiting. -/
def ingC (u : IngGroup) : Chip :=
  let c := upC [(R.ING.LNKCTL 3, 0x100), (R.ING.LNKCTL 15, 0x100), (R.ING.LNKST 3, 3), (R.ING.GCFG 2, 0x55AB000D), (R.ING.GSTAT 2, 1),
    (R.LST.LRCFG 2, 0x80001000), (R.LST.LRPIT 2, 40), (R.ING.GWID 2, 100)]
  { c with ing := { c.ing with groups := c.ing.groups.set 2 u } }

theorem witness_LinksGroupsAndTheMailboxFollowTheCameras :
    (let c := ingC {}
     c.ing.since.length = 16 ∧ c.ing.hb.length = 16 ∧ c.ing.groups.length = 8 ∧ c.awake = true ∧ c.lnkEn 15 = true ∧ c.rb (R.ING.LNKST 15) 0 = false ∧
       c.rb (R.ING.LNKST 3) 0 = true ∧ c.linkUp 3 = true ∧ c.rb R.ING.ICTL 0 = true ∧ c.lnkEn 3 = true ∧
       (∀ j, j < 8 → c.gEn j = true → 3 ∉ (Chip.gLinks (c.r (R.ING.GCFG j))).drop 1) ∧ (∀ j, j < 8 → (upC []).gEn j = false)) ∧
    ((ingC {}).w R.ING.MBST 1).mbBusy = true ∧
    (let c := ingC {}
     c.takes (wr R.ING.MBCTL 0x01000103) = true ∧ c.mbBusy = false ∧ c.takes (wr R.ING.MBCTL 0x01010003) = true ∧ c.takes (wr (R.ING.LNKCTL 15) 6) = true ∧
       15 < c.cxps ∧ c.takes (wr (R.ING.GCFG 2) 0) = true ∧ c.gEn 2 = true ∧ (c.igrp 2).queue = [] ∧ (c.igrp 2).img = none) ∧
    (let c := (ingC {}).w (R.ING.GCFG 2) 0
     c.takes (wr (R.ING.GCFG 2) 0x55AB000D) = true ∧ c.gEn 2 = false ∧ c.gcfgBad 2 0x55AB000D = false) := by and_intros <;> decide +kernel

def aLine : ExpLine := { n := 4, frame := 3, row := 2, slot := 1, at_ := 999995, tgt := 9, pos := 77, test := false }
def aPkt : StreamPkt := { link := 3, strid := 0x55, first := true, last := true, pix := (List.range 100).map fun i => BitVec.ofNat 16 (i + 3) }
def anImg : ImgRx := { base := 0x2000080000, fnum := 5, fgt := 77, xsize := 33, ysize := 7, pix := 231, ended := true }

theorem witness_LinesAndImagesLandOrAreLost :
    (let c := ingC { queue := [aLine] }
     c.ing.groups.length = 8 ∧ c.ecc = [] ∧ c.awake = true ∧ c.gEn 2 = true ∧ c.rf (R.ING.GSTAT 2) 1 0 = 1 ∧ 3 ∈ Chip.gLinks (c.r (R.ING.GCFG 2)) ∧
       c.gImage 2 = false ∧ aPkt.strid.toNat = c.rf (R.ING.GCFG 2) 31 24 ∧ (c.igrp 2).queue = [aLine] ∧ c.now ≤ aLine.at_ + ns (c.rf (R.ING.GWIN 2) 19 0) ∧
       aPkt.pfmt = some (BitVec.ofNat 2 (c.gPf 2)) ∧ c.gSf 2 = 0) ∧
    ((ingC {}).igrp 2).queue = [] ∧
    (let x := { aLine with begun := true, ended := true, npix := 100 }
     let c := ingC { queue := [x] }
     (c.igrp 2).queue = [x] ∧ x.npix = c.gWidth 2 ∧ c.awake = true ∧ c.ecc = []) ∧
    (let x := { aLine with dead := true }
     ((ingC { queue := [x], trig := [(4, 99)] }).igrp 2).queue = [x] ∧ ((ingC { queue := [x], trig := [(4, 99)] }).igrp 2).trig = [(4, 99)]) ∧
    ((ingC {}).takes (wr R.ING.ITRIG 0x80) = true ∧ ((ingC {}).wf (R.ING.GCFG 7) 1 0 3).gEn 7 = true ∧ ((ingC {}).wf (R.ING.GCFG 7) 1 0 3).gImage 7 = true) ∧
    (let c := (((ingC { img := some anImg, seq := 65540 }).w (R.ING.GIMG 2) 0x20008).w (R.ING.GIPIT 2) 64)
     (c.igrp 2).img = some anImg ∧ anImg.pix = anImg.xsize * anImg.ysize ∧ lineBytes (c.gSf 2) 33 * 7 + 64 ≤ c.imgEnd 2 anImg - anImg.base) := by
  and_intros <;> decide +kernel

/-! ### Witnesses: the energy ledger, kennels and tiles -/

/-- The tick unit in RUN in the head of a tick, kennel grants below the budget, kennel 3 FIXED and every kennel owning tiles. -/
def elgC (f : Energy → Energy) : Chip :=
  let c := upC ([(R.TICK.TSTAT, 1), (R.KMAP.LIVE_TOWN0, 0o76543210), (R.ELG.BUDGET, 100000), (R.ELG.BOARD, 1000), (R.ELG.KCFG 3, 1)]
    ++ (List.range 8).map fun k => (R.ELG.KGRANT k, BitVec.ofNat 32 (500 + k)))
  { (c.modTick fun t => { t with edgeAt := some 1000, reserved := false, kslot := List.replicate 8 0x4B001 }) with
    elg := f { c.elg with debt := List.replicate 8 1 } }

theorem witness_TheLedgerReservesItsBudgetAndDefersKennels :
    (let c := elgC id
     c.awake = true ∧ c.tick.edgeAt = some 1000 ∧ c.tick.reserved = false ∧ c.tstate = 1 ∧ c.elg.debt.length = 8) ∧
    (let c := (elgC fun g => { g with newRes := List.replicate 8 true }).modTick fun t => { t with reserved := true }
     c.calm = true ∧ c.tick.edgeAt = some 1000 ∧ c.tick.reserved = true) ∧
    ((upC []).calm = true ∧ (upC []).tstate = 0) ∧
    (let c := elgC fun g => { g with formed := true, pool := 0, rsv := List.replicate 8 true, kcfg := g.kcfg.set 3 3, res := List.replicate 8 0, chg := List.replicate 9 5000000 }
     c.calm = true ∧ c.atLimit 3 = true ∧ nth false c.elg.rsv 3 = true ∧ bit (nth 0 c.elg.kcfg 3) 0 = true ∧ bit (nth 0 c.elg.kcfg 3) 1 = true ∧
       c.rb (R.KMAP.KSTAT 3) 3 = false ∧ c.atLimit 7 = true ∧ c.deferred 7 = false ∧ bit (nth 0 c.elg.kcfg 7) 0 = false) := by
  and_intros <;> decide +kernel
theorem witness_MuzzleTelemetryAndLedgerRegistersAct :
    ((upC []).awake = true ∧ (upC []).rb R.ELG.LSTAT 0 = false ∧ { (upC []).elg with tel := 5 }.tel ≠ 0) ∧
    (let c := { upC [(R.ELG.PMCFG, 0x80A)] with elg := { (upC []).elg with vexp := List.replicate 8 (some 3) } }
     let rs : List (Option (BitVec 5 × BitVec 16 × BitVec 16)) := List.replicate 8 (some (3, 100, 200))
     c.rf R.ELG.PMCFG 11 8 = 8 ∧ c.elg.last.length = 8 ∧ c.elg.vexp.length = 8 ∧ c.elg.hist.length ≤ 8 ∧
       (∀ i, i < 8 → nth none rs i = some (3, 100, 200) ∧ nth none c.elg.vexp i = some 3)) ∧
    ((upC [(R.ELG.PMCFG, 0x10A)]).rf R.ELG.PMCFG 11 8 = 1 ∧ (upC []).rb R.ELG.LSTAT 1 = false) ∧
    (let c := upC [(R.H.POWN 0x00A, 0)]
     c.takes (wr R.ELG.BUDGET 1000) = true ∧ c.takes (wr R.ELG.BUDGET 120000) = true ∧ c.takes (wr R.ELG.BUDGET 120001) = true ∧ c.rwlOk .cc 0x00A = true ∧
       c.takes (wr (R.ELG.KGRANT 7) 5) = true ∧ (upC []).takes (wr (R.ELG.KGRANT 7) 5) = true ∧ (upC []).rwlOk .cc 0x00A = false) := by
  and_intros <;> decide +kernel

/-- The part with every core stopped. -/
def stopC (regs : List (Nat × BitVec 32)) : Chip := { upC regs with cores := (upC regs).cores.map fun x => { x with run := .stopped } }

theorem witness_TheKennelMapIsCommittedAndKennelsFreezeAndReset :
    (let c := upC [(R.H.POWN 0x00C, 0), (R.KMAP.TOWN0, 0o300), (R.H.PSTAT (slotTile 2), 0x40), (R.H.PSTAT (slotAry 2), 0x40), (R.H.PSTAT (slotDrn 2), 0x40)]
     c.takes (wr R.KMAP.CMT 1) = true ∧ c.takes (wr R.KMAP.CMT 3) = true ∧ c.rwlOk .cc 0x00C = true ∧ c.rb R.KMAP.CSTAT 0 = false ∧ c.sp.length = 16 ∧
       c.mapWhy = 0 ∧ c.stOwner 2 ≠ c.owner 2 ∧ (c.w (R.H.PSTAT (slotTile 2)) 0).mapWhy ≠ 0) ∧
    (let c := { upC [] with sp := modNth (fun u => { u with fillAll := true }) (upC []).sp 15 }
     c.calm = true ∧ c.sp.length = 16 ∧ (c.scratch 15).fillAll = true) ∧
    (let c := stopC []
     c.takes (wr (R.KMAP.KCTL 7) 1) = true ∧ c.kens.length = 8 ∧ (∀ j, j < 17 → (c.core j).run = .stopped) ∧ c.rb (R.KMAP.KCTL 7) 0 = false ∧ c.kstate 7 = 0 ∧
       c.takes (wr (R.KMAP.KCTL 7) 2) = true ∧ (stopC [(R.KMAP.KCTL 7, 1), (R.KMAP.KSTAT 7, 2)]).takes (wr (R.KMAP.KCTL 7) 0) = true ∧
       (stopC [(R.KMAP.KCTL 7, 1), (R.KMAP.KSTAT 7, 2)]).kstate 7 = 2) ∧
    (∀ n, n = 1 ∨ n = 3 → let c : Chip := { stopC [(R.KMAP.KSTAT 7, BitVec.ofNat 32 n)] with
       kens := modNth (fun u => { u with tiles := [0, 15] }) (stopC []).kens 7 }
     c.calm = true ∧ (c.ken 7).tiles = [0, 15] ∧ (∀ j ∈ [0, 15], j < 16 ∧ (c.core j).run = .stopped ∧ (nth {} c.ary j).runs = [] ∧ (nth {} c.drn j).jobs = []) ∧
       c.kens.length = 8 ∧ c.kstate 7 = n) ∧
    ((upC []).takes (wr R.TBL.ARWR 0x800003FF) = true ∧ (upC []).ecc = []) := by
  refine ⟨?_, ?_, ?_, ?_, ?_⟩
  case refine_4 => rintro _ (rfl | rfl) <;> (and_intros <;> decide +kernel)
  all_goals and_intros <;> decide +kernel

/-- A ring descriptor: 2 slots of 256 bytes at the base of the scratchpad, tagged. -/
def aDesc : List (BitVec 8) := [3, 0, 2, 13, 4, 0, 0, 0, 0, 0x10, 0, 0, 1, 0] ++ List.replicate 50 0
def tileC (f : Ring → Ring) : Chip :=
  let c := stopC [(R.TILE.SPBMAP 2, 0o4)]
  { c with sp := modNth (fun u => { u with rings := modNth f u.rings 15 }) c.sp 2, ports := modNth (fun p => { p with cache := [(0x123, aDesc)] }) c.ports 2 }

theorem witness_TilesAreConfiguredAndTheirRingsAndCoresStart :
    (let c := stopC [(R.TILE.PFSTAT 2, 2), (R.TILE.CCTL 2, 0), (R.TILE.SPBMAP 2, 0)]
     c.takes (wr (R.TILE.SPBMAP 2) 0o44441234) = true ∧ (∀ i, i < 8 → c.quadRinged 2 i = false) ∧ c.takes (wr (R.TILE.SPBMAP 2) 0o77777777) = true ∧
       c.takes (wr (R.TILE.SPPROT 2) 0xFF) = true ∧ (∀ i, i < 8 → c.rf (R.TILE.SPBMAP 2) (3 * i + 2) (3 * i) = 0) ∧ c.takes (wr (R.TILE.SWI 2) 0x8000) = true ∧
       c.takes (wr (R.TILE.PLOAD 2) 1) = true ∧ (c.core 2).run = .stopped ∧ c.takes (wr (R.TILE.CCTL 2) 1) = true ∧ c.rf (R.TILE.PFSTAT 2) 1 0 = 2 ∧
       c.coreFrz 2 = false ∧ (stopC []).rf (R.TILE.PFSTAT 2) 1 0 ≠ 2) ∧
    ((upC [(R.TILE.CCTL 2, 1)]).takes (wr (R.TILE.CCTL 2) 0) = true ∧ ((upC []).core 2).run = .run ∧ ((upC []).core 2).loads = []) ∧
    (let c := tileC id
     c.takes (wr (R.TILE.RACT 2) 0x010F0123) = true ∧ (c.ring 2 15).activating = none ∧ c.ports.length = 17 ∧
       (c.descCache (.tile 2)).find? (fun e => e.1 == 0x123) = some (0x123, aDesc) ∧ c.fence (c.owner 2) .table (Chip.entryAddr 0x123) 64 false = none ∧
       (c.scratch 2).rings.length = 16) ∧
    (let c := tileC fun r => { r with active := true }
     c.takes (wr (R.TILE.RACT 2) 0x020F0000) = true ∧ (c.ring 2 15).activating = none ∧ (c.ring 2 15).active = true) ∧
    (let c := { upC [] with sp := modNth (fun u => { u with zfill := [0, 7] }) (upC []).sp 2 }
     c.calm = true ∧ c.sp.length = 16 ∧ c.cores.length = 17 ∧ (∀ i ∈ (c.scratch 2).zfill, i < 8)) ∧
    (let c := tileC fun r => { r with activating := some (0xFFFF, aDesc) }
     (c.ring 2 15).activating = some (0xFFFF, aDesc) ∧
       (c.modRing 2 15 fun r => { r with activating := none, deactDue := false }).ringWhy 2 15 aDesc = 0 ∧
       (c.modRing 2 15 fun r => { r with activating := none, deactDue := false }).ringWhy 2 15 [] ≠ 0) ∧
    (let c := tileC fun r => { r with stalls := [(.core 2, 7)] }
     c.calm = true ∧ (c.ring 2 15).stalls = (.core 2, 7) :: [] ∧ c.rb (R.KMAP.KSTAT (c.owner 2)) 3 = false) ∧
    (let c := { upC [(R.TILE.SPSCRB 2, 3), (R.TILE.SPPROT 2, 1)] with ecc := [(spBase 2, .ue)] }
     c.awake = true ∧ c.ecc = [(spBase 2, .ue)] ∧ c.rb (R.TILE.SPPROT 2) ((spBase 2 - spBase 2) / (c.spSize / 8)) = true ∧ c.rb (R.TILE.SPSCRB 2) 0 = true ∧
       c.rb (R.TILE.SPSCRB 2) 1 = true) ∧
    ((upC []).gives (rd (R.TILE.SLOG0 2)) = true ∧ (upC []).pagePwr (slotTile 2) = 0 ∧ (upC []).inSrst (slotTile 2) = false ∧ (upC []).slotEmpty (slotTile 2) = false) ∧
    (let c := { upC [(R.TILE.PLEN 2, 4096), (R.TILE.PBASE_LO 2, BitVec.ofNat 32 (spBase 2 % 2 ^ 32)), (R.TILE.PBASE_LO 2 + 4, BitVec.ofNat 32 (spBase 2 / 2 ^ 32))] with
       cores := (upC []).cores.set 2 { run := .filling } }
     c.calm = true ∧ (c.core 2).run = .filling ∧ c.ecc = [] ∧ c.r64 (R.TILE.PBASE_LO 2) % 2 ^ 48 = spBase 2 ∧ c.ownWindow (spBase 2) 98304 = spBase 2 ∧
       c.regionOf (spBase 2) 98304 = .sp 2 ∧ c.fence (c.owner 2) (.sp 2) (spBase 2) 98304 false = none ∧ c.unavailable (.sp 2) (spBase 2) 98304 = none) := by
  and_intros <;> decide +kernel

/-! ### Witnesses: the stacks, the array slices and the drain units -/

/-- An HBM address of stack 1 under STACK interleave, and the part with all its stacks ready. -/
def hbA : Nat := 0x100000000000 + 0x400000000 + 0x40
def hbmC (regs : List (Nat × BitVec 32)) : Chip := upC (regs ++ (List.range 4).map fun s => (R.HBM.STAT s, 0xA))

theorem witness_TheStacksAndViewRingsActAsCommanded :
    (let j : Job := { ken := 0, who := 2, bundle := 5, rec_ := [], src := [], dst := [], running := true, x := { id := 9, ops := [.rd hbA 32 64], busy := true } }
     let c := { hbmC [] with engines := modNth (fun g => { g with jobs := [j] }) (hbmC []).engines 7
                             hbm := modNth (fun h => { h with rq := [HbmRead.mk 0 hbA 32 7 9 64] }) (hbmC []).hbm 1 }
     c.awake = true ∧ c.ecc = [] ∧ c.hbm.length = 4 ∧ c.engines.length = 8 ∧ 0 < (c.hbmSt 1).rq.length ∧ (c.eng 7).jobs = [j] ∧ (c.eng 7).moves = [] ∧
       c.ownWindow hbA 32 = hbA ∧ c.regionOf hbA 32 = .hbm ∧ c.fence 0 .hbm hbA 32 false = none ∧ c.unavailable .hbm hbA 32 = none) ∧
    (let c := hbmC [(R.HBM.CTL 1, 2)]
     c.awake = true ∧ c.surv 17 = true ∧ 1 < c.stackCnt ∧ c.ecc = [] ∧ c.rb (R.HBM.CTL 1) 1 = true ∧ c.rf (R.HBM.STAT 1) 2 0 = 2) ∧
    (let c := { hbmC [(R.HBM.CTL 1, 2)] with ecc := [(hbA, .ue)] }
     c.ecc = [(hbA, .ue)] ∧ c.regionOf hbA 1 = .hbm ∧ c.stackOf hbA = 1) ∧
    (let c := hbmC [(R.H.POWN (slotHbm 1), 0), (R.H.POWN (slotHbm 0), 0), (R.HBM.CTL 1, 0), (R.HBM.CTL 0, 0)]
     c.takes (wr (R.HBM.CTL 1) 1) = true ∧ c.rwlOk .cc (slotHbm 1) = true ∧ c.rb (R.HBM.CTL 1) 0 = false ∧ c.stackMode = true ∧
       c.takes (wr (R.HBM.CTL 0) 32) = true ∧ c.rb (R.HBM.CTL 0) 0 = false) ∧
    (hbmC [(R.H.POWN (slotHbm 1), 0)]).rangeOn 1 = false ∧ ((upC [(R.H.POWN (slotHbm 1), 0)]).stackMode = false) ∧
    (let c := upC [(R.HBM.STAT 1, 3), (R.HBM.CTL 1, 0), (R.HBM.STAT 0, 1)]
     c.awake = true ∧ c.rf (R.HBM.STAT 1) 2 0 = 3 ∧ c.rb (R.HBM.CTL 1) 0 = false ∧ c.rf (R.HBM.STAT 0) 2 0 = 1) ∧
    (let c := upC [(R.H.POWN 0x00F, 0), (R.LST.LRPIT 7, 4096)]
     c.takes (wr (R.LST.LRCFG 7) (0x80000000 + 16 * 512)) = true ∧ c.rwlOk .cc 0x00F = true ∧ c.rb (R.LST.LRCFG 7) 31 = false ∧ c.rf (R.LST.LRPIT 7) 12 0 = 4096 ∧
       c.tickRuns = false ∧ (∀ u, u < 8 → u ≠ 7 → c.rb (R.LST.LRCFG u) 31 = false) ∧ c.takes (wr (R.LST.LRCFG 7) (0x80000000 + 15 * 512)) = true ∧
       c.takes (wr (R.LST.LRPIT 7) 2) = true ∧ c.takes (wr (R.LST.LRPIT 7) 4096) = true) := by and_intros <;> decide +kernel

/-- Tile 2's array slice with its formats INT8, all its scratchpad given to the array port. -/
def aryC (f : ArySt → ArySt) : Chip :=
  let c := upC [(R.TILE.SPBMAP 2, 0o22222222), (R.ARY.AFMT 2, 0x11)]
  { c with ary := modNth f c.ary 2 }
def aAddr : Nat := spBase 2 + 0x180000
def aCmd (a : Attach) : AryCmd := ⟨a, 7, 100, 3⟩
def aReg : WReg := ⟨1, List.replicate 1152 0, []⟩
def aRun (pos : Nat) (d : List (List (BitVec 8))) : ARun :=
  { addr := aAddr, npos := 1, row := 2047, b0 := 0, ctx := 0, cls := 0, closing := false, seq := 0, acc := false, ntf := false, w := aReg, af := 1, zw := 0, za := 0, kind := 0, lines := [aAddr], data := d
    pos := pos, beg := 5, bundle := 7 }

theorem witness_TheArraySliceLoadsWeightsAndAccumulatesStreams :
    (let c := aryC fun u => { u with queue := [aCmd (.acfg 0 0x66)] }
     c.calm = true ∧ c.ary.length = 16 ∧ c.unitFrz 2 (slotAry 2) = false ∧ (c.arySt 2).queue = [aCmd (.acfg 0 0x66)]) ∧
    (((aryC fun u => { u with queue := [aCmd (.acfg 0 2)] }).arySt 2).queue = [aCmd (.acfg 0 2)]) ∧
    (let c := aryC fun u => { u with queue := [aCmd (.awld aAddr)] }
     (c.arySt 2).queue = [aCmd (.awld aAddr)] ∧ (c.arySt 2).loading.isNone = true ∧ (c.arySt 2).runs.isEmpty = true ∧ aAddr % 64 = 0 ∧
       within aAddr (imgBytes (c.rf (R.ARY.AFMT 2) 3 0)) (spBase 2) c.spSize = true ∧ c.rf (R.ARY.AFMT 2) 3 0 = 1) ∧
    (let c := aryC fun u => { u with queue := [aCmd (.astr aAddr 1 2047 true false false)], active := some aReg }
     (c.arySt 2).queue = [aCmd (.astr aAddr 1 2047 true false false)] ∧ c.astrWhy 2 aAddr 1 2047 (some 1) = 0) ∧
    (let l : ALoad := { addr := aAddr, fmt := 1, beg := 5, seq := 0, bundle := 7, data := List.replicate 64 0 }
     let c := aryC fun u => { u with loading := some l }
     (c.arySt 2).loading = some l ∧ l.data.length % 64 = 0 ∧ l.data.length < imgBytes 1 ∧ c.portSp 2 2 (aAddr + 64) 64 = true ∧ imgBytes 1 ≤ 1152) ∧
    (let c := aryC fun u => { u with runs := [aRun 0 []] }
     (c.arySt 2).runs = [aRun 0 []] ∧ (aRun 0 []).data.length < (aRun 0 []).lines.length ∧ c.portSp 2 2 aAddr 64 = true) ∧
    ((aRun 0 [List.replicate 64 0]).ready 0 = true ∧ (aRun 0 []).pos < (aRun 0 []).npos ∧ (aRun 0 []).kind < 3 ∧ (aRun 1 []).npos ≤ (aRun 1 []).pos ∧ aReg.bad = []) := by
  and_intros <;> decide +kernel

/-- Tile 2's drain unit; a profile of no stages that writes INT32. -/
def drnC (f : DrnSt → DrnSt) : Chip :=
  let c := upC [(R.TILE.SPBMAP 2, 0o22222222)]
  { c with drn := modNth f c.drn 2 }
def aProf : List (BitVec 32) :=
  [4 + 20 * 2 ^ 14, 16384 + 0x7E * 65536, 16384 + 0x7E * 65536, 5 + 8192 * 2, 2 + 8192 * 2, 32, 64, 0, 0, 0, 3, 1 + 2 * 65536 + 200 * 2 ^ 24, 0]
def aDjob (n : Nat) : DrnCmd := ⟨.djob 7 aAddr 4 n false true aProf 0, 7, 100⟩
def aDrun : DrnJob := { prof := 7, addr := aAddr, row := 4, nrow := 6, ntf := false, words := aProf, beg := 5, bundle := 7 }

theorem witness_TheDrainUnitReadsRowsAndWritesPieces :
    (let c := drnC fun u => { u with queue := [aDjob 6] }
     c.calm = true ∧ c.drn.length = 16 ∧ c.unitFrz 2 (slotDrn 2) = false ∧ (c.drnSt 2).queue = [aDjob 6] ∧ c.djobWhy 2 aAddr 4 6 aProf = 0 ∧
       (c.drnSt 2).jobs.isEmpty = true ∧ c.aryBefore 2 0 = true ∧ c.djobWhy 2 aAddr 2047 6 aProf ≠ 0 ∧
       (aryC fun u => { u with queue := [⟨.aswp, 7, 100, 0⟩], seq := 1 }).aryBefore 2 1 = false) ∧
    (let c := drnC fun u => { u with jobs := [aDrun] }
     (c.drnSt 2).jobs = [aDrun] ∧ aDrun.reads.length < aDrun.nrow ∧ (c.drnSt 2).dpmEcc = [] ∧ (c.arySt 2).aamEcc = [] ∧ (c.drnSt 2).sat.length = 8 ∧
       (c.drnSt 2).und.length = 8 ∧ (c.drnSt 2).maxp.length = 8 ∧ (c.drnSt 2).maxn.length = 8 ∧ aDrun.prof < 8) ∧
    (let p : Piece := { bytes := [(aAddr, 5), (aAddr + 1, 6)], rows := [], exps := false }
     let j := { aDrun with reads := [1, 2, 3, 4, 5, 6], pieces := [p] }
     let c := drnC fun u => { u with jobs := [j] }
     (c.drnSt 2).jobs = [j] ∧ j.closed = true ∧ Chip.byteRuns p.bytes = [(aAddr, [5, 6])] ∧ c.portSp 2 2 aAddr 2 = true) ∧
    (let c := upC [(R.DRN.DPA 2, 1278)]
     c.takes (wr (R.DRN.PCMT 2) 2) = true ∧ c.takes (wr (R.DRN.PCMT 2) 1) = true ∧ c.takes (wr (R.DRN.DPD 2) 9) = true ∧ c.rf (R.DRN.DPA 2) 10 0 = 1278 ∧
       c.drnBusy 2 = false ∧ c.gives (rd (R.DRN.DPD 2)) = true ∧ c.pagePwr (slotDrn 2) = 0 ∧ c.inSrst (slotDrn 2) = false ∧ c.slotEmpty (slotDrn 2) = false) ∧
    ((upC [(R.DRN.DSTAT 2, 1)]).takes (wr (R.DRN.DPD 2) 9) = true ∧ (upC [(R.DRN.DSTAT 2, 1)]).drnBusy 2 = true) := by and_intros <;> decide +kernel

/-- The machine with DMA engine 3 changed: stacks work, tile 2's scratchpad is the DMA port's, kennel 0's. -/
def engC (f : Engine → Engine) : Chip :=
  let c := upC ([(R.H.POWN (slotDma 3), 0), (R.TILE.SPBMAP 2, 0o33333333), (R.LST.LRCFG 5, 0x80000000)] ++ (List.range 4).map fun s => (R.HBM.STAT s, 0xA))
  { c with engines := modNth f c.engines 3 }
def dDesc (ken kind base : Nat) : List (BitVec 8) :=
  ([1, ken + 24 + kind * 32, 31, 1, 0, 0, 0, 0].map (BitVec.ofNat 8)) ++ bytesLE 6 base ++ [0, 0] ++ bytesLE 3 0x7E4000 ++ [0, 0, 0, 0, 0] ++ bytesLE 3 8 ++ bytesLE 5 32 ++
    List.replicate 32 0
def dSrc : List (BitVec 8) := dDesc 0 1 0x2000000000
def dDst : List (BitVec 8) := dDesc 0 2 (spBase 2)
def dRec : List (BitVec 8) :=
  bytesLE 2 600 ++ bytesLE 2 601 ++ List.replicate 30 0 ++ bytesLE 3 4 ++ bytesLE 3 1 ++ bytesLE 3 1 ++ bytesLE 3 1 ++ bytesLE 3 1 ++ List.replicate 15 0
def dJobQ : Queued := ⟨.dmaj 3 77 dRec, 9, none⟩
def dQueued (e : Attach) (src : List (BitVec 8)) : Chip :=
  let c := engC fun g => { g with cache := [(600, src), (601, dDst)] }
  { c with ports := modNth (fun p => { p with queue := [⟨e, 4, none⟩, dJobQ] }) c.ports 5 }
def dJob (ops : List DmaOp) (x : Xfer → Xfer) : Job :=
  { ken := 0, who := 5, bundle := 9, rec_ := dRec, src := dSrc, dst := dDst, running := true, x := x { id := 4, unit := 1, ops := ops, buf := [(0, 1), (5, 7), (31, 2)] } }
def dJobC (ops : List DmaOp) (x : Xfer → Xfer) : Chip := engC fun g => { g with jobs := [dJob ops x] }
def dFree (c : Chip) : Bool := c.calm && c.engines.length == 8 && c.ports.length == 17 && !c.engFrz 3 && c.surv 23
def dHbm : Nat := 0x100000000000 + 0x400000000 + 0x40
def dMove : LineMove := { prog := 2, view := 5, lseq := 7, slot := 3, frame := 0, row := 0, x := { id := 5, unit := 1 } }
def dLm (rows : Nat) : Chip := upC [(R.H.POWN (slotDma 3), 0), (R.DMA.LMSRC 3 2, BitVec.ofNat 32 rows), (R.DMA.LMDST 3 2, 4 + 100 * 4096), (R.LST.LRCFG 5, 0x80000000)]

theorem witness_TheDmaEnginesMoveDataAndTablesChangeInOrder :
    ((∀ src ∈ [dSrc, dDesc 1 1 0x2000000000],
       let c := dQueued (.dmaj 3 77 dRec) src
       dFree c = true ∧ (c.jport 5).queue = [⟨.dmaj 3 77 dRec, 4, none⟩, dJobQ] ∧ c.acceptFrom 3 = some (5, ⟨.dmaj 3 77 dRec, 4, none⟩) ∧ (c.eng 3).jobs.length < 56 ∧
         c.descCache (.eng 3) = [(le dRec 0 2, src), (le dRec 2 2, dDst)] ∧ le dRec 0 2 ≠ le dRec 2 2 ∧
         c.fence (c.owner 5) .table (Chip.entryAddr (le dRec 0 2)) 64 false = none ∧ c.fence (c.owner 5) .table (Chip.entryAddr (le dRec 2 2)) 64 false = none) ∧
      (dQueued (.dmaj 3 77 dRec) dSrc).jobWhy 0 dRec dSrc dDst = 0 ∧ (dQueued (.dmaj 3 77 dRec) dSrc).owner 5 = 0 ∧
      (dQueued (.dmaj 3 77 dRec) dSrc).jobWhy 0 dRec (dDesc 1 1 0x2000000000) dDst ≠ 0) ∧
    (let j := { dJob [] id with running := false }
     let c := engC fun g => { g with jobs := [j] }
     dFree c = true ∧ (c.eng 3).jobs = [j] ∧ (c.eng 3).moves = [] ∧ j.ken < 8 ∧ j.running = false) ∧
    (∀ op ∈ [DmaOp.wr (spBase 2) 32 0, .rd (spBase 2) 32 0, .wr 0x2000000040 32 0, .rd dHbm 32 0],
       let j := dJob [op, .wr 6 6 6] id
       let c := dJobC [op, .wr 6 6 6] id
       dFree c = true ∧ (c.eng 3).jobs = [j] ∧ (c.eng 3).moves = [] ∧ j.running = true ∧ c.kenRuns j.ken = true ∧ c.muzzled 3 j.ken = false ∧ c.elg.mlvl = 0 ∧
         j.x.busy = false ∧ j.x.abort = false ∧ j.x.wait = none ∧ c.ecc = [] ∧ c.hbm.length = 4) ∧
    (let c := dJobC [] id
     c.ownWindow (spBase 2) 32 = spBase 2 ∧ c.regionOf (spBase 2) 32 = .sp 2 ∧ c.ownWindow 0x2000000040 32 = 0x2000000040 ∧ c.regionOf 0x2000000040 32 = .line ∧
       c.fence 0 .line 0x2000000040 32 true = none ∧ c.unavailable .line 0x2000000040 32 = none ∧ c.ownWindow dHbm 32 = dHbm ∧ c.regionOf dHbm 32 = .hbm ∧
       c.fence 0 .hbm dHbm 32 false = none ∧ c.unavailable .hbm dHbm 32 = none ∧ c.poolFree (c.stackOf dHbm) (c.pchanOf dHbm) false 3 = true ∧ c.stackOf dHbm < 4) ∧
    (let f : Xfer → Xfer := fun x => { x with busy := true, port := some 2 }
     let j := dJob [.wr (spBase 2) 32 0, .wr 6 6 6] f
     let c := dJobC [.wr (spBase 2) 32 0, .wr 6 6 6] f
     (c.eng 3).jobs = [j] ∧ j.x.busy = true ∧ j.x.port = some 2 ∧ c.portNext 2 = some (3, j.x.id) ∧ c.dport.length = 16 ∧ c.owner 2 = j.ken ∧
       c.portSp 2 3 (spBase 2) 32 = true ∧ (j.x.buf.bytes 0 32).length = 32) ∧
    (let j := dJob [] fun x => { x with unit := 4 }
     let c := dJobC [] fun x => { x with unit := 4 }
     dFree c = true ∧ (c.eng 3).jobs = [j] ∧ c.kenRuns j.ken = true ∧ Chip.jobMore j = false ∧ j.x.busy = false ∧ j.x.abort = false ∧ jNtf j.rec_ = false ∧ jVchk j.rec_ = false) ∧
    (let f : Xfer → Xfer := fun x => { x with wait := some (900000, 2000000) }
     let j := dJob [.wr dHbm 32 0, .wr 6 6 6] f
     let c := dJobC [.wr dHbm 32 0, .wr 6 6 6] f
     dFree c = true ∧ (c.eng 3).jobs = [j] ∧ j.x.wait = some (900000, 2000000) ∧ j.x.busy = false ∧ c.waiters = [(900000, 3, j.x.id)] ∧ c.kstate j.ken = 0 ∧
       c.fence j.ken .hbm dHbm 32 true = none ∧ c.ecc = [] ∧ c.poolFree (c.stackOf dHbm) (c.pchanOf dHbm) true 3 = true ∧ c.rb (R.KMAP.KSTAT j.ken) 3 = false) ∧
    (let c := engC fun g => { g with moves := [dMove] }
     dFree c = true ∧ (c.eng 3).jobs = [] ∧ (c.eng 3).moves = [dMove] ∧ c.moveMore 3 dMove = false ∧ dMove.x.busy = false ∧ dMove.x.abort = false ∧
       c.viewOver dMove.view dMove.lseq = false ∧ dMove.prog < 4) ∧
    (let w := wr (R.DMA.LMCFG 3 2) (1 + 5 * 2 + 2 ^ 15 * 2 + 9 * 2 ^ 11)
     let c := dLm 100
     c.takes w = true ∧ w.ofs.toNat = R.DMA.LMCFG 3 2 ∧ c.rb (R.DMA.LMCFG 3 2) 0 = false ∧ bit w.val 0 = true ∧ c.rwlOk w.who (slotDma 3) = true ∧ fld w.val 16 15 ≠ 3 ∧
       c.rf (R.DMA.LMSRC 3 2) 17 0 ≠ 0 ∧ c.rf (R.DMA.LMDST 3 2) 11 0 ≠ 0 ∧ c.rf (R.DMA.LMDST 3 2) 29 12 ≠ 0 ∧
       c.rf (R.DMA.LMDST 3 2) 29 12 * max (fld w.val 16 15) 1 ≤ c.rf (R.DMA.LMDST 3 2) 11 0 * 64 ∧ c.rb (R.LST.LRCFG (fld w.val 3 1)) 31 = true ∧
       c.takes (wr (R.DMA.LMCFG 3 2) (1 + 4 * 2)) = true ∧ c.rb (R.LST.LRCFG 4) 31 = false ∧ (dLm 0).takes w = true ∧ (dLm 0).rf (R.DMA.LMSRC 3 2) 17 0 = 0) ∧
    (∀ img ∈ [dDst, List.replicate 64 0],
       let c := dQueued (.tdnew 600 0 img) dSrc
       dFree c = true ∧ (c.jport 5).queue = [⟨.tdnew 600 0 img, 4, none⟩, dJobQ] ∧ img.length = 64 ∧ c.ecc = []) ∧
    (dQueued (.tdnew 600 0 (List.replicate 64 0)) dSrc).tdCode 0 600 (List.replicate 64 0) = 0 ∧ (dQueued (.tdnew 600 0 dDst) dSrc).tdCode 0 600 dDst ≠ 0 ∧
    (let c := dQueued (.tdinv 600 false) dSrc
     dFree c = true ∧ (c.jport 5).queue = [⟨.tdinv 600 false, 4, none⟩, dJobQ] ∧ c.owner 5 = 0) := by
  and_intros <;> (try rintro _ (rfl | rfl)) <;> decide +kernel

theorem stack_lt (c : Chip) (a : Nat) (h1 : c.stackMode = false) (h2 : c.stackCnt = 4) : c.stackOf a < 4 := by
  unfold Chip.stackOf
  rw [if_neg (by simp [h1]), h2]
  have h : ∀ x y : Nat, x < 128 → x ^^^ (y % 128) < 128 := fun x y h => Nat.xor_lt_two_pow (n := 7) h (Nat.mod_lt _ (by decide))
  have hf : ∀ (f : Nat → Nat) (l : List Nat) (x : Nat), x < 128 → l.foldl (fun x i => x ^^^ (f i % 128)) x < 128 := by
    intro f l
    induction l with
    | nil => exact fun _ h => h
    | cons i l ih => exact fun x hx => ih _ (h _ _ hx)
  exact Nat.div_lt_of_lt_mul (hf (fun i => (a - 0x100000000000) / 256 / 2 ^ (7 * i)) _ 0 (by decide))

theorem lrn_reaches (c : Chip) (lo hi : Nat) (hlo : 0x100000000000 ≤ lo) (hhi : hi ≤ 0x100020000000) (hk : c.lrnk = 0) (hm : c.stackMode = false) (hn : c.stackCnt = 4)
    (hd : c.devNum = 0) (hs : ∀ s, s < 4 → c.surv (16 + s) = true ∧ c.rf (R.HBM.STAT s) 2 0 = 2) : c.lrnReaches lo hi := by
  intro a n wr h0 h1 h2
  refine ⟨?_, ?_, ?_, ?_⟩
  · simp only [Chip.ownWindow, hd, winBase, within]
    repeat (first | rw [if_neg (by simp; omega)] | rfl)
  · simp only [Chip.regionOf, within]
    repeat (first | rw [if_neg (by simp; omega)] | rw [if_pos (by simp; omega)] | rfl)
  · simp [Chip.fence, hk]
  · simp only [Chip.unavailable]
    rw [List.findSome?_eq_none_iff]
    intro x hx
    obtain ⟨g, -, rfl⟩ := List.mem_map.1 hx
    have := hs _ (stack_lt c g hm hn)
    simp [this.1, this.2]

theorem crc32_lt (l : List (BitVec 8)) : crc32 l < 2 ^ 32 := by unfold crc32; exact BitVec.isLt _

def lrnX : Nat := 0x100018000000
def sc (e : Nat) : BitVec 32 := BitVec.ofNat 32 (0x4000 + e * 65536)
def lrnRegs (st : Nat) : List (Nat × BitVec 32) :=
  [(R.HBM.STAT 0, 2), (R.HBM.STAT 1, 2), (R.HBM.STAT 2, 2), (R.HBM.STAT 3, 2), (R.H.POWN 0x00E, 0), (R.LRN.LGEO, 64 + 2 * 2 ^ 16),
   (R.LRN.LWBASE_LO, 0x10000000), (R.LRN.LWBASE_LO + 4, 0x1000), (R.LRN.LXBASE_LO, 0x18000000), (R.LRN.LXBASE_LO + 4, 0x1000),
   (R.LRN.ISCL, sc 0x78), (R.LRN.WSCL, sc 0x79), (R.LRN.TSCL, sc 0x7A), (R.LRN.GSCL, sc 0x78), (R.LRN.MSCL, sc 0x70), (R.LRN.RSCL, sc 0x7A), (R.LRN.ETA, sc 0x7A),
   (R.LRN.WMAX, sc 0x85), (R.LRN.PRTH, sc 0x75), (R.LRN.MPTH, sc 0x70), (R.LRN.CRTH, sc 0x70), (R.LRN.WOCT, sc 0x70), (R.LRN.LPC, 3 + 4 * 65536), (R.LRN.LSYN, 100),
   (R.LRN.LEPOCH, 300), (R.LRN.LCMT, 1), (R.LRN.LCFG, 1 + 3 * 256 + 2 * 4096), (R.LRN.LSTAT, BitVec.ofNat 32 st), (R.LRN.LEPNO, 7),
   (R.KMAP.LIVE_KATTR 0, 1), (R.KMAP.LIVE_HRNG 0, 4095 * 4096)]
def lrnC (st ctl : Nat) (mem : Memory) : Chip := { upC ((R.LRN.LCTL, BitVec.ofNat 32 ctl) :: lrnRegs st) with mem := mem }

def crcB (a z : Nat) : Memory := [(a, BitVec.ofNat 8 z), (a + 1, BitVec.ofNat 8 (z / 256)), (a + 2, BitVec.ofNat 8 (z / 65536)), (a + 3, BitVec.ofNat 8 (z / 16777216))]
theorem hbm_bytes (c : Chip) (h : c.lost = []) (a n : Nat) : c.getBytes .hbm a n = (List.range n).map fun i => c.mem.byte (a + i) := by
  have : ∀ b, c.under .hbm b = 0 := fun b => by simp [Chip.under, h, getKey]
  simp [Chip.getBytes, Chip.getByte, this, Chip.locOf]
theorem key_out (a i z : Nat) (m : Memory) (h : i < a ∨ a + 4 ≤ i) : Memory.byte (crcB a z ++ m) i = m.byte i := by
  simp only [crcB, Memory.byte, List.cons_append, List.nil_append, getKey]
  repeat rw [if_neg (by omega)]
theorem key_in (a z : Nat) (m : Memory) (h : z < 2 ^ 32) : natLE ((List.range 4).map fun i => Memory.byte (crcB a z ++ m) (a + i)) = z := by
  simp only [crcB, Memory.byte, List.cons_append, List.nil_append, getKey, show List.range 4 = [0, 1, 2, 3] from rfl, List.map, natLE]
  simp
  omega

theorem le_map (f : Nat → BitVec 8) (N i n : Nat) (h : i + n ≤ N) : le ((List.range N).map f) i n = natLE ((List.range n).map fun j => f (i + j)) := by
  unfold le; congr 1; apply List.ext_getElem <;> simp <;> omega
theorem take_map (f : Nat → BitVec 8) (N n : Nat) (h : n ≤ N) : ((List.range N).map f).take n = (List.range n).map f := by
  apply List.ext_getElem <;> simp <;> omega
theorem mem_bytes (m : Memory) (n : Nat) : ∀ a, m.bytes a n = (List.range n).map fun i => m.byte (a + i) := by
  induction n with
  | zero => intro a; rfl
  | succ n ih => intro a; rw [Memory.bytes, ih, List.range_succ_eq_map]; simp [Function.comp_def, Nat.add_assoc, Nat.add_comm 1]

/-- Memory with a valid record at address a: what it holds, the CRC of what it names, and its own CRC. -/
def withRec (a at_ z : Nat) (m : Memory) : Memory :=
  let m1 := crcB (a + at_) z ++ m
  crcB (a + 60) (crc32 ((List.range 60).map fun i => m1.byte (a + i))) ++ m1

theorem rec_out (a o z i : Nat) (m : Memory) (h : i < a + o ∨ a + o + 4 ≤ i) (h2 : i < a + 60 ∨ a + 64 ≤ i) : (withRec a o z m).byte i = m.byte i := by
  unfold withRec; rw [key_out _ _ _ _ (by omega), key_out _ _ _ _ (by omega)]
theorem rec_crc (a o z : Nat) (m : Memory) (_h : o + 4 ≤ 60 ∨ 64 ≤ o) (N : Nat) (hN : 64 ≤ N) :
    le ((List.range N).map fun i => (withRec a o z m).byte (a + i)) 60 4 = crc32 (((List.range N).map fun i => (withRec a o z m).byte (a + i)).take 60) := by
  rw [le_map _ _ _ _ (by omega), take_map _ _ _ (by omega)]
  have h1 : ((List.range 60).map fun i => (withRec a o z m).byte (a + i)) = (List.range 60).map fun i => (crcB (a + o) z ++ m : Memory).byte (a + i) := by
    apply List.map_congr_left; intro i hi
    have := List.mem_range.1 hi
    unfold withRec; rw [key_out _ _ _ _ (by omega)]
  rw [h1]
  have h2 : (fun j => (withRec a o z m).byte (a + (60 + j))) = fun j => (withRec a o z m).byte (a + 60 + j) := by funext j; rw [Nat.add_assoc]
  rw [h2]; unfold withRec; exact key_in _ _ _ (crc32_lt _)
theorem rec_z (a o z : Nat) (m : Memory) (h : o + 4 ≤ 60 ∨ 64 ≤ o) (N : Nat) (hN : o + 4 ≤ N) (hz : z < 2 ^ 32) :
    le ((List.range N).map fun i => (withRec a o z m).byte (a + i)) o 4 = z := by
  rw [le_map _ _ _ _ (by omega)]
  have h1 : ((List.range 4).map fun j => (withRec a o z m).byte (a + (o + j))) = (List.range 4).map fun j => (crcB (a + o) z ++ m : Memory).byte (a + o + j) := by
    apply List.map_congr_left; intro i hi
    have := List.mem_range.1 hi
    unfold withRec; rw [key_out _ _ _ _ (by omega), Nat.add_assoc]
  rw [h1]; exact key_in _ _ _ hz

theorem rec_valid (c : Chip) (b : Bool) (m : Memory) (z : Nat) (hm : ∀ i, i < 64 → c.mem.byte (Chip.pageAddr (b2n b) + i) = (withRec (Chip.pageAddr (b2n b)) 20 z m).byte (Chip.pageAddr (b2n b) + i))
    (hz : z = crc32 (List.replicate 19456 0)) (h4 : m.byte (Chip.pageAddr (b2n b) + 4) = 1)
    (h0 : ∀ i, i < 19456 → c.mem.byte (Chip.pageAddr (Chip.mapPage b) + i) = 0) : c.recValid b = true := by
  have hh : c.recBytes b = (List.range 64).map fun i => (withRec (Chip.pageAddr (b2n b)) 20 z m).byte (Chip.pageAddr (b2n b) + i) := by
    rw [Chip.recBytes, mem_bytes]
    exact List.map_congr_left fun i hi => hm i (List.mem_range.1 hi)
  have hb : c.mapBytes b = List.replicate 19456 0 := by
    rw [Chip.mapBytes, mem_bytes, List.map_congr_left (g := fun _ => 0) fun i hi => h0 i (List.mem_range.1 hi), List.map_const', List.length_range]
  have hz' : z < 2 ^ 32 := by rw [hz]; exact crc32_lt _
  have h1 : le (c.recBytes b) 4 1 = 1 := by
    rw [hh, le_map _ _ _ _ (by omega)]
    show natLE [(withRec _ 20 z m).byte (_ + (4 + 0))] = 1
    rw [rec_out _ _ _ _ _ (by omega) (by omega), h4]; rfl
  unfold Chip.recValid
  simp only [hb, h1]
  rw [hh, rec_crc _ _ _ _ (by omega) _ (by omega), rec_z _ _ _ _ (by omega) _ (by omega) hz', ← hz]
  simp only [BEq.rfl, Bool.and_self]
theorem nth_map (f : Nat → BitVec 8) (N i : Nat) (h : i < N) : nth 0 ((List.range N).map f) i = f i := by simp [nth, h]
theorem img_ok (c : Chip) (m : Memory) (x z : Nat) (hl : c.lost = []) (hx : c.lxbase = x)
    (hm : c.mem = withRec x 68 z m) (hz : z = crc32 (List.replicate 1245184 0)) (h4 : m.byte (x + 4) = 1)
    (h64 : bit (m.byte (x + 64)) 0 = false) (h0 : ∀ i, m.byte (x + 256 + i) = 0) : c.imgOk = true := by
  have hh : c.imgHead = (List.range 256).map fun i => (withRec x 68 z m).byte (x + i) := by
    rw [← hm, Chip.imgHead, hx]; exact hbm_bytes _ hl _ _
  have hlen : c.imgLen = 1245440 := by
    rw [Chip.imgLen, hh, nth_map _ _ _ (by omega), rec_out _ _ _ _ _ (by omega) (by omega), h64]; rfl
  have hb : c.getBytes .hbm (x + 256) 1245184 = List.replicate 1245184 0 := by
    rw [hbm_bytes _ hl, hm]
    have h1 : ∀ i, (withRec x 68 z m).byte (x + 256 + i) = 0 := fun i => by rw [rec_out _ _ _ _ _ (by omega) (by omega), h0]
    simp only [h1, List.map_const', List.length_range]
  have hz' : z < 2 ^ 32 := by rw [hz]; exact crc32_lt _
  have h1 : le ((List.range 256).map fun i => (withRec x 68 z m).byte (x + i)) 4 1 = 1 := by
    rw [le_map _ _ _ _ (by omega)]
    show natLE [(withRec x 68 z m).byte (x + (4 + 0))] = 1
    rw [rec_out _ _ _ _ _ (by omega) (by omega), h4]; rfl
  unfold Chip.imgOk
  simp only [hlen, hx]
  rw [hb, hh, rec_crc _ _ _ _ (by omega) _ (by omega), rec_z _ _ _ _ (by omega) _ (by omega) hz', h1, ← hz]
  simp only [BEq.rfl, Bool.and_self]

def aPage : Nat := 0x3000000000
def bPage : Nat := 0x3000000100
def oneRec : Memory := withRec aPage 20 (crc32 (List.replicate 19456 0)) [(aPage + 4, 1)]
def twoRecs : Memory := withRec bPage 20 (crc32 (List.replicate 19456 0)) ((bPage, 1) :: (bPage + 4, 1) :: oneRec)
def impBase : Memory := [(lrnX + 4, 1), (lrnX + 5, 64), (lrnX + 7, 2)]
def impMem : Memory := withRec lrnX 68 (crc32 (List.replicate 1245184 0)) impBase
theorem impBase_out (i : Nat) (h : lrnX + 8 ≤ i) : impBase.byte i = 0 := by
  simp only [impBase, Memory.byte, getKey]; unfold lrnX at *
  repeat rw [if_neg (by omega)]
  rfl
theorem imp_ok (mem : Memory) (h : mem = impMem) : (lrnC 0 0 mem).imgOk = true :=
  img_ok _ impBase lrnX _ rfl (show (lrnC 0 0 []).lxbase = lrnX by decide +kernel) h rfl (by decide +kernel) (by decide +kernel) fun i => impBase_out _ (by omega)
theorem one_out (i : Nat) (h : aPage + 64 ≤ i) : oneRec.byte i = 0 := by
  unfold oneRec; rw [rec_out _ _ _ _ _ (by omega) (by omega)]
  simp only [Memory.byte, getKey]; rw [if_neg (by unfold aPage at *; omega)]; rfl
theorem two_out (i : Nat) (h : bPage + 64 ≤ i) : twoRecs.byte i = 0 := by
  unfold twoRecs; rw [rec_out _ _ _ _ _ (by omega) (by omega)]
  have := one_out i (by unfold aPage bPage at *; omega)
  simp only [Memory.byte, getKey] at *; rw [if_neg (by omega), if_neg (by omega)]; exact this
theorem one_valid : (lrnC 0 0 oneRec).recValid false = true :=
  rec_valid _ false [(aPage + 4, 1)] _ (fun _ _ => rfl) rfl (by decide +kernel) fun i _ => one_out _ (by unfold aPage Chip.pageAddr Chip.mapPage; simp; omega)
theorem two_valid (b : Bool) : (lrnC 0 0 twoRecs).recValid b = true := by
  cases b
  · refine rec_valid _ false [(aPage + 4, 1)] _ (fun i hi => ?_) rfl (by decide +kernel) fun i _ => two_out _ (by unfold bPage Chip.pageAddr Chip.mapPage; simp; omega)
    show twoRecs.byte (aPage + i) = oneRec.byte (aPage + i)
    unfold twoRecs; rw [rec_out _ _ _ _ _ (by unfold aPage bPage; omega) (by unfold aPage bPage; omega)]
    simp only [Memory.byte, getKey]; rw [if_neg (by unfold aPage bPage; omega), if_neg (by unfold aPage bPage; omega)]
  · exact rec_valid _ true _ _ (fun _ _ => rfl) rfl (by decide +kernel) fun i _ => two_out _ (by unfold bPage Chip.pageAddr Chip.mapPage; simp; omega)

def lrnW : Nat := 0x100010000000
def lrnA : Nat := 0x100008000000
def lrnO : Nat := 0x100009000000
/-- The layer at work, its operands' addresses in A4 and A5 of tile core 3. -/
def lrnLive : Chip :=
  (lrnC 2 1 [(lrnA, 3), (lrnA + 1, 5), (lrnW + 512 * 256, 120), (lrnW + 512 * 256 + 64, 100)]).modCore 3 fun x =>
    { x with a := modNth (fun _ => BitVec.ofNat 48 lrnO) (modNth (fun _ => BitVec.ofNat 48 lrnA) x.a 4) 5 }
def lrnGeo : Memory := [(aPage + 4, 1), (aPage + 5, 64), (aPage + 7, 2)]

theorem lrn_reached (lo hi : Nat) (h1 : 0x100000000000 ≤ lo) (h2 : hi ≤ 0x100020000000) : lrnLive.lrnReaches lo hi :=
  lrn_reaches _ _ _ h1 h2 (by decide +kernel) (by decide +kernel) (by decide +kernel) (by decide +kernel) (by decide +kernel)
theorem import_ok (mem : Memory) (h : mem = impMem) : (lrnC 0 0 mem).opWhy 5 false = 0 := by
  unfold Chip.opWhy; rw [imp_ok mem h, h]; decide +kernel

theorem witness_TheLearningEngineLearnsAndCommits :
    ((let c := lrnLive
      c.alone (syl 3 .n) [.n] = true ∧ c.owner 3 = c.lrnk ∧ c.lrnFree = true ∧ c.lwbase = lrnW ∧ ((c.core 3).A 4).toNat = lrnA ∧ ((c.core 3).A 5).toNat = lrnO ∧ lrnA % 64 = 0 ∧
        lrnO % 64 = 0 ∧ c.inputLen ≤ 0x1000000 ∧ c.nproto ≤ 0x1000000 ∧ lrnO + 4 * c.nproto ≤ lrnW ∧ c.rb R.LRN.LCFG 4 = false) ∧
     (let c := lrnLive.wb R.LRN.LCFG 4 true
      let xs := (c.getBytes .hbm lrnA c.nin).map fun b => fvd ((Dy.ofInt (sInt 8 b.toNat - sInt 16 (c.rf R.LRN.LCFG 31 16))).mul (c.lscl R.LRN.ISCL))
      let out (p : Nat) : Nat := (fp32.encode (fvd (((c.wVals p).zip xs).foldl (fun (a : Dy) y => a.add (y.1.dy.mul y.2.dy)) Dy.zero))).1
      c.rf R.LRN.LCFG 3 0 = 1 ∧ c.rb R.LRN.LCFG 4 = true ∧ c.lrnFree = true ∧ 0 < c.nproto ∧
        ∀ j, j < c.nproto → 0 < j → Fv.cmp (fp32.decode (out j)) (fp32.decode (out 0)) ≠ 1)) ∧
    (let c := { lrnLive with lrn := { lrnLive.lrn with due := true } }
     c.calm = true ∧ c.lrn.queue = [] ∧ c.lrn.ntf = none ∧ c.rb (R.H.PCTL 0x00E) 2 = false ∧ c.lrn.due = true ∧ c.lrn.first = 0 ∧ c.lstate = 2 ∧ c.rb R.LRN.LSTAT 3 = false ∧
       (c.wb R.LRN.LSTAT 3 true).calm = true ∧ (c.wb R.LRN.LSTAT 3 true).rb R.LRN.LSTAT 3 = true ∧ (c.wb R.LRN.LSTAT 3 true).lstate = 2) ∧
    (let c := lrnC 3 1 []
     c.calm = true ∧ c.lrn.queue = [] ∧ c.lrn.ntf = none ∧ c.lstate = 3 ∧ c.ecc = [] ∧ Chip.geoOk c.nin c.nproto = true ∧ c.lwbase = lrnW) ∧
    (let c := { lrnLive with lrn := { lrnLive.lrn with commitDue := true } }
     c.calm = true ∧ c.lrn.commitDue = true ∧ c.rb R.LRN.LSTAT 3 = false ∧ c.lstate ≠ 3) ∧
    (let c := { lrnC 0xA 1 [] with plmap := [(3, 300), (4863, 16383)] }
     c.calm = true ∧ c.rb R.LRN.LSTAT 3 = true ∧ rising c.plmap = true ∧ ∀ e ∈ c.plmap, e.1 < 4864 ∧ 256 ≤ e.2 ∧ e.2 < 16384) ∧
    (let c := lrnC 0x401 0 lrnGeo
     c.calm = true ∧ c.lstate = 1 ∧ c.recIn = some false ∧ c.ecc = [] ∧ c.lwbase % 0x100000 = 0) ∧
    (let c := lrnC 0x400 0 lrnGeo
     c.takes (wr R.LRN.LCTL 2) = true ∧ c.takes (wr R.LRN.LCTL 64) = true ∧ c.takes (wr R.LRN.LCTL 8) = true ∧ c.rwlOk .cc 0x00E = true ∧ c.rb R.LRN.LCTL 0 = false ∧
       c.opWhy 1 false = 0 ∧ c.opWhy 6 false = 0 ∧ c.opWhy 3 false = 0 ∧ c.opWhy 5 false ≠ 0) ∧
    (let c := lrnC 6 0 []
     c.takes (wr R.LRN.LCTL 32) = true ∧ c.opWhy 1 false ≠ 0 ∧ c.opWhy 6 false ≠ 0 ∧ c.opWhy 5 false ≠ 0 ∧ c.opWhy 3 false ≠ 0) ∧
    (let c := lrnC 2 0 []
     c.takes (wr R.LRN.LCTL 4) = true ∧ c.opWhy 2 false = 0 ∧ c.takes (wr R.LRN.LCTL 1) = true ∧ c.opWhy 0 false = 0 ∧ c.rb R.LRN.LCTL 0 = false) ∧
    ((lrnC 0 0 []).calm = true ∧ (lrnC 0 0 []).lrn.selected = false ∧ (lrnC 0 0 []).recValid false = false ∧ (lrnC 0 0 []).recValid true = false ∧
       (lrnC 0 0 oneRec).calm = true ∧ (lrnC 0 0 oneRec).lrn.selected = false ∧ (lrnC 0 0 oneRec).recValid true = false ∧
       (lrnC 0 0 twoRecs).calm = true ∧ le ((lrnC 0 0 twoRecs).recBytes true) 0 4 = (le ((lrnC 0 0 twoRecs).recBytes false) 0 4 + 1) % 2 ^ 32) := by
  and_intros <;> decide +kernel
theorem witness_TheLearningEngineReachesItsMemory :
    (lrnLive.lrnReaches lrnW (lrnW + 0x500000) ∧ lrnLive.lrnReaches lrnA (lrnA + 0x1000000) ∧ lrnLive.lrnReaches lrnO (lrnO + 0x1000000)) ∧
      (lrnC 3 1 []).lrnReaches lrnW (lrnW + 0x500000) ∧ (lrnC 0x401 0 lrnGeo).lrnReaches lrnW (lrnW + 0x500000) :=
  ⟨⟨lrn_reached _ _ (by decide) (by decide), lrn_reached _ _ (by decide) (by decide), lrn_reached _ _ (by decide) (by decide)⟩,
   lrn_reaches _ _ _ (by decide) (by decide) (by decide +kernel) (by decide +kernel) (by decide +kernel) (by decide +kernel) (by decide +kernel),
   lrn_reaches _ _ _ (by decide) (by decide) (by decide +kernel) (by decide +kernel) (by decide +kernel) (by decide +kernel) (by decide +kernel)⟩
theorem witness_TheLearningEngineHasRecordsAndImages :
    ((lrnC 0 0 oneRec).recValid false = true ∧ (∀ b, (lrnC 0 0 twoRecs).recValid b = true) ∧ ∃ mem, (lrnC 0 0 mem).opWhy 5 false = 0) :=
  ⟨one_valid, two_valid, impMem, import_ok _ rfl⟩

/-- Vaxlin port 2 enabled, in a state of R754; ports 0 and 1 in theirs; device 3, which reaches device 0 through port 2. -/
def vxC (st st0 : Nat) (f : VxlPort → VxlPort) : Chip :=
  let c := upC [(R.H.POWN (slotVxl 2), 0), (R.H.POWN (slotVxl 0), 0), (R.VXL.LCTL 2, 0x501), (R.VXL.LSTAT 2, BitVec.ofNat 32 st), (R.VXL.LSTAT 0, BitVec.ofNat 32 st0), (R.VXL.CNUM 0, 0x103),
    (R.VXL.RTAB 0 0, 0xFFF1FF02), (R.VXL.LCRD 2, 0x10404020), (R.HBM.STAT 1, 2)]
  c.modVxl 2 f
def vxAddr : Nat := 0x100000000000 + 0x400000000 + 0x40
def vxMsg : Msg := { mt := 2, dst := 3, src := 0, ken := 0, tag := 0x77, addr := vxAddr, len := 8, data := [1, 2, 3, 4, 5, 6, 7, 8] }
def vxFrame : RxFrame := { seq := 0, ack := 0, cr := [0, 0, 0, 0], flit := vxMsg.header }
def vxOld : VxlPort → VxlPort := fun u => { u with txSeq := 2, replay := [(0, 1, true, vxMsg.header), (1, 1, true, vxMsg.header)], resends := 3 }
def vxPeer : PeerInfo := ⟨0x123456789ABCDEF0, 0x0780B000, 2, 4, true, 1⟩

theorem witness_VaxlinPortsTrainCarryFramesAndRecover :
    (let c := (vxC 0 0 id).w (R.VXL.LCTL 2) 0
     (∀ v ∈ [0x501, 1], c.takes (wr (R.VXL.LCTL 2) v) = true ∧ bit (wr (R.VXL.LCTL 2) v).val 0 = true ∧ bit (wr (R.VXL.LCTL 2) v).val 1 = false) ∧ 2 < c.vxls ∧ c.survx 18 = true ∧
       c.rwlOk .cc (slotVxl 2) = true ∧ c.rb (R.VXL.LCTL 2) 0 = false) ∧
    ((vxC 3 0 id).awake = true ∧ (vxC 3 0 id).vxl.length = 4 ∧ (vxC 3 0 id).vxlEn 2 = true ∧ (vxC 3 0 id).vst 2 = 3) ∧
    (let c := vxC 4 0 id
     c.awake = true ∧ c.vxlEn 2 = true ∧ c.vst 2 = 4 ∧ c.numbered = true ∧ vxPeer.blsup &&& c.fuse.blsup ≠ 0 ∧ vxPeer.num.toNat ≠ c.devNum ∧
       ({ vxPeer with num := 3 } : PeerInfo).num.toNat = c.devNum) ∧
    (let c := vxC 5 0 id
     let u := c.vport 2
     c.awake = true ∧ c.vst 2 = 5 ∧ u.txq = [] ∧ u.owed = [0, 0, 0, 0] ∧ vxFrame.crcOk = true ∧ vxFrame.fecc = false ∧ vxFrame.fecu = false ∧ (∀ v, v < 4 → nth 0 vxFrame.cr v = 0) ∧ vxFrame.valid = true ∧
       vxFrame.ack.toNat = u.txSeq ∧ u.rx.length = 4 ∧ u.rxSeq < 4096 ∧ vxFrame.seq.toNat = u.rxSeq ∧ u.replay = [] ∧ nth [] u.rx vxFrame.vc.val = [] ∧
       headNdat (padTo 64 vxFrame.flit) = 0 ∧ c.numbered = true ∧ (Msg.parse [padTo 64 vxFrame.flit]).dst = c.devNum ∧ (Msg.parse [padTo 64 vxFrame.flit]).rlen = 0 ∧
       mtVc (Msg.parse [padTo 64 vxFrame.flit]).mt ≠ none ∧ Chip.seqBefore u.rxSeq ({ vxFrame with seq := 5 } : RxFrame).seq.toNat = true ∧ u.nakSent = false) ∧
    (let c := vxC 5 0 vxOld
     let u := c.vport 2
     let f := { vxFrame with seq := 4095, ack := 2 }
     c.awake = true ∧ c.vst 2 = 5 ∧ f.ack.toNat = u.txSeq ∧ f.seq.toNat = (u.rxSeq + 4095) % 4096 ∧ u.replay ≠ [] ∧
       (∀ x ∈ u.replay, Chip.seqBefore x.1 f.ack.toNat = true) ∧ u.replay = (0, 1, true, vxMsg.header) :: [(1, 1, true, vxMsg.header)] ∧ u.resends < 7 ∧
       ({ flit := [0, 0, 0] } : RxFrame).ack.toNat = 0 ∧ fle [0, 0, 0] 1 2 % 4096 = 0 ∧ ∀ y ∈ u.replay, Chip.seqBefore y.1 0 = false) ∧
    ((vxC 6 0 vxOld).awake = true ∧ (vxC 6 0 vxOld).vst 2 = 6 ∧ ((vxC 6 0 vxOld).vport 2).txq = [] ∧ (vxC 7 0 id).awake = true ∧ (vxC 7 0 id).vst 2 = 7 ∧
       (vxC 6 0 vxOld).calm = true ∧ (vxC 6 0 vxOld).vxl.length = 4 ∧ (vxC 6 0 vxOld).casc.sent.all (fun m => m.port != 2) = true) := by
  and_intros <;> decide +kernel

/-- A message in the inbox of port 0. -/
def vxIn (m : Msg) (v q : Nat) (sent : List Sent) : Chip :=
  let c := (vxC q 5 id).modVxl 0 fun u => { u with inbox := [(v, m)] }
  { c with casc := { c.casc with sent := sent } }

theorem witness_VaxlinMessagesArePerformedAndAnswered :
    (∀ q ∈ [5, 6],
       (let c := vxIn vxMsg 0 q []
        c.calm = true ∧ c.vxl.length = 4 ∧ (c.vport 0).owed.length = 4 ∧ vxMsg.src < 32 ∧ vxMsg.ken < 8 ∧ (∀ x, x < 4 → (c.vport x).txSeq < 4096) ∧ vxMsg.rlen = 0 ∧
          c.regionOf vxAddr 8 = .hbm ∧ c.ownWindow vxAddr 8 = vxAddr ∧ c.ecc = [] ∧ c.unavailable .hbm vxAddr 8 = none ∧
          (∀ wt, c.fence (c.req (Chip.msgWho vxMsg)).ken .hbm vxAddr 8 wt = none) ∧ (c.vport 0).inbox = [(0, vxMsg)] ∧ c.routeTo vxMsg.src = some 2 ∧ (c.vport 2).txq = [] ∧
          c.vst 2 = q ∧ 9 ≤ c.crv 2 1 ∧ (c.vport 2).replay = []) ∧
       (∀ mt ∈ [1, 2, 3],
          (vxIn { vxMsg with mt := mt } (if mt = 3 then 2 else 0) q []).calm = true ∧ ((vxIn { vxMsg with mt := mt } (if mt = 3 then 2 else 0) q []).vport 0).inbox = [(if mt = 3 then 2 else 0, { vxMsg with mt := mt })])) ∧
    (∀ mt ∈ [4, 5],
       let m := { vxMsg with mt := mt, len := 4, addr := 0x100000000 + R.ARY.ARING 3, data := [7, 0, 0, 0] }
       let c := vxIn m 0 6 []
       let key := R.ARY.ARING 3
       c.calm = true ∧ m.rlen = 0 ∧ c.regionOf m.addr 4 = .regs ∧ c.ownWindow m.addr 4 = m.addr ∧ m.addr - 0x100000000 = key ∧ pageOf (key / 0x1000) = some (.ary, 3) ∧
         c.slotEmpty (key / 0x1000) = false ∧ (rowOf key).any (fun row => row.rc == 0 && row.w1c == 0 && row.w1s == 0 && row.rwl == 0) = true ∧
         Chip.loHi .ary 3 (key % 0x1000) = none ∧ c.pagePwr (key / 0x1000) = 0 ∧ c.inSrst (key / 0x1000) = false ∧ 0x040 ≤ key % 0x1000 ∧
         c.regRefusal (Chip.msgWho m) key false false = none ∧ c.writeRefusal (Chip.msgWho m) key false = none) ∧
    (let m := { vxMsg with mt := 0x81 }
     let x : Sent := ⟨0x77, vxMsg, .ext .pf, 2, 5⟩
     let c := vxIn m 1 6 [x]
     c.calm = true ∧ c.casc.sent = [x] ∧ x.tag = m.tag ∧ (c.vport 0).inbox = [(1, m)] ∧ x.wait = .ext .pf) ∧
    (let m := { vxMsg with mt := 0x82, code := 0 }
     let x : Sent := ⟨0x77, vxMsg, .core 3, 2, 5⟩
     let st : Posted := { addr := 5, bytes := [1], bundle := 3, tag := some 0x77 }
     let c := (vxIn m 1 6 [x]).modCore 3 fun k => { k with posted := [st] }
     c.casc.sent = [x] ∧ x.wait = .core 3 ∧ (c.core 3).loads = [] ∧ (c.core 3).posted = [st] ∧ st.tag = some m.tag ∧ m.code = 0 ∧ c.cores.length = 17) ∧
    (∀ mt ∈ [0x10, 0x11],
       let c := vxIn { vxMsg with mt := mt } 3 6 []
       c.calm = true ∧ (c.vport 0).inbox = [(3, { vxMsg with mt := mt })] ∧ c.arole ≠ 1) := by
  and_intros <;> (try rintro _ (rfl | rfl)) <;> decide +kernel

/-- What a token's bytes hold before their CRC, and what they spell. -/
def tokHead (t : Token) : List (BitVec 8) :=
  let b (x : Nat) : BitVec 8 := BitVec.ofNat 8 x
  [b 0xF5, b t.kind, b (b2n t.boundary + 2 * b2n t.test + 4 * b2n t.dir), b t.hops, b t.mgrid, b t.mepo] ++ bytesLE 2 t.tseq ++ bytesLE 8 t.fnum ++ bytesLE 8 t.gtime ++
    bytesLE 4 t.pos ++ bytesLE 2 t.row ++ [b t.state, 0] ++ bytesLE 4 t.age ++ bytesLE 4 t.fdly ++ bytesLE 4 t.fper ++ bytesLE 2 (t.pos / 2 ^ 32) ++ zeros 102
def tokOf (bs : List (BitVec 8)) : Token :=
  { kind := fle bs 1 1, boundary := (fle bs 2 1).testBit 0, test := (fle bs 2 1).testBit 1, dir := (fle bs 2 1).testBit 2, hops := fle bs 3 1
    mgrid := fle bs 4 1 % 32, mepo := fle bs 5 1, tseq := fle bs 6 2, fnum := fle bs 8 8, gtime := fle bs 16 8
    pos := fle bs 24 4 + fle bs 44 2 * 2 ^ 32, row := fle bs 28 2, state := fle bs 30 1, age := fle bs 32 4, fdly := fle bs 36 4, fper := fle bs 40 4 }
theorem fle_app (h x : List (BitVec 8)) (i n : Nat) (hl : i + n ≤ h.length) : fle (h ++ x) i n = fle h i n := by
  unfold fle; rw [List.drop_append_of_le_length (by omega), List.take_append_of_le_length (by rw [List.length_drop]; omega)]
theorem tok_parse (t : Token) (hl : (tokHead t).length = 148) (h0 : fle (tokHead t) 0 1 = 0xF5) (h1 : tokOf (tokHead t) = t) : Token.parse t.bytes = some t := by
  have hb : t.bytes = tokHead t ++ bytesLE 4 (crc32 (tokHead t)) := rfl
  have hc : natLE (bytesLE 4 (crc32 (tokHead t))) = crc32 (tokHead t) := by
    have := crc32_lt (tokHead t)
    simp only [bytesLE, natLE, BitVec.toNat_ofNat]; omega
  have hp : Token.parse t.bytes = if t.bytes.length ≠ 152 ∨ fle t.bytes 0 1 ≠ 0xF5 ∨ fle t.bytes 148 4 ≠ crc32 (t.bytes.take 148) then none else some (tokOf t.bytes) := rfl
  have ha : tokOf t.bytes = t := by
    conv => rhs; rw [← h1]
    rw [hb]; unfold tokOf
    have f : ∀ i n, i + n ≤ 148 → fle (tokHead t ++ bytesLE 4 (crc32 (tokHead t))) i n = fle (tokHead t) i n := fun i n h => fle_app _ _ _ _ (by omega)
    simp (disch := decide) only [f]
  have hd : fle t.bytes 148 4 = crc32 (tokHead t) := by rw [hb, fle, List.drop_left' hl]; exact hc
  rw [hp, ha, hd, hb, List.take_left' hl, fle_app _ _ _ _ (by rw [hl]; decide), h0, List.length_append, hl]
  simp [bytesLE]

/-- The cascade: port 2 UP and its delay measured; this device's role and the state and source of its tick. -/
def caC (role st src : Nat) (f : Cascade → Cascade) : Chip :=
  let c := upC [(R.H.POWN (slotVxl 0), 0), (R.VXL.LSTAT 2, 5), (R.VXL.LSTAT 1, 5), (R.VXL.CNUM 0, 0x103), (R.VXL.LDLY 2, 5000), (R.VXL.CROLE 0, BitVec.ofNat 32 role),
    (R.VXL.CSTAT 0, BitVec.ofNat 32 role), (R.TICK.TSTAT, BitVec.ofNat 32 st), (R.TICK.TCFG, BitVec.ofNat 32 src)]
  let c := c.modVxl 2 fun u => { u with echoCnt := 8, echoes := [1000, 2000] }
  { c with casc := f c.casc }
def caTok : Token :=
  { kind := 1, boundary := true, test := false, dir := true, hops := 2, mgrid := 7, mepo := 4, tseq := 9, fnum := 33, gtime := 55555, pos := 0x812345678901, row := 3, state := 1, age := 7000
    fdly := 100, fper := 5 }
def caPing : RxFrame := { seq := 0, ack := 0, cr := [0, 0, 0, 0], flit := 2 :: (zeros 7 ++ bytesLE 8 0x123456789) }

theorem witness_TheCascadeSharesTokensAndChangesRoles :
    ((caC 1 0 1 id).awake = true ∧ (caC 1 0 1 id).vxl.length = 4 ∧ (caC 1 0 1 id).arole = 1) ∧
    ((∀ role ∈ [2, 3, 5],
       let c := caC role 0 2 id
       c.awake = true ∧ c.vst 2 = 5 ∧ 8 ≤ (c.vport 2).echoCnt ∧ c.casc.epoch = none ∧ c.arole = role ∧ caTok.age + c.rf (R.VXL.LDLY 2) 23 0 + 100000 ≤ c.clat * 1000 ∧
         c.clat * 1000 < 100000000) ∧
     (let c := caC 2 0 2 fun k => { k with epoch := some 4, last := some (7, 4, 8) }
      c.casc.epoch = some caTok.mepo ∧ c.casc.last = some (caTok.mgrid, caTok.mepo, 8) ∧ caTok.tseq = (8 + 1) % 0x10000)) ∧
    (let c := caC 1 0 1 fun k => { k with epoch := some 0 }
     let t := { caTok with mepo := 0, mgrid := 2 }
     c.awake = true ∧ c.vst 2 = 5 ∧ c.arole = 1 ∧ c.casc.epoch = some (c.rf (R.VXL.CSTAT 0) 23 16) ∧ t.mgrid ≠ c.devNum ∧ t.mepo = c.rf (R.VXL.CSTAT 0) 23 16 ∧ t.mgrid < c.devNum ∧
       c.tstate = 0 ∧ ({ caTok with mepo := 1 } : Token).mepo = (c.rf (R.VXL.CSTAT 0) 23 16 + 1) % 256) ∧
    (let c := caC 2 0 2 fun k => { k with epoch := some 4, last := some (7, 4, 9) }
     c.arole ≠ 1 ∧ c.casc.epoch = some caTok.mepo ∧ c.casc.last = some (caTok.mgrid, caTok.mepo, caTok.tseq)) ∧
    (∀ k ∈ [2, 3],
       let t := { caTok with kind := k }
       let c := (caC 2 1 2 fun x => { x with due := [(2000000, t), (5, t)] }).modTick fun x => { x with opened := true }
       c.awake = true ∧ c.casc.due = (2000000, t) :: [(5, t)] ∧ c.arole = 2 ∧ c.croleOf = 2 ∧ c.src = 2 ∧ t.state = c.tstate ∧ c.tstate = 1 ∧ c.tick.opened = true ∧
         c.tick.pend = []) ∧
    (let c := caC 2 1 2 fun x => { x with due := [(2000000, caTok), (5, caTok)] }
     c.awake = true ∧ c.casc.due = (2000000, caTok) :: [(5, caTok)] ∧ c.arole = 2 ∧ c.croleOf = 2 ∧ c.src = 2 ∧ caTok.kind = 1 ∧ c.tstate = 1 ∧ c.rb (R.VXL.GTC 0) 0 = false ∧
       caTok.pos < 2 ^ 48 ∧ c.casc.gap = false ∧ ∀ g, g < 8 → c.rb (R.LST.LRCFG g) 31 = false) ∧
    (let c := caC 5 0 1 fun x => { x with listen := some 3000000 }
     c.awake = true ∧ c.arole = 5 ∧ c.casc.listen = some 3000000 ∧ c.devNum < 32) ∧
    ((caC 2 0 2 id).rb (R.VXL.CSTAT 0) 3 = false ∧ (caC 2 0 2 id).arole = 2 ∧ (caC 3 0 2 id).rb (R.VXL.CSTAT 0) 3 = false ∧ (caC 3 0 2 id).arole = 3 ∧ (caC 3 0 2 id).tstate ≠ 1 ∧
       (caC 3 0 2 id).devNum < 32) ∧
    (let c := caC 0 0 0 id
     c.awake = true ∧ c.vst 2 = 5 ∧ caPing.crcOk = true ∧ caPing.fecc = false ∧ caPing.fecu = false ∧ (∀ v, v < 4 → nth 0 caPing.cr v = 0) ∧ (c.vport 2).txq = [] ∧ (c.vport 2).owed = [0, 0, 0, 0]) ∧
    (let c := caC 0 0 0 id
     ∀ x ∈ [(R.VXL.CLAT 0, 1000), (R.VXL.CHINT 0, 1000), (R.VXL.RTO 0, 5), (R.VXL.RTAB 0 2, 0xF0123FFF), (R.VXL.CROLE 0, 1), (R.VXL.CROLE 0, 2)], c.takes (wr x.1 x.2) = true ∧
       c.rwlOk .cc 0x018 = true ∧ (c.tstate = 0 ∨ c.tstate = 3)) ∧
    ((1000 ≤ fld (1000 : BitVec 32) 14 0 ∧ fld (1000 : BitVec 32) 14 0 ≤ 20000) ∧ (10 ≤ fld (1000 : BitVec 32) 9 0 ∧ fld (1000 : BitVec 32) 9 0 ≤ 1000) ∧
     fld (5 : BitVec 32) 15 0 ≠ 0 ∧ fld (0 : BitVec 32) 15 0 = 0 ∧ fld (999 : BitVec 32) 14 0 < 1000 ∧ 1000 < fld (1001 : BitVec 32) 9 0 ∧
     (∀ i, i < 8 → fld (0xF0123FFF : BitVec 32) (4 * i + 3) (4 * i) < 4 ∨ fld (0xF0123FFF : BitVec 32) (4 * i + 3) (4 * i) = 15) ∧
     fld (0xE0123FFF : BitVec 32) 31 28 = 14) := by
  and_intros <;> (try rintro _ (rfl | rfl)) <;> decide +kernel
theorem witness_TokensSpellTheirBytes :
    Token.parse caTok.bytes = some caTok ∧ Token.parse { caTok with age := 100000000 }.bytes = some { caTok with age := 100000000 } ∧
      Token.parse { caTok with mepo := 0, mgrid := 2 }.bytes = some { caTok with mepo := 0, mgrid := 2 } :=
  ⟨tok_parse _ (by decide +kernel) (by decide +kernel) (by decide +kernel), tok_parse _ (by decide +kernel) (by decide +kernel) (by decide +kernel),
   tok_parse _ (by decide +kernel) (by decide +kernel) (by decide +kernel)⟩

/-- The host interface: PCIe up, stacks working, VF 3 of kennel 2. -/
def hoC (regs : List (Nat × BitVec 32)) (f : Egress → Egress) : Chip :=
  let c := upC (regs ++ [(R.HBM.STAT 0, 0xA), (R.HBM.STAT 1, 0xA), (R.HBM.STAT 2, 0xA), (R.HBM.STAT 3, 0xA), (R.H.POWN 0x011, 0), (R.H.POWN 0x012, 0), (R.PCI.PLSTAT, 0x145),
    (R.VXL.CNUM 0, 0x103), (R.PCI.VFMAP1 + 8, 0x102), (R.PCI.APBASE_LO + 4, 0x1000), (R.PCI.VFAP_LO 2, 0x10000000), (R.PCI.VFAP_LO 2 + 4, 0x1000)])
  { c with egr := f c.egr }
def hoFn (n : Nat) (f : PcieFn → PcieFn) : Egress → Egress := fun e => { e with fns := modNth f e.fns n }
def hoCb (r : Nat) : Chip := hoC [(R.PCI.CRCFG 0, 0x106), (R.PCI.CBBASE_LO 0 + 4, 0x1000), (R.PCI.CBCFG 0, 4), (R.PCI.CFETCH 0, BitVec.ofNat 32 r)] (hoFn 0 fun x => { x with cprod := 9 })

theorem witness_TheHostReachesTheDeviceAndItsRingsMove :
    (let c := hoC [] id
     let a := 0x100000000045
     c.calm = true ∧ c.surv 30 = true ∧ c.rb R.PCI.PLSTAT 8 = true ∧ c.egr.fns.length = 9 ∧ c.ecc = [] ∧ c.fnEnabled 1 = false ∧ c.fnEnabled 0 = true ∧
       (c.r64 R.PCI.APBASE_LO % 2 ^ 48 + 0x45) % 2 ^ 48 = a ∧ c.regionOf a 5 = .hbm ∧ c.ownWindow a 5 = a ∧ c.unavailable .hbm a 5 = none ∧
       (∀ wt, c.fence (c.req (Chip.pcieWho 0)).ken .hbm a 5 wt = none) ∧
       (let k := R.ARY.ARING 3
        k % 4 = 0 ∧ pageOf (k / 0x1000) = some (.ary, 3) ∧ c.slotEmpty (k / 0x1000) = false ∧ (rowOf k).any (fun row => row.rc == 0) = true ∧ 0x040 ≤ k % 0x1000 ∧
          Chip.loHi .ary 3 (k % 0x1000) = none ∧ c.pagePwr (k / 0x1000) = 0 ∧ c.inSrst (k / 0x1000) = false ∧ c.regRefusal .pf k false false = none)) ∧
    ((hoC [] id).fnEnabled 3 = true ∧ (hoC [] id).awake = true) ∧
    (let c := hoCb 0
     c.calm = true ∧ c.rb (R.PCI.CRCFG 0) 8 = true ∧ (c.r (R.PCI.CFETCH 0)).toNat = 0 ∧ 0 ≠ (c.pfn 0).cprod ∧ c.r64 (R.PCI.CBBASE_LO 0) % 2 ^ 48 = 0x100000000000 ∧
       (∀ a ∈ [(0x100000000000, 4), (0x100000000040, 64)], c.regionOf a.1 a.2 = .hbm ∧ (∀ wt, c.fence 0 .hbm a.1 a.2 wt = none) ∧ c.unavailable .hbm a.1 a.2 = none) ∧
       (0 + 2 ^ 32 - natLE (c.getBytes .hbm 0x100000000000 4)) % 2 ^ 32 < 2 ^ c.rf (R.PCI.CBCFG 0) 4 0) ∧
    (let c := hoCb 16
     (c.r (R.PCI.CFETCH 0)).toNat = 16 ∧ 16 ≠ (c.pfn 0).cprod ∧ 2 ^ c.rf (R.PCI.CBCFG 0) 4 0 ≤ (16 + 2 ^ 32 - natLE (c.getBytes .hbm 0x100000000000 4)) % 2 ^ 32) ∧
    (let c := hoC [(R.PCI.RRCFG 3, 0x05010106)] (hoFn 3 fun x => { x with unsig := 3, sigAt := some 1000000 })
     c.calm = true ∧ (c.pfn 3).sigAt = some 1000000 ∧ c.rf (R.PCI.RRCFG 3) 31 24 ≠ 0) ∧
    ((hoC [(R.PCI.PLSTAT, 0)] id).awake = true ∧ (hoC [(R.PCI.PLSTAT, 0)] id).surv 30 = true ∧ (hoC [(R.PCI.PLSTAT, 0)] id).rb R.PCI.PLSTAT 8 = false ∧ (hoC [] id).rb R.PCI.PLSTAT 8 = true) ∧
    (let c := hoC [(R.ETH.ECTL 1, 1), (R.ETH.ESTAT 1, 0)] id
     c.awake = true ∧ c.survx 21 = true ∧ c.rb (R.ETH.ECTL 1) 0 = true ∧ c.rb (R.ETH.ESTAT 1) 0 = !true) ∧
    (let w := wr (R.ETH.GSTEP_HI 0) 0xFFFFFFFF
     let c : Chip := { hoC [] id with bus := { (hoC [] id).bus with held := [(slotEth 0, .cc, R.ETH.GSTEP_HI 0, 0xFFFFFFFE)] } }
     c.takes w = true ∧ c.heldLo w.who (R.ETH.GSTEP_HI 0) = some (0xFFFFFFFE : BitVec 32) ∧ c.rb (R.VXL.GTC 0) 0 = false ∧ c.rwlOk w.who 0x012 = true) ∧
    (let x := rd (R.ETH.TSRX_HI 1)
     let c := hoC [] fun e => { e with eth := modNth (fun p => { p with tsrx := [(0x1234567890, 5), (6, 7)] }) e.eth 1 }
     c.gives x = true ∧ x.ofs.toNat = R.ETH.TSRX_HI 1 ∧ c.egr.eth.length = 2 ∧ c.slotEmpty (slotEth 1) = false ∧ c.pagePwr (slotEth 1) = 0 ∧ c.inSrst (slotEth 1) = false ∧ c.bus.cap = []) ∧
    (let c := hoC [] id
     (∀ v ∈ [0x00010106, 0x00000106], c.takes (wr (R.PCI.RRCFG 2) v) = true ∧ c.rwlOk .cc 0x011 = true ∧ bit (wr (R.PCI.RRCFG 2) v).val 8 = true ∧ fld (wr (R.PCI.RRCFG 2) v).val 4 0 = 6 ∧
        c.r64 (R.PCI.RRB_LO 2) % 4096 = 0 ∧ c.r64 (R.PCI.RRWB_LO 2) % 8 = 0) ∧ fld (0x00010106 : BitVec 32) 23 16 ≠ 0 ∧ fld (0x00000106 : BitVec 32) 23 16 = 0) ∧
    (let c := hoC [(R.KMAP.LIVE_KATTR 2, 1), (R.KMAP.LIVE_HRNG 8, 4095 * 4096), (R.PCI.ERB_LO 2 + 4, 0x1000)] id
     c.takes (wr (R.PCI.ERCFG 2) 0x50A) = true ∧ bit (0x50A : BitVec 32) 8 = true ∧ c.tstate ≠ 1 ∧ c.tstate ≠ 2 ∧ fld (0x50A : BitVec 32) 4 0 = 10 ∧
       (c.r64 (R.PCI.ERB_LO 2) % 2 ^ 48) % 64 = 0 ∧ c.inOneRange 2 (c.r64 (R.PCI.ERB_LO 2) % 2 ^ 48) (64 * 2 ^ 10) = true ∧
       (hoC [] id).takes (wr (R.PCI.ERCFG 2) 0x504) = true ∧ fld (0x504 : BitVec 32) 4 0 < 10) := by
  and_intros <;> decide +kernel

/-- Kennel 0's egress ring of 16 entries in HBM with a record of frame 5, to the result ring of the physical function. -/
def rgC (r9 fnum : Nat) : Chip :=
  let c := hoC [(R.PCI.ERCFG 0, BitVec.ofNat 32 (0x504 + 512 * r9)), (R.PCI.ERB_LO 0 + 4, 0x1000), (R.PCI.RRCFG 0, 0x00050106), (R.PCI.RRB_LO 0, 0x7000), (R.PCI.RRWB_LO 0, 0x9000),
    (R.PCI.EREL_LO, 9), (R.TICK.FNUM_LO, BitVec.ofNat 32 fnum)] fun e => { e with rel := true }
  { c.putBytes .hbm 0x100000000000 (recMake 1 0 0 3 0 5 [1, 2, 3]) with tick := { c.tick with edgeAt := some 900000, scanned := false } }
def dgC (en : Nat) (m : Memory) : Chip :=
  let c := hoC [(R.ETH.ESTAT 1, 1), (R.ETH.ECTL 1, 9), (R.ETH.QCTL 1 2, 1), (R.ETH.RXCFG 1, BitVec.ofNat 32 en), (R.ETH.RXB_LO 1, 0x1000), (R.ETH.RXB_LO 1 + 4, 0x1000)] fun e =>
    { e with eth := modNth (fun p => { p with qs := modNth (fun _ => { recs := [recMake 1 0 0 3 5 6 [1, 2, 3]], openAt := some 1000000, dseq := 9, qdrop := 3 }) p.qs 2 }) e.eth 1 }
  { c with mem := m }
def rxFrame : EthFrame := { bytes := List.replicate 6 0xFF ++ [1, 2, 3, 4] }
def recfMsg : Msg := { mt := 0x11, dst := 3, src := 0, ken := 2, tag := 0x77, len := 64, data := recMake 1 0 0 3 5 6 [1, 2, 3] }
def recfC : Chip :=
  (hoC [(R.VXL.CSTAT 0, 1), (R.PCI.FRCFG 2, 0x10A), (R.PCI.FRB_LO 2 + 4, 0x1000)] id).modVxl 1 fun u => { u with inbox := [(3, recfMsg)] }

theorem witness_RecordsLeaveTheirRingsAndFramesArrive :
    (∀ r9 ∈ [0, 1],
       let c := rgC r9 8
       c.awake = true ∧ c.ringEn false 0 = true ∧ c.routes 0 = [0] ∧ (∀ j, j < 8 → j ≠ 0 → c.rb (R.PCI.ERCFG j) 8 = false) ∧ (∀ j, j < 8 → c.rb (R.PCI.FRCFG j) 8 = false) ∧
         1 ≤ c.ringLog false 0 ∧ c.ringPos false 0 0 = 0 ∧ recSeq (c.getBytes .hbm (c.ringBase false 0 + 64 * (0 % 2 ^ c.ringLog false 0)) 64) = some 0 ∧
         recSeq (c.getBytes .hbm (c.ringBase false 0 + 64 * (1 % 2 ^ c.ringLog false 0)) 64) = none ∧ c.ecc = [] ∧ c.netEv = [] ∧ c.egr.evs = [] ∧ c.pcieDest 0 = some 0 ∧
         c.resultRoom 0 = true ∧ le (c.getBytes .hbm (c.ringBase false 0 + 64 * (0 % 2 ^ c.ringLog false 0)) 64) 8 8 = 5 ∧ c.egr.rel = true ∧ 5 ≤ c.r64 R.PCI.EREL_LO ∧
         c.tick.edgeAt = some 900000 ∧ c.tick.scanned = false ∧ c.fnum = 8 ∧ (∀ q ∈ c.egr.eth, ∀ y ∈ q.qs, y.recs = []) ∧ c.rb (R.PCI.ERCFG 0) 9 = (r9 == 1) ∧
         ((c.r (R.PCI.RRPROD 0)).toNat + 1 + 2 ^ 32 - (c.pfn 0).rcons) % 2 ^ 32 < 2 ^ c.rf (R.PCI.RRCFG 0) 4 0) ∧
    ((rgC 0 2).awake = true ∧ (rgC 0 2).tick.edgeAt = some 900000 ∧ (rgC 0 2).tick.scanned = false ∧ (rgC 0 2).fnum < 3) ∧
    (let c := dgC 0 []
     let q := c.ethQ 1 2
     c.awake = true ∧ q.openAt = some 1000000 ∧ q.recs = [recMake 1 0 0 3 5 6 [1, 2, 3]] ∧ (recMake 1 0 0 3 5 6 [1, 2, 3]).length = 64 ∧ c.egr.eth.length = 2 ∧ (c.ethP 1).qs.length = 8 ∧
       c.rb (R.ETH.ESTAT 1) 0 = true ∧ c.rb (R.ETH.ECTL 1) 0 = true ∧ c.rb (R.ETH.QCTL 1 2) 0 = true) ∧
    (let a := 0x100000001000
     ({ rxFrame with fcsOk := false } : EthFrame).fcsOk = false ∧ rxFrame.fcsOk = true ∧ rxFrame.bytes.take 6 = List.replicate 6 0xFF ∧ 0 < rxFrame.bytes.length ∧
       rxFrame.bytes.length ≤ 2032 ∧ rxFrame.ptp = none ∧
       (∀ m ∈ [[], [(a + 8, 1)]],
          let c := dgC 0x106 m
          c.awake = true ∧ c.rb (R.ETH.RXCFG 1) 8 = true ∧ c.r64 (R.ETH.RXB_LO 1) % 2 ^ 48 + 2048 * ((c.ethP 1).rxNext % 2 ^ c.rf (R.ETH.RXCFG 1) 4 0) = a ∧ c.regionOf a 2048 = .hbm ∧
            c.unavailable .hbm a 2048 = none ∧ c.ecc = [] ∧ c.egr.eth.length = 2 ∧ c.rb (R.ETH.ECTL 1) 3 = true ∧ (c.ethP 1).tsrx.length < 16) ∧
       natLE ((dgC 0x106 []).getBytes .hbm (a + 8) 2) = 0 ∧ natLE ((dgC 0x106 [(a + 8, 1)]).getBytes .hbm (a + 8) 2) ≠ 0) ∧
    (let c := recfC
     c.calm = true ∧ c.vxl.length = 4 ∧ (c.vport 1).owed.length = 4 ∧ (c.vport 1).inbox = [(3, recfMsg)] ∧ recfMsg.data.length = 64 ∧ c.arole = 1 ∧ c.ringEn true 2 = true ∧
       (∀ j, j < 8 → c.routes j = []) ∧ c.ringBase true 2 + 64 * (nth 0 c.egr.fseq 2 % 2 ^ c.ringLog true 2) = 0x100000000000 ∧ c.regionOf 0x100000000000 64 = .hbm ∧
       c.unavailable .hbm 0x100000000000 64 = none ∧ c.ecc = [] ∧ c.egr.fseq.length = 8) := by
  and_intros <;> (try rintro _ (rfl | rfl)) <;> decide +kernel
/-- Every entry of that ring lies where kennel 0 reads. -/
theorem witness_TheRingsEntriesAreReached (r9 : Nat) (h : r9 = 0 ∨ r9 = 1) (i : Nat) :
    let c := rgC r9 8
    let a := c.ringBase false 0 + 64 * (i % 2 ^ c.ringLog false 0)
    c.regionOf a 64 = .hbm ∧ c.fence 0 .hbm a 64 false = none ∧ c.unavailable .hbm a 64 = none := by
  have hn : ∀ r, r = 0 ∨ r = 1 → (rgC r 8).ringLog false 0 = 4 ∧ ∀ j, j < 16 → (rgC r 8).regionOf ((rgC r 8).ringBase false 0 + 64 * j) 64 = .hbm ∧
      (rgC r 8).fence 0 .hbm ((rgC r 8).ringBase false 0 + 64 * j) 64 false = none ∧ (rgC r 8).unavailable .hbm ((rgC r 8).ringBase false 0 + 64 * j) 64 = none := by
    rintro _ (rfl | rfl) <;> decide +kernel
  have := hn r9 h
  simp only [this.1]
  exact this.2 _ (Nat.mod_lt _ (by decide))

/-- The part with its power unit changed. -/
def pwC (regs : List (Nat × BitVec 32)) (f : Power → Power) : Chip :=
  let c := upC (regs ++ [(R.H.POWN 0x001, 0), (R.H.POWN 0x009, 0)])
  { c with pwr := f c.pwr }
def pwBits (w : Nat) : BitVec 32 := BitVec.ofNat 32 w

theorem witness_ResetsHoldAndReleaseTheDevice :
    ((pwC [] fun p => { p with porDone := false }).pwr.porDone = false ∧ (upC []).pwr.porDone = true ∧ (pwC [] fun p => { p with fused := false }).pwr.fused = false ∧
       (upC []).wdt.length = 18 ∧ (upC []).pwr.pwrgood = true ∧ (upC []).pwr.resetN = true ∧ (upC []).pwr.refclk = true) ∧
    ((pwC [] fun p => { p with lowAt := some 5 }).pwr.lowAt = some 5 ∧ (upC []).rb R.AON.FSRC 0 = false) ∧
    (let c := { upC [] with coreUp := false }
     c.relReady = true ∧ c.cores.length = 17 ∧ c.pwr.firstRel = true ∧
       ({ pwC [] fun p => { p with firstRel := false } with coreUp := false } : Chip).relReady = true ∧ (pwC [] fun p => { p with firstRel := false }).pwr.firstRel = false) ∧
    ((upC []).pwr.tripHold = false ∧ (124 : BitVec 8).toNat < 125 ∧ (114 : BitVec 8).toNat < 115 ∧ 125 ≤ (125 : BitVec 8).toNat ∧ 115 ≤ (115 : BitVec 8).toNat ∧
       (pwC [] fun p => { p with tripHold := true }).pwr.tripHold = true) ∧
    ((pwC [] fun p => { p with pwrgood := false }).pwr.pwrgood = false ∧ (pwC [] fun p => { p with resetN := false }).pwr.resetN = false ∧
       (pwC [] fun p => { p with refclk := false }).pwr.refclk = false) ∧
    ((upC []).takes (wr R.AON.SWRST 0x57525354) = true ∧ (wr R.AON.SWRST 0x57525354).val = 0x57525354 ∧ (upC []).takes (wr R.AON.SWRST 0x57525355) = true ∧
       (wr R.AON.SWRST 0x57525355).val ≠ 0x57525354) := by
  and_intros <;> decide +kernel

def btC (v : Nat) (f : Power → Power) : Chip := pwC [(R.AON.BOOTST, pwBits v)] f
def btImg : BootSlot := { magic := true, len := 16, entry := 8, image := List.replicate 16 7 }
def btFl : BootFlash := { a := btImg }
/-- Tile 3 waits for events, its nap asked for or not. -/
def npC (nap : Nat) (exit : List (Nat × Nat)) (w : CoreRun) : Chip :=
  let c := (pwC [(R.PWM.TNAP, pwBits nap), (R.PWM.TPWR, pwBits (8 * b2n (nap == 8 || exit ≠ []) + 2 ^ 19 * b2n (exit ≠ [])))] fun p => { p with napExit := exit }).modCore 3 fun x => { x with run := w }
  c
def dpC (deep : Nat) (held : Bool) : Chip :=
  (List.range 8).foldl (fun c k => c.setKstate k 2) (pwC [(R.AON.WAKE, 6), (R.AON.WKTMR, 5), (R.VXL.LSTAT 1, 5), (R.HBM.STAT 1, 2)] fun p => { p with deep := deep, wakeHeld := held })

theorem witness_TheDeviceBootsNapsAndSleeps :
    (let c := pwC [] fun p => { p with testing := [5, 25, 63] }
     c.coreUp = true ∧ (∀ u ∈ [5, 25, 63], u ∈ c.pwr.testing) ∧ ((25 : BitVec 6).toNat = 25 ∧ (63 : BitVec 6).toNat = 63)) ∧
    (let c := btC 1 id
     let b := btFl.a
     c.rf R.AON.BOOTST 2 0 = 1 ∧ c.pwr.authed = none ∧ c.ecc = [] ∧ btFl.sfdp = true ∧ b.magic = true ∧ c.fuse.minSvn ≤ b.svn.toNat ∧ c.pwr.tried = [] ∧ btFl.b.magic = false ∧
       b.keyOk = true ∧ b.sigOk = true ∧ b.hashOk = true ∧ 0 < b.len.toNat ∧ b.len.toNat ≤ 1835008 ∧ b.entry.toNat % 8 = 0 ∧ b.entry.toNat < b.len.toNat ∧ b.image.length = b.len.toNat ∧
       ({ btFl with sfdp := false } : BootFlash).sfdp = false ∧ ({ btFl with a := { btImg with magic := false } } : BootFlash).a.magic = false ∧
       ({ btFl with a := { btImg with sigOk := false } } : BootFlash).a.sigOk = false ∧ (btC 2 id).rf R.AON.BOOTST 2 0 = 2) ∧
    (let c := btC 2 fun p => { p with authed := some 8 }
     c.awake = true ∧ c.pwr.authed = some 8 ∧ c.rf R.AON.BOOTST 2 0 = 2 ∧ c.pwr.testing = [] ∧ c.cores.length = 17) ∧
    ((btC 3 id).takes (wr R.AON.BOOTST 0x10000) = true ∧ bit (wr R.AON.BOOTST 0x10000).val 16 = true) ∧
    (let c := npC 0 [] .waitt
     c.takes (wr R.PWM.TNAP 8) = true ∧ c.rwlOk .cc 0x009 = true ∧ c.cores.length = 17 ∧ c.ary.length = 16 ∧ (wr R.PWM.TNAP 8).val = BitVec.ofNat 32 (2 ^ 3) ∧ c.r R.PWM.TNAP = 0 ∧
       c.napped 3 = false ∧ c.napBad 3 = false ∧ (npC 0 [] .run).takes (wr R.PWM.TNAP 8) = true ∧ (npC 0 [] .run).napped 3 = false ∧ (npC 0 [] .run).napBad 3 = true) ∧
    (let c := npC 8 [] .waitt
     c.takes (wr R.PWM.TNAP 0) = true ∧ c.r R.PWM.TNAP = BitVec.ofNat 32 (2 ^ 3) ∧ c.napped 3 = true ∧ c.rb R.PWM.TPWR 19 = false) ∧
    (let c := pwC [] id
     c.takes (wr R.PWM.DEEPC 1) = true ∧ bit (wr R.PWM.DEEPC 1).val 0 = true ∧ c.deepWhy = 0 ∧ (pwC [(R.TICK.TSTAT, 1)] id).deepWhy ≠ 0 ∧
       (pwC [(R.TICK.TSTAT, 1)] id).takes (wr R.PWM.DEEPC 1) = true) ∧
    (let c := npC 0 [(3, 1200000)] .waitt
     c.awake = true ∧ c.pwr.napExit = [(3, 1200000)] ∧ c.rb R.PWM.TNAP 3 = false ∧ c.rb (R.TILE.CCTL 3) 1 = false ∧ c.cores.length = 17 ∧ (c.core 3).run = .waitt) ∧
    (let c := dpC 1 false
     c.coreUp = true ∧ c.deepReady = true ∧ c.vxl.length = 4 ∧ c.casc.sent = [] ∧ (dpC 1 true).deepReady = true ∧ (dpC 1 true).pwr.wakeHeld = true) ∧
    ((dpC 1 false).pwr.deep = 1 ∧ (dpC 1 false).rb R.AON.WAKE 1 = true ∧ (dpC 2 false).pwr.deep = 2 ∧ (dpC 2 false).rb R.AON.WAKE 2 = true ∧ (dpC 2 false).rf R.AON.WKTMR 23 0 ≠ 0) ∧
    (let c := dpC 3 false
     c.pwr.deep = 3 ∧ c.cores.length = 17 ∧ c.coreUp = true ∧ c.noneWaits = true) := by
  and_intros <;> decide +kernel

/-- A watchdog channel running, since 700 units. -/
def wdC (regs : List (Nat × BitVec 32)) (i : Nat) (bark paused : Bool) : Chip :=
  let c := upC (regs ++ [(R.H.POWN 2, 0), (R.H.POWN 5, 0), (R.H.POWN 8, 0), (R.WDT.WPER i, 100)])
  { c with wdt := modNth (fun w => { w with running := true, period := 100, bark := bark, acc := 700, at_ := c.now, paused := paused }) c.wdt i }

theorem witness_WatchdogsAreServedAndExpire :
    (let c := wdC [] 3 true false
     let w : RegWr := { who := .tile 3, ofs := BitVec.ofNat 24 (R.TILE.WSVC 3), val := 0x57440000 }
     c.wdt.length = 18 ∧ c.cores.length = 17 ∧ c.takes w = true ∧ w.ofs.toNat = R.TILE.WSVC 3 ∧ (nth {} c.wdt 3).running = true ∧ fld w.val 31 16 = 0x5744 ∧
       (nth {} c.wdt 3).bark = true ∧ (wdC [] 3 false false).takes { w with val := 0x57450000 } = true ∧ fld (0x57450000 : BitVec 32) 31 16 ≠ 0x5744 ∧
       (nth {} (wdC [] 3 false false).wdt 3).bark = false) ∧
    (let w : RegWr := { who := .cc, ofs := BitVec.ofNat 24 R.CC.WSVC, val := 0x57440000 }
     let c := wdC [(R.WDT.WCTL 16, 1), (R.H.POWN 4, 0)] 16 false false
     c.takes w = true ∧ w.ofs.toNat = R.CC.WSVC ∧ (nth {} c.wdt 16).running = true ∧ c.wdtWindow 16 ≤ c.wdtUnits 16 ∧ c.canSend .pf = true ∧ c.noneWaits = true ∧
       c.writeRefusal .pf R.CC.WSVC false = some (4, 0x0521)) ∧
    (let w : RegWr := wr R.SWD.SSVC 0x53570000
     let c := wdC [(R.SWD.SCFG, 0x640001)] 17 false false
     c.takes w = true ∧ w.ofs.toNat = R.SWD.SSVC ∧ (nth {} c.wdt 17).running = true ∧ fld w.val 31 16 = 0x5357 ∧ c.wdtWindow 17 ≤ c.wdtUnits 17 ∧ (nth {} c.wdt 17).bark = false ∧
       c.takes (wr R.SWD.SSVC 1) = true ∧ fld (wr R.SWD.SSVC 1).val 31 16 ≠ 0x5357) ∧
    (let c := upC [(R.H.POWN 2, 0), (R.H.POWN 5, 0)]
     (∀ v ∈ [0xA0001, 0xEA600001, 0x90001], c.takes (wr R.SWD.SCFG v) = true ∧ bit (wr R.SWD.SCFG v).val 0 = true) ∧ c.rwlOk .cc 2 = true ∧
       (nth {} c.wdt 17).running = c.rb R.SWD.SCFG 0 ∧ fld (0xA0001 : BitVec 32) 31 16 = 10 ∧ fld (0xEA600001 : BitVec 32) 31 16 = 60000 ∧ fld (0x90001 : BitVec 32) 31 16 < 10 ∧
       c.rwlOk .cc 5 = true ∧ (∀ x ∈ [(R.WDT.WPER 3, 77), (R.WDT.WPER 3, 0), (R.WDT.WCTL 16, 1)], c.takes (wr x.1 x.2) = true)) ∧
    ((wdC [] 3 false false).awake = true ∧ (nth {} (wdC [] 3 false false).wdt 3).paused = false ∧ (wdC [] 16 true false).awake = true ∧
       (nth {} (wdC [] 16 true false).wdt 16).bark = true ∧ (nth {} (wdC [] 3 true false).wdt 3).bark = true ∧ (wdC [] 3 true false).noneWaits = true ∧
       (wdC [] 3 true false).rb (R.KMAP.KSTAT ((wdC [] 3 true false).owner 3)) 3 = false) ∧
    ((nth {} (wdC [] 17 false false).wdt 17).paused = false ∧ (wdC [] 17 false false).pwr.porDone = true ∧
       (let c := upC []; { c with pwr := { c.pwr with wdoEnd := some 7 } } : Chip).pwr.wdoEnd = some 7) := by
  and_intros <;> decide +kernel

/-- Debug access unlocked or not, its state and tile core 3 changed. -/
def dbC (regs : List (Nat × BitVec 32)) (f : Debug → Debug) (g : Core → Core) : Chip :=
  let c := (upC (regs ++ [(R.H.POWN 8, 0)])).modCore 3 g
  { c with dbg := f c.dbg }

theorem witness_TheDebugUnitUnlocksHaltsAndInspects :
    ((upC []).pwr.porDone = true ∧ (upC []).coreUp = true ∧ ({ upC [] with coreUp := false } : Chip).pwr.porDone = true ∧
       (dbC [] (fun g => { g with dapBusy := true }) id).dbg.dapBusy = true ∧ (dbC [] (fun g => { g with dapBusy := true }) id).noneWaits = true) ∧
    (let c := dbC [(R.DBG.DSTAT, 1)] id id
     c.dbg.dapBusy = false ∧ c.calm = true ∧ c.rb R.DBG.DSTAT 0 = true ∧ c.plainCc 0x40 4 = true ∧ 0x40 % 4 = 0) ∧
    (let c := dbC [(R.DBG.DSTAT, 0)] (fun g => { g with verifying := true, token := [(4, 3)] }) id
     c.awake = true ∧ c.dbg.verifying = true ∧ c.rb R.DBG.DCTL 1 = false ∧ c.rb R.DBG.DSTAT 2 = false ∧ c.tokWhy false true ≠ 0 ∧
       (let d : Chip := { c with fuse := { c.fuse with uid := 0 }, dbg := { c.dbg with token := [] } }
        d.awake = true ∧ d.dbg.verifying = true ∧ d.tokWhy true true = 0)) ∧
    (let c := dbC [(R.DBG.DSTAT, 0)] id id
     c.takes (wr R.DBG.TVFY 1) = true ∧ bit (wr R.DBG.TVFY 1).val 0 = true ∧ c.dbg.verifying = false ∧ c.fuse.dmode ≠ 2 ∧
       (let d := { c with fuse := { c.fuse with dmode := 2 } }
        d.takes (wr R.DBG.TVFY 1) = true ∧ d.fuse.dmode = 2)) ∧
    (let c := dbC [(R.DBG.DSTAT, 3)] id id
     c.takes (wr R.DBG.DCTL 1) = true ∧ c.rb R.DBG.DSTAT 2 = false ∧ c.dbg.stepping = [] ∧ (∀ j, j < 17 → (c.core j).run ≠ .halted) ∧ c.takes (wr R.DBG.DCTL 2) = true ∧
       bit (wr R.DBG.DCTL 2).val 0 = false ∧ bit (wr R.DBG.DCTL 2).val 1 = true ∧ c.rb R.DBG.DSTAT 1 = true ∧ (dbC [(R.DBG.DSTAT, 1)] id id).rb R.DBG.DSTAT 1 = false ∧
       (dbC [(R.DBG.DSTAT, 1)] id id).takes (wr R.DBG.DCTL 2) = true) ∧
    (let c := dbC [(R.DBG.DSTAT, 0)] id id
     ∀ k ∈ [R.DBG.HREQ, R.DBG.HRES, R.DBG.HSTEP], c.takes (wr k 8) = true ∧ c.rb R.DBG.DSTAT 0 = false) ∧
    (let c := dbC [(R.DBG.DSTAT, 1)] id id
     c.takes (wr R.DBG.HREQ 8) = true ∧ c.rb R.DBG.DSTAT 0 = true ∧ (wr R.DBG.HREQ 8).val = BitVec.ofNat 32 (2 ^ 3) ∧ c.cores.length = 17 ∧ (c.core 3).run ≠ .halted ∧
       c.surv 3 = true ∧ c.dbg.haltReq = []) ∧
    (let c := dbC [(R.DBG.DSTAT, 1), (R.DBG.HSTAT, 8), (R.DBG.RSEL, 0x1F03)] id fun x => { x with run := .halted, before := .run }
     c.takes (wr R.DBG.HRES 8) = true ∧ c.takes (wr R.DBG.HSTEP 8) = true ∧ (c.core 3).run = .halted ∧ (c.core 3).before = .run ∧ c.dbg.stepping = [] ∧ c.dbg.frzk = [] ∧
       c.coreFrz 3 = false ∧ (c.core 3).stopReq = false ∧ c.takes (wr R.DBG.RDAT 0x987654) = true ∧ c.r R.DBG.RSEL = BitVec.ofNat 32 (3 + 2 ^ 8 * 31) ∧ (c.core 3).d.length = 32) ∧
    (let c := dbC [(R.DBG.DSTAT, 1)] (fun g => { g with haltReq := [(3, 1)] }) fun x => { x with run := .waitt }
     c.awake = true ∧ c.cores.length = 17 ∧ c.rb R.DBG.DCTL 2 = false ∧ (c.core 3).run = .waitt ∧ c.haltDue 3 = some 1 ∧ (c.core 3).loads = [] ∧ (c.core 3).takenBr = false) ∧
    (let c := dbC [(R.DBG.DSTAT, 1), (R.DBG.BPCTL 1, 0x80000008), (R.DBG.BP_LO 1, 0x1000)] id id
     let x := c.core 3
     c.awake = true ∧ x.run = .run ∧ x.bundle = [] ∧ x.loopDue = false ∧ x.loads = [] ∧ x.takenBr = false ∧ x.stopReq = false ∧ c.coreFrz 3 = false ∧ x.nmi = false ∧ x.busErrs = [] ∧
       c.irqLine 3 = none ∧ c.bpHit 3 = true ∧ c.haltDue 3 = none) := by
  and_intros <;> decide +kernel

/-- Trace unit 3 keeps 512 packets from the second region of the trace area; pages belong to kennel 0. -/
def trC (regs : List (Nat × BitVec 32)) (t : TraceUnit) : Chip :=
  let c := upC (regs ++ [(R.H.POWN 0, 0), (R.H.POWN 1, 0), (R.H.POWN 6, 0), (R.H.POWN 7, 0), (R.TRC.TCFG 3, 0x00020011), (R.TRC.TST 3, 2), (R.TRC.TWP 3, 5), (R.TRC.SYNCP, 10),
    (R.HBM.STAT 0, 2), (R.HBM.STAT 1, 2), (R.HBM.STAT 2, 2), (R.HBM.STAT 3, 2)])
  { c with trace := modNth (fun _ => t) c.trace 3 }
def trPk : Packet := ⟨4, 3, 1, 0x1234, 7, 99⟩
def evOne : EvEntry := ⟨0x123456789, 0x521, 3, 1, 2, 77⟩
def erOne : ErrEntry := ⟨0x521, 3, 1, 2, 1, 500, 88, 0x99, 4⟩
/-- A firmware update waits in the CC memory, its slot and MAGIC as given. -/
def fwC (upd : Bool) (slot magic : Nat) : Chip :=
  let c := trC [(R.AON.BOOTST, 4), (R.PCI.PLSTAT, 0x145)] {}
  let m : Memory := [(0x3FDF0, 0x54), (0x3FDF1, 0x44), (0x3FDF2, 0x50), (0x3FDF3, 0x55), (0x3FDF4, BitVec.ofNat 8 slot), (0x3FE00, BitVec.ofNat 8 magic), (0x3FE01, 0x5A), (0x3FE02, 0x56),
    (0x3FE03, 0x42), (0x3FE04, 1), (0x3FE0B, 1), (0x3FE0C, 64), (0x3FE10, 8)]
  { c with mem := m, pwr := { c.pwr with updating := upd } }

theorem witness_TraceErrorsFloorUpdateAndSmbus :
    (∀ lost ∈ [0, 3],
       let t : TraceUnit := { fifo := [trPk, trPk], lost := lost }
       let c := trC [] t
       c.awake = true ∧ c.trace.length = 18 ∧ nth {} c.trace 3 = t ∧ t.closing = false ∧ c.rb (R.TRC.TST 3) 0 = false ∧ c.rb (R.TRC.TCFG 3) 2 = false ∧
         (c.r (R.TRC.TWP 3)).toNat = 5 ∧ 3 ≤ c.rf (R.TRC.TCFG 3) 24 16 * 256) ∧
    (let t : TraceUnit := { fifo := [trPk] }
     let c := trC [] t
     c.rb (R.TRC.TST 3) 1 = true ∧ t.sleepG = none ∧ t.fifo.length < 30 ∧ c.takes (wr (R.TRC.TMARK 3) 0x77) = true ∧ (c.req .cc).ken = 0 ∧
       c.takes (wr (R.TRC.TCFG 4) 0x00010001) = true ∧ c.rwlOk .cc 7 = true ∧ c.rb (R.TRC.TST 4) 1 = false ∧ c.traceMeets 4 0 1 = false ∧
       c.takes (wr (R.TRC.TCFG 4) 0x00010003) = true ∧ fld (0x00010003 : BitVec 32) 1 0 = 3 ∧ c.traceMeets 4 1 1 = true ∧ c.takes (wr (R.TRC.TCFG 3) 0x20010) = true ∧
       fld (0x20010 : BitVec 32) 1 0 = 0) ∧
    (let c := trC [(R.AON.FSRC, 0x80)] {}
     c.takes (wr R.AON.FCLR 1) = true ∧ bit (wr R.AON.FCLR 1).val 0 = true) ∧
    (let c : Chip := { trC [] {} with cores := (List.replicate 17 {}) }
     c.takes (wr R.DEV.BLSEL 1) = true ∧ c.rwlOk .cc 0 = true ∧ (c.fuse.blsup.getLsbD 1 = true ∨ c.fuse.blsup.getLsbD 0 = true) ∧ (∀ j, j < c.tiles → (c.core j).run = .stopped) ∧ c.tstate ≠ 1 ∧
       c.tstate ≠ 2 ∧ (trC [] {}).takes (wr R.DEV.BLSEL 1) = true ∧ ((trC [] {}).core 3).run ≠ .stopped) ∧
    (let c := trC [] {}
     let d : Chip := { c with ev := { c.ev with queue := [evOne, evOne] } }
     d.pwr.porDone = true ∧ d.ev.queue = evOne :: [evOne]) ∧
    (let c := trC [(R.AON.EVRIX, 5)] {}
     let d : Chip := { c with ev := { c.ev with ring := [(5, evOne)] }, err := { c.err with log := [erOne, erOne] } }
     d.gives (rd R.AON.EVD0) = true ∧ d.ev.ring.find? (fun y => y.1 == d.rf R.AON.EVRIX 7 0) = some (5, evOne) ∧ d.pagePwr 1 = 0 ∧ d.gives (rd R.ERR.LD0) = true ∧
       d.err.log = erOne :: [erOne] ∧ d.pagePwr 6 = 0 ∧ d.inSrst 6 = false) ∧
    (let c := trC [(R.ERR.CRTE 4, 9)] {}
     let d : Chip := { c with err := { c.err with open_ := [erOne, erOne], log := [erOne] } }
     d.awake = true ∧ d.err.open_ = erOne :: [erOne] ∧ d.err.log.length < 64 ∧ d.netEv = [] ∧ d.egr.evs = [] ∧ bit (d.r (R.ERR.CRTE (erOne.code / 0x100 - 1))) 2 = false ∧
       bit (d.r (R.ERR.CRTE (erOne.code / 0x100 - 1))) 0 = true ∧ bit (d.r (R.ERR.CRTE (erOne.code / 0x100 - 1))) 3 = true) ∧
    (∀ x ∈ [(0xFFFFFFFF, 0xFFFFFFFF), (0x20000001, 0), (0, 0)],
       let c := trC [(R.DEV.SURV, BitVec.ofNat 32 x.1), (R.DEV.SURVX, BitVec.ofNat 32 x.2), (R.DEV.FLOOR, 0)] {}
       c.awake = true ∧ c.rb R.DEV.FLOOR 8 = false ∧ c.stacksSettled = true) ∧
    ((fwC false 1 0x55).awake = true ∧ (fwC false 1 0x55).ecc = [] ∧ (fwC false 1 0x55).rf R.AON.BOOTST 2 0 = 4 ∧ (fwC false 1 0x55).pwr.updating = false ∧
       natLE ((fwC false 1 0x55).getBytes .ccMem 0x3FDF0 4) = 0x55504454 ∧ (fwC true 1 0x55).pwr.updating = true ∧ (fwC true 1 0x55).pwr.porDone = true ∧
       natLE ((fwC true 3 0x55).getBytes .ccMem 0x3FDF4 1) = 3 ∧ natLE ((fwC true 1 0x54).getBytes .ccMem 0x3FE00 4) ≠ 0x42565A55) ∧
    (let c := fwC true 1 0x55
     let word (a m : Nat) := natLE (c.getBytes .ccMem a m)
     word 0x3FDF4 1 = 1 ∧ word 0x3FE00 4 = 0x42565A55 ∧ word 0x3FE04 1 = 1 ∧ c.fuse.minSvn ≤ word 0x3FE08 4 ∧ 0 < word 0x3FE0C 4 ∧ word 0x3FE0C 4 ≤ 1835008 ∧
       word 0x3FE10 6 % 8 = 0 ∧ word 0x3FE10 6 < word 0x3FE0C 4) ∧
    (let c := trC [] {}
     let k := R.AON.SMBST - R.AON.SMBST % 0x1000 + 0x40
     c.pwr.porDone = true ∧ (0x12 : BitVec 8) ≠ 0x10 ∧ (0x12 : BitVec 8) ≠ 0x11 ∧ k / 0x1000 = 1) ∧
    (let c := trC [] {}
     let k := 0x1084
     (rowOf k).any (fun row => row.w1c == 0 && row.w1s == 0 && row.rwl == 0) = true ∧ 0x040 ≤ k % 0x1000 ∧ k / 0x1000 = 1 ∧
       [0x1050, 0x1054, 0x1058, 0x105C, 0x10A0].contains k = false ∧ c.takes { who := .smbus, ofs := BitVec.ofNat 24 k, val := 5 } = true) ∧
    (let c := trC [] {}
     let k := R.DEV.SURV
     (rowOf k).any (fun row => row.rc == 0) = true ∧ 0x040 ≤ k % 0x1000 ∧
       (pageOf (k / 0x1000)).any (fun x => !List.contains [PageKind.aon, .err, .dbg, .drn, .tile, .eth] x.1 && (Chip.loHi x.1 x.2 (k % 0x1000)).isNone) = true ∧
       c.gives { who := .smbus, ofs := BitVec.ofNat 24 k } = true ∧ c.slotEmpty (k / 0x1000) = false ∧ c.pagePwr (k / 0x1000) = 0 ∧ c.inSrst (k / 0x1000) = false) := by
  and_intros <;> decide +kernel

/-- The UZV-781 with its customer port in a state, CPCTL, and tile 3's block with a command sent or not. -/
def cuC (st ctl : Nat) (sent : Option Bool) : Chip :=
  let c := upC [(R.H.POWN 4, 0), (R.CC.CPST, BitVec.ofNat 32 st), (R.CC.CPCTL, BitVec.ofNat 32 ctl), (R.HBM.STAT 0, 0xA), (R.HBM.STAT 1, 0xA)]
  { c with fuse := { c.fuse with part := 0x0781 }, cport := { tx := 5, owed := 70 }
           cust := modNth (fun u => { u with queue := sent.toList.map fun b =>
             { a := .cxcmd 7 1 2 false false 0 0 [1, 2, 3], bundle := 4, tag := 0x0301, sent := b, at_ := 10, ken := 2 }, cnt := 255 }) c.cust 3 }
def cuCmd (b : Bool) : CustCmd := { a := .cxcmd 7 1 2 false false 0 0 [1, 2, 3], bundle := 4, tag := 0x0301, sent := b, at_ := 10, ken := 2 }

theorem witness_TheCustomerPortCarriesCommandsAndAccesses :
    (∀ b ∈ [true, false],
       let c := cuC 2 0x00640001 (some b)
       c.awake = true ∧ c.custUp = true ∧ (∀ j, j < 17 → (c.core j).held = false) ∧ c.cust.length = 16 ∧ (∀ j, j < 16 → (c.custSt j).ntf = [] ∧ (j ≠ 3 → (c.custSt j).queue = [])) ∧
         c.cport.outq = [] ∧ c.cport.inq = [] ∧ (c.custSt 3).queue = [cuCmd b] ∧ (cuCmd b).sent = b ∧ (c.custSt 3).cnt < 256 ∧ 1 ≤ c.cport.tx ∧ (cuCmd b).tag = (0x0301 : BitVec 16).toNat ∧
         (0x0301 : BitVec 16).toNat / 256 = 3 ∧ c.rb (R.KMAP.KSTAT (c.owner 3)) 3 = false) ∧
    (let c := cuC 2 0x00640001 (some true)
     let a := 0x100000000100
     c.regionOf a 256 = .hbm ∧ c.ownWindow a 256 = a ∧ (∀ wt, c.fence (c.owner 3) .hbm a 256 wt = none) ∧ c.unavailable .hbm a 256 = none ∧ c.ecc = [] ∧
       1 + (256 + 63) / 64 ≤ c.cport.tx + (3 : BitVec 8).toNat) ∧
    ((cuC 2 0x00640001 none).awake = true ∧ (cuC 2 0x00640001 none).custUp = true ∧ ((cuC 2 0x00640001 none).custSt 3).queue = []) ∧
    (∀ st ∈ [1, 3],
       let c := cuC st 0x00640001 none
       c.awake = true ∧ c.noneWaits = true ∧ c.hasCust = true ∧ c.rb R.CC.CPCTL 0 = true ∧ c.rf R.CC.CPST 1 0 = st) ∧
    (let c := cuC 0 0x00640000 none
     c.awake = true ∧ c.takes (wr R.CC.CPCTL 0x770001) = true ∧ c.hasCust = true ∧ fld (wr R.CC.CPCTL 0x770001).val 31 16 ≠ 0 ∧ c.rb R.CC.CPCTL 0 = false ∧ c.rwlOk .cc 4 = true ∧
       c.takes (wr R.CC.CPCTL 1) = true ∧ fld (wr R.CC.CPCTL 1).val 31 16 = 0) ∧
    ((upC [(R.H.POWN 4, 0)]).hasCust = false ∧ (upC [(R.H.POWN 4, 0)]).takes (wr R.CC.CPCTL 1) = true ∧ (upC [(R.H.POWN 4, 0)]).awake = true) := by
  and_intros <;> decide +kernel

/-! ### Well-formedness: an ill-formed term for each check -/

theorem test_an_upset_strikes_a_part_that_exists :
    ∀ u ∈ [((0 : BitVec 2), (31 : BitVec 5), (47 : BitVec 7)), (1, 7, 5), (2, 3, 95)], Instr.wf (.nop { syl 0 .v with upset := [u] }) = true := by
  intro u hu
  simp only [List.mem_cons, List.not_mem_nil, or_false] at hu
  rcases hu with rfl | rfl | rfl <;> rfl
theorem test_an_upset_of_a_part_that_is_not_there_is_ill_formed :
    ∀ u ∈ [((0 : BitVec 2), (0 : BitVec 5), (48 : BitVec 7)), (1, 8, 0), (1, 0, 6), (2, 4, 0), (2, 0, 96), (3, 0, 0)],
      Instr.wf (.nop { syl 0 .v with upset := [u] }) = false ∧ Instr.wf (.vadd { syl 0 .v with upset := [u] } (.imm { vd := 0, va := 0, imm := 0 })) = false ∧
        Instr.wf (.otinv { syl 0 .n with upset := [u] } 0 0 false) = false := by
  intro u hu
  simp only [List.mem_cons, List.not_mem_nil, or_false] at hu
  rcases hu with rfl | rfl | rfl | rfl | rfl | rfl <;> exact ⟨rfl, rfl, rfl⟩
theorem test_a_register_access_names_a_register :
    Instr.wf (.registerWrite (wr 0x4C 0)) = true ∧ Instr.wf (.registerWrite (wr 0x4E 0)) = false ∧ Instr.wf (.reg64LoRead (rd 0x4D)) = false ∧
      Instr.wf (.smbusWrite 0x10 7 0x1041 0 false) = false ∧ Instr.wf (.smbusRead 0x11 3 0x1043) = false ∧ Instr.wf (.dapacc 0x42 false 0) = false := by decide
theorem test_a_host_request_is_sized :
    Instr.wf (.pcieMemoryRequest ⟨0, 2, 0x45, 5, none⟩) = true ∧ Instr.wf (.pcieMemoryRequest ⟨0, 1, 0x45, 5, none⟩) = false ∧
      Instr.wf (.pcieMemoryRequest ⟨0, 2, 0x45, 0, none⟩) = false ∧ Instr.wf (.pcieMemoryRequest ⟨0, 2, 0x45, 5, some [1]⟩) = false ∧
      Instr.wf (.commandFetch 0 (List.replicate 63 0)) = false := by decide +kernel
theorem test_a_frame_holds_its_flit_and_credits :
    Instr.wf (.frameReceived 0 { flit := zeros 64, cr := [0, 0, 0, 0] }) = true ∧ Instr.wf (.frameReceived 0 { flit := zeros 63, cr := [0, 0, 0, 0] }) = false ∧
      Instr.wf (.nakReceived 0 { flit := zeros 64, cr := [0, 0, 0] }) = false ∧ Instr.wf (.heelTokenReceived 0 (zeros 151) 0 0) = false := by decide +kernel
theorem test_messages_are_bounded :
    Instr.wf (.mailboxAck 0 true (zeros 257)) = false ∧ Instr.wf (.pmbusPoll (List.replicate 9 none)) = false ∧ Instr.wf (.pmbAlert (List.replicate 9 0)) = false ∧ Instr.wf (.customerRd 0 0 0 0) = false ∧ Instr.wf (.customerRd 0 0 256 64) = true ∧ Instr.wf (.customerRd 0 0 1 65) = false ∧
      Instr.wf (.customerWr 0 0 [] 0) = false ∧ Instr.wf (.customerWr 0 0 (zeros 257) 0) = false ∧ Instr.wf (.customerDone 0 0 65) = false ∧
      Instr.wf (.customerNop 65 0) = false ∧ Instr.wf (.customerBadMessage 5 0) = false ∧ Instr.wf (.customerBadMessage 4 64) = true := by decide +kernel

/-! ### Steps whose results the spec works out -/

/-- What the device is after one command; a state of no core when the command gives no next state. -/
def after (c : Chip) (i : Instr) : Chip := match exec i { State.reset with chip := c } with | .next t => t.chip | _ => { c with cores := [] }
/-- Tile core `k` changed in its D registers, given by number. -/
def withD (k : Nat) (ds : List (Nat × BitVec 24)) (as : List (Nat × BitVec 48)) : Chip :=
  upCore k fun x => { x with d := ds.foldl (fun l y => modNth (fun _ => y.2) l y.1) x.d, a := as.foldl (fun l y => modNth (fun _ => y.2) l y.1) x.a }

/-- Chapter 7's schedule of tick 1001: D4 = D3 + 1, P2 = D3 < D5. -/
theorem test_add_of_the_schedule : ((after (withD 0 [(3, 7)] []) (.add (syl 0 .s) { rd := 4, ra := 3, b := .imm 1 })).core 0).D 4 = 8 := by decide +kernel
theorem test_cmplt_of_the_schedule :
    ((after (withD 0 [(3, 7), (5, 16)] []) (.cmplt (syl 0 .s) { dk := false, dst := 2, ra := 3, b := .reg 5 })).core 0).P 2 = true := by decide +kernel
/-- R370, R371: 0x7FFFFF + 1 overflows and does not carry; ADDS stops at 0x7FFFFF; 0 − 1 borrows. -/
theorem test_add_overflows :
    let x := (after (withD 0 [(3, 0x7FFFFF)] []) (.add (syl 0 .s) { rd := 4, ra := 3, b := .imm 1, f := true })).core 0
    x.D 4 = 0x800000 ∧ x.fl.getLsbD 2 = false ∧ x.fl.getLsbD 3 = true := by decide +kernel
theorem test_adds_saturates : ((after (withD 0 [(3, 0x7FFFFF)] []) (.adds (syl 0 .s) { rd := 4, ra := 3, b := .imm 1 })).core 0).D 4 = 0x7FFFFF := by decide +kernel
theorem test_sub_borrows :
    let x := (after (upC []) (.sub (syl 0 .s) { rd := 4, ra := 3, b := .imm 1, f := true })).core 0
    x.D 4 = 0xFFFFFF ∧ x.fl.getLsbD 2 = false := by decide +kernel
/-- R374: SAR by 24 or more gives copies of the sign. -/
theorem test_sar_of_the_width : ((after (withD 0 [(3, 0x800000)] []) (.sar (syl 0 .s) { rd := 4, ra := 3, b := .imm 30 })).core 0).D 4 = 0xFFFFFF := by decide +kernel
/-- Chapter 8's filter loop: REPB 0,37,64 at 0x…0300 sets LE0 to 0x…0678; REPB 1,32,D7 at 0x…0318 sets LE1 to 0x…0618 and LC1 from D7. -/
theorem test_repb_sets_the_loop_end :
    let c := (upCore 3 fun x => { x with pc := 0x100004000300 }).w (R.TILE.PBASE_LO 3) 0x04000000 |>.w (R.TILE.PBASE_LO 3 + 4) 0x1000
    ((after c (.repb (syl 3 .s) { lvl := false, cs := false, lenm1 := 36, count := 64 })).core 3).le = [0x100004000678, 0] := by decide +kernel
/-- Chapter 3: the word 0x12_3456 stored at 0x0010_0280_0001 of tile 5's scratchpad. -/
theorem test_store_of_a_word :
    let c := (withD 5 [(1, 0x123456)] [(2, 0x1002800001)]).w (R.TILE.SPBMAP 5) 0x249249
    let d := after c (.st (syl 5 .m) { md := 0, rt := 1, ab := 2 })
    d.getBytes (.sp 5) 0x1002800000 5 = [0, 0x56, 0x34, 0x12, 0] := by decide +kernel
/-- Chapter 3: the second unlock word by the control core leaves KMAP.POWN at 0; by the physical function, at 0x30. -/
theorem test_unlock_of_kmap :
    let half (w : Who) : Chip := after (upC []) (.pkeyUnlock { who := w, ofs := BitVec.ofNat 24 0xC03C, val := 0x554E4C4B })
    let full (w : Who) : BitVec 32 := (after (half w) (.pkeyUnlock { who := w, ofs := BitVec.ofNat 24 0xC03C, val := 0xAAB1B3B4 })).peek (R.H.POWN 0xC)
    full .cc = 0 ∧ full .pf = 0x30 := by decide +kernel
/-- Chapter 3: TILE05.PID reads 0x1705_0100. -/
theorem test_page_of_tile_5 : (after (upC []) (.readClearRegister (rd 0x105000))).out = [.read .cc 0x105000 0x17050100] := by decide +kernel

/-! ### Numbers that the spec works out -/

/-- R482: −448 is 0xFE in E4M3, and 57,344 is 0x7B in E5M2. -/
theorem test_small_floats : (e4m3.encode (fvd (Dy.ofInt (-448)))).1 = 0xFE ∧ (e5m2.encode (fvd (Dy.ofInt 57344))).1 = 0x7B := by decide +kernel
/-- Chapter 10's example scales: 1/255 rounds to 0x77_4040, and 25,795 × 2^−21 is 0x78_64C3. -/
theorem test_scale_words : toSw24 (Dy.ofInt 1) = 0x7F4000 ∧ toSw24 ⟨25795, -21⟩ = 0x7864C3 ∧ sw24 0x7864C3 = ⟨25795, -21⟩ := by decide +kernel
/-- Chapter 10's block: 3.25, −0.75, 0.5, 1.0, −2.125 and 0.0625 with the exponent 122 of BS8. -/
theorem test_block_of_bs8 :
    rowPack (Dy.ofInt 1) 1 ([⟨13, -2⟩, ⟨-3, -2⟩, ⟨1, -1⟩, ⟨1, 0⟩, ⟨-17, -3⟩, ⟨1, -4⟩, ⟨3, -6⟩].map fvd ++ List.replicate 25 (fvd Dy.zero)) =
      [(122, [0x68, 0xE8, 0x10, 0x20, 0xBC, 0x02, 0x02] ++ List.replicate 25 0)] := by decide +kernel

end Sys2Proof.Tests
end

section
/-!
PROOFS. The frame tick: what the levels and edges of the encoder do; and the two states in which a KSLOT register does not read as a
statement says it does.
-/
namespace Sys2Proof.Machine

/-! ### Commands as effects on the device -/

/-- The device after a command whose effect has left `d`: the watchdogs' counts are brought up to date, and the fuses stay. -/
def Chip.afterCmd (c d : Chip) : Chip := { d.wdtSync with fuse := c.fuse }

namespace Chip

@[simp] theorem afterCmd_tick (c d : Chip) : (c.afterCmd d).tick = d.tick := by
  unfold afterCmd; dsimp only; exact wdtSync_tick d
@[simp] theorem r_afterCmd (c d : Chip) (k : Nat) : (c.afterCmd d).r k = d.r k := by
  unfold afterCmd; rw [r_withFuse, r_wdtSync]
@[simp] theorem rf_afterCmd (c d : Chip) (k hi lo : Nat) : (c.afterCmd d).rf k hi lo = d.rf k hi lo := by rw [rf_eq, rf_eq, r_afterCmd]
@[simp] theorem rb_afterCmd (c d : Chip) (k i : Nat) : (c.afterCmd d).rb k i = d.rb k i := by rw [rb_eq, rb_eq, r_afterCmd]
@[simp] theorem posNow_afterCmd (c d : Chip) : (c.afterCmd d).posNow = d.posNow := by simp only [posNow, r64, r_afterCmd]

/-- A command's end changes nothing but the watchdogs. -/
theorem afterCmd_eq (c d : Chip) : ∃ z, c.afterCmd d = { d with wdt := z, fuse := c.fuse } := by
  have h := d.wdtSync_eq
  unfold afterCmd
  generalize d.wdtSync = e at h
  exact ⟨e.wdt, by rw [h]⟩

end Chip

/-- A command of the always-on domain meets what holds at the end of its effect on the device. -/
theorem runs_of_on {i : Instr} {s : State} {f : Chip → Chip} {post : Chip → Prop} (hi : exec i s = s.on f)
    (h : post (s.chip.afterCmd (f s.chip))) : Runs i s post := ⟨_, hi, rfl, h⟩

theorem coreUp_of_awake {c : Chip} (h : c.awake = true) : c.coreUp = true := (Bool.and_eq_true_iff.mp h).1

theorem deep_of_awake {c : Chip} (h : c.awake = true) : c.pwr.deep = 0 := by
  simpa using (Bool.and_eq_true_iff.mp h).2

/-- A core-domain command, while the core domain runs, is its effect on the device. -/
theorem up_eq_on_of_awake {s : State} (f : Chip → Chip) (h : s.chip.awake = true) : s.up f = s.on f :=
  s.up_eq f (coreUp_of_awake h) (by rw [deep_of_awake h]; decide)

/-- The same of a core-domain command, while the core domain runs. -/
theorem runs_of_up {i : Instr} {s : State} {f : Chip → Chip} {post : Chip → Prop} (hi : exec i s = s.up f) (ha : s.chip.awake = true)
    (h : post (s.chip.afterCmd (f s.chip))) : Runs i s post :=
  runs_of_on (hi.trans (up_eq_on_of_awake f ha)) h

namespace Chip

/-! ### What the tick unit's effects leave alone -/

/-- `d` differs from `c` in nothing but the time, the tick unit, the registers of `own`, and what the reporting of codes writes. -/
structure TickOnly (c d : Chip) (own : List Nat) : Prop where
  rest : d = { c with now := d.now, tick := d.tick, regs := d.regs, bus := { c.bus with once := d.bus.once }, err := d.err, ev := d.ev,
                      trace := d.trace, netEv := d.netEv, msixTab := d.msixTab, out := d.out }
  regs : ∀ key, key ∉ own → reportKey key = false → d.r key = c.r key

namespace TickOnly

theorem refl (c : Chip) (own : List Nat) : TickOnly c c own := ⟨rfl, fun _ _ _ => rfl⟩

theorem trans {c d e : Chip} {own : List Nat} (h : TickOnly c d own) (h' : TickOnly d e own) : TickOnly c e own := by
  refine ⟨?_, fun k ho hk => (h'.regs k ho hk).trans (h.regs k ho hk)⟩
  have a := h'.rest
  have b := h.rest
  rw [a, b]

theorem of_rep {c d : Chip} (own : List Nat) (h : RepOnly c d) : TickOnly c d own := by
  refine ⟨?_, fun k _ hk => h.regs k hk⟩
  have a := h.rest
  rw [a]

theorem modTick (c : Chip) (f : TickUnit → TickUnit) (own : List Nat) : TickOnly c (c.modTick f) own := ⟨rfl, fun _ _ _ => rfl⟩

theorem waitTo (c : Chip) (t : Nat) (own : List Nat) : TickOnly c (c.waitTo t) own := ⟨rfl, fun _ _ _ => rfl⟩

theorem w (c : Chip) {k : Nat} (v : BitVec 32) {own : List Nat} (h : k ∈ own) : TickOnly c (c.w k v) own :=
  ⟨rfl, fun j ho _ => by rw [r_w, if_neg (ne_of_mem_of_not_mem h ho).symm]⟩

/-- The frame of a statement about the tick unit. -/
theorem within {c d : Chip} {own : List Nat} (h : TickOnly c d own) :
    Within c (c.afterCmd d) (keys own) fun d => { d with tick := c.tick } := by
  refine ⟨?_, fun k ho hk => ?_⟩
  · have a := h.rest
    obtain ⟨z, hz⟩ := afterCmd_eq c d
    rw [hz, a]
    rfl
  · rw [r_afterCmd]
    exact h.regs k (fun hm => by simp [keys, hm] at ho) hk

end TickOnly

/-- A change of the tick unit's hidden state alone. -/
theorem only_modTick (c : Chip) (f : TickUnit → TickUnit) :
    Only c (c.afterCmd (c.modTick f)) (keys []) fun d => { d with tick := c.tick } := by
  refine ⟨?_, fun k _ => ?_⟩
  · obtain ⟨z, hz⟩ := afterCmd_eq c (c.modTick f)
    rw [hz]
    rfl
  · rw [r_afterCmd, r_modTick]

end Chip

/-- A toggled bit of the pins' levels. -/
theorem bit_xor_two_pow (v : BitVec 3) (pin i : Fin 3) :
    bit (v ^^^ BitVec.ofNat 3 (2 ^ pin.val)) i.val = if i = pin then !bit v i.val else bit v i.val := by
  revert v pin i; decide

/-- An accepted set of levels reads as it was put together. -/
theorem bit_levels (f : Nat → Bool) (i : Nat) (h : i < 3) :
    bit (BitVec.ofNat 3 ((List.range 3).foldl (fun n i => n + 2 ^ i * b2n (f i)) 0)) i = f i := by
  have key : ∀ (x y z : Bool) (i : Fin 3), bit (BitVec.ofNat 3 (0 + 2 ^ 0 * b2n x + 2 ^ 1 * b2n y + 2 ^ 2 * b2n z)) i.val =
      [x, y, z][i] := by decide
  have e := key (f 0) (f 1) (f 2) ⟨i, h⟩
  refine Eq.trans e ?_
  match i, h with
  | 0, _ | 1, _ | 2, _ => rfl

namespace Chip

/-! ### The position -/

theorem wrapN_lt (n : Nat) (x : Int) : wrapN n x < 2 ^ n := by
  unfold wrapN
  have h : (0 : Int) < (2 ^ n : Nat) := Int.natCast_pos.2 (Nat.two_pow_pos n)
  have := Int.emod_lt_of_pos x h
  have := Int.emod_nonneg x (Int.ne_of_gt h)
  omega

/-- A position in range is read back as it was written. -/
theorem sInt_wrapN_48 (x : Int) (h : -(2 : Int) ^ 47 ≤ x) (h' : x < 2 ^ 47) : sInt 48 (wrapN 48 x) = x := by
  unfold sInt wrapN
  split <;> omega

/-- A 64-bit register reads what was written to it. -/
theorem r64_w64 (c : Chip) (lo v : Nat) (h : v < 2 ^ 64) : (c.w64 lo v).r64 lo = v := by
  unfold w64 r64
  rw [r_w, r_w, r_w, if_neg (by omega), if_pos rfl, if_pos rfl]
  simp only [BitVec.toNat_ofNat]
  omega

theorem posNow_setPos (c : Chip) (x : Int) (h : -(2 : Int) ^ 47 ≤ x) (h' : x < 2 ^ 47) : (c.setPos x).posNow = x := by
  unfold posNow setPos
  rw [r64_w64 _ _ _ (Nat.lt_trans (wrapN_lt 48 x) (by decide)), sInt_wrapN_48 x h h']

theorem posNow_of_r {c d : Chip} (h : d.r R.TICK.POS_LO = c.r R.TICK.POS_LO) (h' : d.r (R.TICK.POS_LO + 4) = c.r (R.TICK.POS_LO + 4)) :
    d.posNow = c.posNow := by unfold posNow r64; rw [h, h']

/-- A counter field after it has counted. -/
theorem rf_cnt (c : Chip) (k hi lo d : Nat) (h : lo ≤ hi) (h' : hi < 32) :
    (c.cnt k hi lo d).rf k hi lo = min (2 ^ (hi + 1 - lo) - 1) (c.rf k hi lo + d) := by
  unfold cnt satAdd
  rw [rf_eq, r_wf, if_pos rfl, fld_setFld _ _ _ _ h h', Nat.mod_eq_of_lt]
  have : 0 < 2 ^ (hi + 1 - lo) := Nat.two_pow_pos _
  omega

/-! ### A count -/

theorem RepOnly.tick_eq {c d : Chip} (h : RepOnly c d) : d.tick = c.tick := by rw [h.rest]

/-- A count's reversal (R43): where it began, and event 0x0108 once it is longer than a pitch. -/
def reversal (c : Chip) (enc fwd : Bool) (was pos : Int) : Chip :=
  if fwd then c.modTick fun t => { t with revPeak := none, revDone := false }
  else
    let peak := c.tick.revPeak.getD was
    let c := c.modTick fun t => { t with revPeak := some peak }
    if enc && !c.tick.revDone && decide (c.pitch < (peak - pos) * 65536) then
      (c.event tickSlot 0x0108).modTick fun t => { t with revDone := true }
    else c

/-- A count's line tick (R42): it falls due when the position passes the next pitch multiple. -/
def passPitch (c : Chip) (enc : Bool) (pos : Int) (due : Nat) : Chip :=
  if !enc || c.tstate = 0 then c
  else
    let c := c.modTick fun t => { t with hwm := max t.hwm (pos * 65536) }
    if c.tick.origin + c.tick.nextIx * c.pitch ≤ pos * 65536 then
      c.modTick fun t => { t with nextIx := t.nextIx + 1, lineDue := t.lineDue ++ [due] }
    else c

/-- The position after a count. -/
def countedPos (c : Chip) (fwd : Bool) : Int := if fwd then c.posNow + 1 else c.posNow - 1

/-- A count's position and direction (R41). -/
def counted (c : Chip) (fwd : Bool) : Chip := (c.setPos (c.countedPos fwd)).wb R.TICK.TSTAT 2 fwd

/-- A count in its three parts: the position and direction, the reversal, and the line tick. -/
theorem countPos_eq (c : Chip) (fwd : Bool) (due : Nat) :
    c.countPos fwd due =
      ((c.counted fwd).reversal ((c.counted fwd).src == 1) fwd c.posNow (c.countedPos fwd)).passPitch ((c.counted fwd).src == 1)
        (c.countedPos fwd) due := rfl

theorem reversal_tick (c : Chip) (enc fwd : Bool) (was pos : Int) :
    ∃ p q, (c.reversal enc fwd was pos).tick = { c.tick with revPeak := p, revDone := q } := by
  unfold reversal
  split
  · exact ⟨_, _, rfl⟩
  · dsimp only
    split
    · rw [modTick_tick, (repOnly_event _ _ _).tick_eq]
      exact ⟨_, _, rfl⟩
    · exact ⟨_, _, rfl⟩

theorem tickOnly_reversal (c : Chip) (enc fwd : Bool) (was pos : Int) (own : List Nat) :
    TickOnly c (c.reversal enc fwd was pos) own := by
  unfold reversal
  split
  · exact .modTick _ _ _
  · dsimp only
    split
    · exact ((TickOnly.modTick _ _ _).trans (.of_rep _ (repOnly_event _ _ _))).trans (.modTick _ _ _)
    · exact .modTick _ _ _

theorem tickOnly_passPitch (c : Chip) (enc : Bool) (pos : Int) (due : Nat) (own : List Nat) :
    TickOnly c (c.passPitch enc pos due) own := by
  unfold passPitch
  split
  · exact .refl _ _
  · dsimp only
    split
    · exact (TickOnly.modTick _ _ _).trans (.modTick _ _ _)
    · exact .modTick _ _ _

theorem passPitch_acc (c : Chip) (enc : Bool) (pos : Int) (due : Nat) : (c.passPitch enc pos due).tick.acc = c.tick.acc := by
  unfold passPitch
  split
  · rfl
  · dsimp only
    split <;> rfl

theorem passPitch_lineDue (c : Chip) (enc : Bool) (pos : Int) (due : Nat) :
    (c.passPitch enc pos due).tick.lineDue =
      if enc = true ∧ c.tstate ≠ 0 ∧ c.tick.origin + c.tick.nextIx * c.pitch ≤ pos * 65536 then c.tick.lineDue ++ [due]
      else c.tick.lineDue := by
  unfold passPitch
  by_cases hgo : enc = true ∧ c.tstate ≠ 0
  · have hon : ¬(!enc || decide (c.tstate = 0)) = true := by rw [hgo.1, decide_eq_false hgo.2]; decide
    rw [if_neg hon]
    by_cases hpass : c.tick.origin + c.tick.nextIx * c.pitch ≤ pos * 65536
    · have hall : enc = true ∧ c.tstate ≠ 0 ∧ c.tick.origin + c.tick.nextIx * c.pitch ≤ pos * 65536 := ⟨hgo.1, hgo.2, hpass⟩
      rw [if_pos hall]
      exact congrArg (fun d : Chip => d.tick.lineDue) (if_pos hpass)
    · have hnot : ¬(enc = true ∧ c.tstate ≠ 0 ∧ c.tick.origin + c.tick.nextIx * c.pitch ≤ pos * 65536) := fun h => hpass h.2.2
      rw [if_neg hnot]
      exact (congrArg (fun d : Chip => d.tick.lineDue) (if_neg hpass)).trans rfl
  · have hstop : (!enc || decide (c.tstate = 0)) = true := by
      cases enc with
      | false => rfl
      | true => exact decide_eq_true (Classical.not_not.1 fun hrun => hgo ⟨rfl, hrun⟩)
    rw [if_pos hstop, if_neg (fun h => hgo ⟨h.1, h.2.1⟩)]

/-- The registers that a count moves. -/
abbrev countKeys : List Nat := [R.TICK.POS_LO, R.TICK.POS_LO + 4, R.TICK.TSTAT]

theorem tickOnly_counted (c : Chip) (fwd : Bool) : TickOnly c (c.counted fwd) countKeys :=
  ((TickOnly.w _ _ (by simp)).trans (.w _ _ (by simp))).trans (.w _ _ (by simp))

theorem counted_tstat (c : Chip) (fwd : Bool) : (c.counted fwd).r R.TICK.TSTAT = setBit (c.r R.TICK.TSTAT) 2 fwd := by
  have hpos : (c.setPos (c.countedPos fwd)).r R.TICK.TSTAT = c.r R.TICK.TSTAT := by
    unfold setPos w64
    rw [r_w, r_w, if_neg (by decide), if_neg (by decide)]
  rw [counted, r_wb, if_pos rfl, hpos]

theorem counted_posNow (c : Chip) (fwd : Bool) (hlo : -(2 : Int) ^ 47 < c.posNow) (hhi : c.posNow < 2 ^ 47 - 1) :
    (c.counted fwd).posNow = c.countedPos fwd := by
  have hrange : -(2 : Int) ^ 47 ≤ c.countedPos fwd ∧ c.countedPos fwd < 2 ^ 47 := by unfold countedPos; split <;> omega
  rw [← posNow_setPos c _ hrange.1 hrange.2]
  exact posNow_of_r (by rw [counted, r_wb, if_neg (by decide)]) (by rw [counted, r_wb, if_neg (by decide)])

theorem tickOnly_countPos (c : Chip) (fwd : Bool) (due : Nat) : TickOnly c (c.countPos fwd due) countKeys := by
  rw [countPos_eq]
  exact ((tickOnly_counted _ _).trans (tickOnly_reversal _ _ _ _ _ _)).trans (tickOnly_passPitch _ _ _ _ _)

/-- What a count does to the position, the direction and the line ticks that are due (R41, R42). -/
theorem countPos_effect (c : Chip) (fwd : Bool) (due : Nat) (hlo : -(2 : Int) ^ 47 < c.posNow) (hhi : c.posNow < 2 ^ 47 - 1) :
    let d := c.countPos fwd due
    d.posNow = c.posNow + (if fwd then 1 else -1) ∧ d.rb R.TICK.TSTAT 2 = fwd ∧ d.tick.acc = c.tick.acc ∧
      d.tick.lineDue = if c.src = 1 ∧ c.tstate ≠ 0 ∧ c.tick.origin + c.tick.nextIx * c.pitch ≤ d.posNow * 65536
        then c.tick.lineDue ++ [due] else c.tick.lineDue := by
  have hcounted := c.tickOnly_counted fwd
  have hrev := tickOnly_reversal (c.counted fwd) ((c.counted fwd).src == 1) fwd c.posNow (c.countedPos fwd) []
  have hpass := hrev.trans (tickOnly_passPitch _ ((c.counted fwd).src == 1) (c.countedPos fwd) due _)
  obtain ⟨p, q, hq⟩ := reversal_tick (c.counted fwd) ((c.counted fwd).src == 1) fwd c.posNow (c.countedPos fwd)
  have hsrc : (c.counted fwd).src = c.src := by unfold src; rw [rf_eq, rf_eq, hcounted.regs _ (by decide) (by decide)]
  rw [countPos_eq]
  generalize (c.counted fwd).reversal ((c.counted fwd).src == 1) fwd c.posNow (c.countedPos fwd) = g at hrev hpass hq
  have hgt : g.tick = { c.tick with revPeak := p, revDone := q } := hq
  have hts : g.tstate = c.tstate := by
    unfold tstate
    rw [rf_eq, rf_eq, hrev.regs _ (by simp) (by decide), counted_tstat, fld_setBit_ne _ _ _ _ _ (by decide) (by decide) (by decide)]
  have hpitch : g.pitch = c.pitch := by
    unfold pitch
    rw [hrev.regs _ (by simp) (by decide), hcounted.regs _ (by decide) (by decide)]
  have hpos : (g.passPitch ((c.counted fwd).src == 1) (c.countedPos fwd) due).posNow = c.countedPos fwd :=
    (posNow_of_r (hpass.regs _ (by simp) (by decide)) (hpass.regs _ (by simp) (by decide))).trans (c.counted_posNow fwd hlo hhi)
  refine ⟨hpos.trans ?_, ?_, ?_, ?_⟩
  · unfold countedPos
    split <;> rfl
  · rw [rb_eq, hpass.regs _ (by simp) (by decide), counted_tstat, bit_setBit _ _ _ _ (by decide), if_pos rfl]
  · rw [passPitch_acc, hgt]
  · rw [hpos, passPitch_lineDue, hsrc, hts, hpitch, hgt]
    simp

/-! ### Accepted levels -/

/-- A pin is among those accepted: it is named, and its level differs from the accepted one. -/
def encMoved (c : Chip) (pins : BitVec 3) (i : Nat) : Bool := bit pins i && (bit c.tick.raw i != bit c.tick.acc i)

/-- The level of a pin once the named pins are accepted. -/
def encLevel (c : Chip) (pins : BitVec 3) (i : Nat) : Bool := if c.encMoved pins i then bit c.tick.raw i else bit c.tick.acc i

/-- The accepted levels once the named pins are accepted. -/
def encAcc (c : Chip) (pins : BitVec 3) : BitVec 3 :=
  BitVec.ofNat 3 ((List.range 3).foldl (fun n i => n + 2 ^ i * b2n (c.encLevel pins i)) 0)

theorem bit_encAcc (c : Chip) (pins : BitVec 3) (i : Nat) (h : i < 3) : bit (c.encAcc pins) i = c.encLevel pins i :=
  bit_levels (c.encLevel pins) i h

/-- The moment since which the accepted pins have held their levels. -/
def encSince (c : Chip) (pins : BitVec 3) : Nat :=
  ((List.range 3).filter (c.encMoved pins)).foldl (fun n i => max n (nth 0 c.tick.since i)) 0

/-- The device when levels have been accepted, before their edges count (R38). -/
def encTaken (c : Chip) (pins : BitVec 3) : Chip :=
  (c.modTick fun t => { t with acc := c.encAcc pins }).waitTo (c.encSince pins + cyc (2 + 8 * c.rf R.TICK.TCFG 10 6))

theorem tickOnly_encTaken (c : Chip) (pins : BitVec 3) (own : List Nat) : TickOnly c (c.encTaken pins) own :=
  (TickOnly.modTick _ _ _).trans (.waitTo _ _ _)

/-- An edge of A or of B counts under the decoding that TCFG selects (R40). -/
def encCounts (c : Chip) (pins : BitVec 3) : Bool :=
  match c.rf R.TICK.TCFG 3 2 with
  | 0 => c.encMoved pins 0 && !bit (c.encAcc pins) 1
  | 1 => c.encMoved pins 0
  | _ => true

/-- The direction of an edge of A or of B (R40). -/
def encFwd (c : Chip) (pins : BitVec 3) : Bool :=
  (if c.encMoved pins 0 then bit (c.encAcc pins) 0 != bit (c.encAcc pins) 1 else bit (c.encAcc pins) 0 == bit (c.encAcc pins) 1) != c.rb R.TICK.TCFG 4

/-- What the accepted edges of A and B do (R40, R41); a standby counts into SPOS instead (R778). -/
def encQuad (c : Chip) (pins : BitVec 3) (standby : Bool) : Chip :=
  let d := c.encTaken pins
  if c.encMoved pins 0 ∧ c.encMoved pins 1 then
    let e := d.cnt R.TICK.QERR 15 0 1
    if e.src = 1 then e.eventOnce tickSlot 0x0106 0 else e
  else if c.encMoved pins 0 ∨ c.encMoved pins 1 then
    if !c.encCounts pins then d
    else if standby then d.setSpos (if c.encFwd pins then d.sposNow + 1 else d.sposNow - 1)
    else d.countPos (c.encFwd pins) (c.encSince pins + cyc (6 + 8 * c.rf R.TICK.TCFG 10 6))
  else d

/-- Levels are accepted on a device that follows its own encoder. -/
theorem encAccept_eq (c : Chip) (pins : BitVec 3) (ha : c.awake = true) (hsrc : c.src ≠ 2)
    (hsome : ∃ i, i < 3 ∧ c.encMoved pins i = true) :
    c.encAccept pins =
      if c.encMoved pins 2 && bit (c.encAcc pins) 2 then (c.encQuad pins false).indexPulse else c.encQuad pins false := by
  have hstandby : (c.src == 2 && c.arole == 3) = false := by simp [hsrc]
  have hgate : ¬(((List.range 3).filter (c.encMoved pins)).isEmpty || !c.coreUp) = true := by
    obtain ⟨i, hi, hm⟩ := hsome
    have : ((List.range 3).filter (c.encMoved pins)) ≠ [] := fun hn => List.filter_eq_nil_iff.1 hn i (List.mem_range.2 hi) hm
    simp [this, coreUp_of_awake ha]
  have hgo : ¬(c.pwr.deep ≠ 0 ∨ c.src = 2 ∧ ¬(c.src == 2 && c.arole == 3) = true) := by simp [deep_of_awake ha, hsrc]
  have e : c.encAccept pins =
      if c.encMoved pins 2 && bit (c.encAcc pins) 2 && !(c.src == 2 && c.arole == 3) then
        (c.encQuad pins (c.src == 2 && c.arole == 3)).indexPulse
      else c.encQuad pins (c.src == 2 && c.arole == 3) := (if_neg hgate).trans (if_neg hgo)
  rw [e, hstandby, Bool.not_false, Bool.and_true]

/-- An edge of A alone or of B alone, under 4x decoding, is a count. -/
theorem encQuad_count (c : Chip) (pins : BitVec 3) (hx4 : c.rf R.TICK.TCFG 3 2 = 2)
    (hone : c.encMoved pins 0 = true ∧ c.encMoved pins 1 = false ∨ c.encMoved pins 0 = false ∧ c.encMoved pins 1 = true) :
    c.encQuad pins false =
      (c.encTaken pins).countPos (c.encFwd pins) (c.encSince pins + cyc (6 + 8 * c.rf R.TICK.TCFG 10 6)) := by
  have hcounts : c.encCounts pins = true := by unfold encCounts; rw [hx4]; rfl
  unfold encQuad
  rcases hone with ⟨h0, h1⟩ | ⟨h0, h1⟩ <;> simp [h0, h1, hcounts]

/-- Edges of A and B at once are a quadrature error: it is counted, and no position moves. -/
theorem encQuad_error (c : Chip) (pins : BitVec 3) (h0 : c.encMoved pins 0 = true) (h1 : c.encMoved pins 1 = true) :
    RepOnly ((c.encTaken pins).cnt R.TICK.QERR 15 0 1) (c.encQuad pins false) := by
  unfold encQuad
  rw [if_pos ⟨h0, h1⟩]
  exact repOnly_ite (repOnly_eventOnce _ _ _ _) (.refl _)

theorem encQuad_none (c : Chip) (pins : BitVec 3) (h0 : c.encMoved pins 0 = false) (h1 : c.encMoved pins 1 = false) :
    c.encQuad pins false = c.encTaken pins := by
  unfold encQuad
  simp [h0, h1]

theorem encSince_one (c : Chip) (pins : BitVec 3) (hz : c.encMoved pins 2 = false)
    (hone : c.encMoved pins 0 = true ∧ c.encMoved pins 1 = false ∨ c.encMoved pins 0 = false ∧ c.encMoved pins 1 = true) :
    c.encSince pins = if c.encMoved pins 0 then nth 0 c.tick.since 0 else nth 0 c.tick.since 1 := by
  unfold encSince
  rw [show List.range 3 = [0, 1, 2] from rfl]
  rcases hone with ⟨h0, h1⟩ | ⟨h0, h1⟩ <;> simp [List.filter, h0, h1, hz]

/-! ### The index pulse -/

theorem tickOnly_cnt (c : Chip) {k hi lo d : Nat} {own : List Nat} (h : k ∈ own) : TickOnly c (c.cnt k hi lo d) own := .w _ _ h

/-- A field that the reporting of codes cannot write. -/
theorem RepOnly.rf_eq {c d : Chip} (h : RepOnly c d) (k hi lo : Nat) (hk : reportKey k = false) : d.rf k hi lo = c.rf k hi lo := by
  rw [Chip.rf_eq, Chip.rf_eq, h.regs k hk]

/-- An index pulse whose distance from the last one is off by more than the tolerance is counted (R45). -/
theorem indexPulse_effect (c : Chip) (hen : c.rb R.TICK.TCFG 5 = true) :
    let d := c.indexPulse
    d.tick.zPos = some c.posNow ∧ TickOnly c d [R.TICK.QERR] ∧
      ∀ z, c.tick.zPos = some z → d.rf R.TICK.QERR 31 16 =
        if (c.rf R.TICK.ZCPR 31 24 : Int) < (((c.posNow - z).natAbs : Int) - c.rf R.TICK.ZCPR 23 0).natAbs
        then min 65535 (c.rf R.TICK.QERR 31 16 + 1) else c.rf R.TICK.QERR 31 16 := by
  unfold indexPulse
  rw [hen]
  cases hz : c.tick.zPos with
  | none =>
    simp only [Bool.not_true, Bool.false_eq_true, if_false]
    exact ⟨rfl, .modTick _ _ _, fun z h => nomatch h⟩
  | some z =>
    by_cases hoff : (c.rf R.TICK.ZCPR 31 24 : Int) < (((c.posNow - z).natAbs : Int) - c.rf R.TICK.ZCPR 23 0).natAbs
    · have hrep : RepOnly (c.cnt R.TICK.QERR 31 16 1)
          (if (c.cnt R.TICK.QERR 31 16 1).src = 1 then (c.cnt R.TICK.QERR 31 16 1).event tickSlot 0x0107 else c.cnt R.TICK.QERR 31 16 1) :=
        repOnly_ite (repOnly_event _ _ _) (.refl _)
      simp only [Bool.not_true, Bool.false_eq_true, if_false, hoff, if_true]
      refine ⟨rfl, ((tickOnly_cnt c (by simp)).trans (.of_rep _ hrep)).trans (.modTick _ _ _), fun _ h => ?_⟩
      obtain rfl := Option.some.inj h
      rw [if_pos hoff]
      exact (hrep.rf_eq _ 31 16 (by decide)).trans (rf_cnt c _ _ _ _ (by decide) (by decide))
    · simp only [Bool.not_true, Bool.false_eq_true, if_false, hoff]
      refine ⟨rfl, .modTick _ _ _, fun _ h => ?_⟩
      obtain rfl := Option.some.inj h
      rw [if_neg hoff]
      rfl

end Chip

/-! ### The encoder's commands -/

/-- ENCODER_LEVEL_CHANGE: a pin's new level is noted with its time. -/
theorem runs_encoderLevelChange (s : State) (pin : Fin 3) (level : Bool) (h : bit s.chip.tick.raw pin.val ≠ level) :
    Runs (.encoderLevelChange pin level) s fun d =>
      (∀ i : Fin 3, bit d.tick.raw i.val = if i = pin then level else bit s.chip.tick.raw i.val) ∧
      d.tick = { s.chip.tick with raw := d.tick.raw, since := s.chip.tick.since.set pin.val s.chip.now } ∧
      Only s.chip d (keys []) fun d => { d with tick := s.chip.tick } := by
  refine runs_of_on (f := fun c => if bit c.tick.raw pin.val = level then c
    else c.modTick fun t => { t with raw := t.raw ^^^ BitVec.ofNat 3 (2 ^ pin.val), since := t.since.set pin.val c.now }) rfl ?_
  rw [if_neg h, Chip.afterCmd_tick, Chip.modTick_tick]
  refine ⟨fun i => ?_, rfl, Chip.only_modTick _ _⟩
  rw [bit_xor_two_pow]
  split
  · next hi => rw [hi]; revert h; cases bit s.chip.tick.raw pin.val <;> cases level <;> simp
  · rfl

/-- ENCODER_FILTER_ACCEPT as the effect that its levels have, on a device that follows its own encoder. -/
theorem runs_encoderFilterAccept {s : State} {pins : BitVec 3} {post : Chip → Prop} (ha : s.chip.awake = true) (hsrc : s.chip.src ≠ 2)
    (hsome : ∃ i, i < 3 ∧ s.chip.encMoved pins i = true)
    (h : post (s.chip.afterCmd (if s.chip.encMoved pins 2 && bit (s.chip.encAcc pins) 2 then (s.chip.encQuad pins false).indexPulse
      else s.chip.encQuad pins false))) : Runs (.encoderFilterAccept pins) s post :=
  runs_of_up (f := fun c => c.encAccept pins) rfl ha (by rwa [Chip.encAccept_eq _ _ ha hsrc hsome])

/-- An edge of A alone or of B alone moves the position by one. -/
theorem runs_encoderFilterAccept_count {s : State} {pins : BitVec 3} (ha : s.chip.awake = true) (hsrc : s.chip.src ≠ 2)
    (hx4 : s.chip.rf R.TICK.TCFG 3 2 = 2) (hz : s.chip.encMoved pins 2 = false)
    (hone : s.chip.encMoved pins 0 = true ∧ s.chip.encMoved pins 1 = false ∨ s.chip.encMoved pins 0 = false ∧ s.chip.encMoved pins 1 = true)
    (hlo : -(2 : Int) ^ 47 < s.chip.posNow) (hhi : s.chip.posNow < 2 ^ 47 - 1) :
    Runs (.encoderFilterAccept pins) s fun d =>
      d.posNow = s.chip.posNow + (if s.chip.encFwd pins then 1 else -1) ∧ d.rb R.TICK.TSTAT 2 = s.chip.encFwd pins ∧
      bit d.tick.acc 0 = s.chip.encLevel pins 0 ∧ bit d.tick.acc 1 = s.chip.encLevel pins 1 ∧
      (d.tick.lineDue = if s.chip.src = 1 ∧ s.chip.tstate ≠ 0 ∧ s.chip.tick.origin + s.chip.tick.nextIx * s.chip.pitch ≤ d.posNow * 65536
        then s.chip.tick.lineDue ++ [s.chip.encSince pins + cyc (6 + 8 * s.chip.rf R.TICK.TCFG 10 6)] else s.chip.tick.lineDue) ∧
      Within s.chip d (keys Chip.countKeys) fun d => { d with tick := s.chip.tick } := by
  have hsome : ∃ i, i < 3 ∧ s.chip.encMoved pins i = true :=
    hone.elim (fun h => ⟨0, by decide, h.1⟩) (fun h => ⟨1, by decide, h.2⟩)
  refine runs_encoderFilterAccept ha hsrc hsome ?_
  rw [hz, Bool.false_and, if_neg Bool.false_ne_true, Chip.encQuad_count _ _ hx4 hone]
  have hkeep := (s.chip.tickOnly_encTaken pins Chip.countKeys).trans
    (Chip.tickOnly_countPos _ (s.chip.encFwd pins) (s.chip.encSince pins + cyc (6 + 8 * s.chip.rf R.TICK.TCFG 10 6)))
  obtain ⟨hpos, hdir, hacc, hline⟩ := (s.chip.encTaken pins).countPos_effect (s.chip.encFwd pins)
    (s.chip.encSince pins + cyc (6 + 8 * s.chip.rf R.TICK.TCFG 10 6)) hlo hhi
  refine ⟨(Chip.posNow_afterCmd _ _).trans hpos, (Chip.rb_afterCmd _ _ _ _).trans hdir, ?_, ?_, ?_, hkeep.within⟩
  · rw [Chip.afterCmd_tick, hacc]; exact s.chip.bit_encAcc pins 0 (by decide)
  · rw [Chip.afterCmd_tick, hacc]; exact s.chip.bit_encAcc pins 1 (by decide)
  · rw [Chip.afterCmd_tick, Chip.posNow_afterCmd]; exact hline

/-- Edges of A and B at once are counted as an error and move no position. -/
theorem runs_encoderFilterAccept_error {s : State} {pins : BitVec 3} (ha : s.chip.awake = true) (hsrc : s.chip.src ≠ 2)
    (h0 : s.chip.encMoved pins 0 = true) (h1 : s.chip.encMoved pins 1 = true) (hz : s.chip.encMoved pins 2 = false) :
    Runs (.encoderFilterAccept pins) s fun d =>
      d.rf R.TICK.QERR 15 0 = min 65535 (s.chip.rf R.TICK.QERR 15 0 + 1) ∧ d.posNow = s.chip.posNow ∧
      Within s.chip d (keys [R.TICK.QERR]) fun d => { d with tick := s.chip.tick } := by
  refine runs_encoderFilterAccept ha hsrc ⟨0, by decide, h0⟩ ?_
  rw [hz, Bool.false_and, if_neg Bool.false_ne_true]
  have hrep := s.chip.encQuad_error pins h0 h1
  have hkeep : Chip.TickOnly s.chip (s.chip.encQuad pins false) [R.TICK.QERR] :=
    ((Chip.tickOnly_encTaken _ _ _).trans (Chip.tickOnly_cnt _ (by simp))).trans (.of_rep _ hrep)
  refine ⟨?_, ?_, hkeep.within⟩
  · rw [Chip.rf_afterCmd, hrep.rf_eq _ _ _ (by decide)]
    exact Chip.rf_cnt (s.chip.encTaken pins) _ _ _ _ (by decide) (by decide)
  · rw [Chip.posNow_afterCmd]
    exact Chip.posNow_of_r (hkeep.regs _ (by decide) (by decide)) (hkeep.regs _ (by decide) (by decide))

/-- A rising edge of Z alone is checked against the counts of a revolution. -/
theorem runs_encoderFilterAccept_index {s : State} {pins : BitVec 3} (ha : s.chip.awake = true) (hsrc : s.chip.src ≠ 2)
    (h0 : s.chip.encMoved pins 0 = false) (h1 : s.chip.encMoved pins 1 = false) (hz : s.chip.encMoved pins 2 = true)
    (hrise : bit s.chip.tick.raw 2 = true) (hen : s.chip.rb R.TICK.TCFG 5 = true) :
    Runs (.encoderFilterAccept pins) s fun d => d.tick.zPos = some s.chip.posNow ∧ d.posNow = s.chip.posNow ∧
      (∀ z, s.chip.tick.zPos = some z → d.rf R.TICK.QERR 31 16 =
        if (s.chip.rf R.TICK.ZCPR 31 24 : Int) < (((s.chip.posNow - z).natAbs : Int) - s.chip.rf R.TICK.ZCPR 23 0).natAbs
        then min 65535 (s.chip.rf R.TICK.QERR 31 16 + 1) else s.chip.rf R.TICK.QERR 31 16) ∧
      Within s.chip d (keys [R.TICK.QERR]) fun d => { d with tick := s.chip.tick } := by
  refine runs_encoderFilterAccept ha hsrc ⟨2, by decide, hz⟩ ?_
  have hlevel : bit (s.chip.encAcc pins) 2 = true := by
    rw [s.chip.bit_encAcc pins 2 (by decide), Chip.encLevel, if_pos hz, hrise]
  rw [hz, hlevel, Bool.and_self, if_pos rfl, Chip.encQuad_none _ _ h0 h1]
  obtain ⟨hzpos, honly, hqerr⟩ := (s.chip.encTaken pins).indexPulse_effect hen
  have hkeep := (s.chip.tickOnly_encTaken pins _).trans honly
  refine ⟨(congrArg _ (Chip.afterCmd_tick _ _)).trans hzpos, ?_, fun z h => ?_, hkeep.within⟩
  · rw [Chip.posNow_afterCmd]
    exact Chip.posNow_of_r (hkeep.regs _ (by decide) (by decide)) (hkeep.regs _ (by decide) (by decide))
  · rw [Chip.rf_afterCmd]
    exact hqerr z h

/-- Settles O36: a command of the encoder is its effect on the levels, the count, the error or the index pulse. -/
theorem encoderEdgesMoveThePosition : Obligations.EncoderEdgesMoveThePosition := by
  unfold Obligations.EncoderEdgesMoveThePosition
  intro s pin level pins
  refine ⟨fun h _ => runs_encoderLevelChange s pin level h, fun ha hsrc => ⟨fun fwd hx4 hz hone hfwd hlo hhi => ?_, ?_, ?_⟩⟩
  · have hdir : s.chip.encFwd pins = fwd := by
      rw [hfwd, Chip.encFwd, s.chip.bit_encAcc pins 0 (by decide), s.chip.bit_encAcc pins 1 (by decide)]
      rfl
    have hrun := runs_encoderFilterAccept_count ha hsrc hx4 hz hone hlo hhi
    rw [hdir, Chip.encSince_one _ _ hz hone] at hrun
    exact hrun
  · exact fun h0 h1 hz => runs_encoderFilterAccept_error ha hsrc h0 h1 hz
  · exact fun h0 h1 hz hrise hen => runs_encoderFilterAccept_index ha hsrc h0 h1 hz hrise hen

/-! ### A kennel fault at an edge, and a register's unused bits -/

/-- When nothing waits, nothing is tried again. -/
theorem Chip.settle_of_noneWaits {c : Chip} (h : c.noneWaits = true) : c.settle = c := by
  obtain ⟨hcores, hcust⟩ := Bool.and_eq_true_iff.mp h
  refine settle_quiet (fun j hj => ?_) (fun t ht => ?_)
  · simpa using List.all_eq_true.1 hcores j (List.mem_range.2 hj)
  · simpa using List.all_eq_true.1 hcust t (List.mem_range.2 ht)

/-- What holds after a command that runs holds at the end of its effect on the device. -/
theorem Runs.post_of_on {i : Instr} {s : State} {f : Chip → Chip} {post : Chip → Prop} (h : Runs i s post) (hi : exec i s = s.on f) :
    post (s.chip.afterCmd (f s.chip)) := by
  obtain ⟨t, ht, -, hp⟩ := h
  rw [hi, State.on_eq] at ht
  obtain rfl := Host.Outcome.next.inj ht
  exact hp

theorem Runs.post_of_up {i : Instr} {s : State} {f : Chip → Chip} {post : Chip → Prop} (h : Runs i s post) (hi : exec i s = s.up f)
    (ha : s.chip.awake = true) : post (s.chip.afterCmd (f s.chip)) := h.post_of_on (hi.trans (up_eq_on_of_awake f ha))

/-- A device whose pending edge ends a tick in which K0 was released: no tile has set its bit of TDONE, and KSLOT0 has MODE = LOCKED and
POL = FAULT, as written and in force. -/
def overrunState : State :=
  { chip := { coreUp := true, regs := [(R.TICK.KSLOT 0, 0x4B005)]
              tick := { edgeAt := some 0, pend := [(0, 1)], released := [0], kslot := List.replicate 8 0x4B005 } } }

/-- The edge's overrun check takes kennel fault 0x0102, which sets the register's MODE to OFF (R69). -/
theorem kslot_of_overrun : (overrunState.chip.edgeDue.r (R.TICK.KSLOT 0)) = 0x4B004 := by decide +kernel

/-- Refutes O37: KSLOT does not keep its value over the edge at which its kennel overruns with POL = FAULT, because kennel fault 0x0102 sets
its MODE to OFF (R67, R69). -/
theorem not_lineTicksOpenFramesAndEdgesBeginTicks : ¬ Obligations.LineTicksOpenFramesAndEdgesBeginTicks := by
  unfold Obligations.LineTicksOpenFramesAndEdgesBeginTicks
  intro h
  obtain ⟨-, hedge, -⟩ := h overrunState 0
  have hcalm : overrunState.chip.calm = true := by decide +kernel
  have hrun := hedge 0 1 [] hcalm rfl (by decide)
  obtain ⟨-, -, -, -, -, -, -, -, hslot, -⟩ :=
    hrun.post_of_up (f := fun c => c.edgeDue.settle) rfl (Bool.and_eq_true_iff.mp hcalm).1
  obtain ⟨-, hkept⟩ := hslot 0 (by decide)
  rw [Chip.r_afterCmd, Chip.settle_of_noneWaits (by decide +kernel), kslot_of_overrun] at hkept
  exact absurd hkept (by decide +kernel)

/-- A device with a 1 in bit 3 of KSLOT0, which is a bit of no field. -/
def strayBitState : State := { chip := { coreUp := true, pwr := { porDone := true }, regs := [(R.TICK.KSLOT 0, 0x8)] } }

/-- The control core's write of a legal value to KSLOT0: MODE = LOCKED, START = 1,200. -/
def kslotLocked : RegWr := { who := .cc, ofs := 0xB0A0, val := 0x4B001 }

/-- The write sets the register's fields and leaves the bit of no field (R16). -/
theorem kslot_of_strayBit : (strayBitState.chip.regWriteOut .cc 0xB0A0 0x4B001).r (R.TICK.KSLOT 0) = 0x4B009 := by decide +kernel

/-- Refutes O38: a write that carries 0 in a register's bits of no field leaves those bits as they are (R16), so where a 1 stands in one of
them KSLOT does not come to hold the value's fields alone. -/
theorem not_flushesAndHoldsAndTickRegistersTakeEffect : ¬ Obligations.FlushesAndHoldsAndTickRegistersTakeEffect := by
  unfold Obligations.FlushesAndHoldsAndTickRegistersTakeEffect
  intro h
  obtain ⟨-, -, -, -, hwrite⟩ := h strayBitState kslotLocked
  obtain ⟨-, -, -, hkslot, -⟩ := hwrite (by decide +kernel)
  have hrun := hkslot 0 (by decide) rfl (by decide) (by decide)
  obtain ⟨hval, -⟩ := hrun.post_of_on (f := fun c => c.regWriteOut .cc 0xB0A0 0x4B001) rfl
  rw [Chip.r_afterCmd, kslot_of_strayBit] at hval
  exact absurd hval (by decide)

end Sys2Proof.Machine
end

section
/-!
PROOFS. The kennel map: the state in which a legal commit takes a disabled tile from its kennel while a job of the tile is in flight.
-/
namespace Sys2Proof.Machine

namespace Chip

@[simp] theorem mem_afterCmd (c d : Chip) : (c.afterCmd d).mem = d.mem := by
  unfold afterCmd; dsimp only; exact wdtSync_mem d

end Chip

/-- A drain job that has read its row and has not yet written the row's piece, the byte 5 for address 0. -/
def unwrittenJob : DrnJob :=
  { prof := 0, addr := 0, row := 0, nrow := 1, ntf := false, words := [], beg := 0, bundle := 0, reads := [0], pieces := [⟨[(0, 5)], [0], false⟩] }

/-- A device whose tile 2 is disabled, belongs to K1 and has a drain job in flight. Under the staging map every tile is K0's, and the control
core has unlocked the KMAP page. -/
def disabledTileState : State :=
  { chip := { coreUp := true, pwr := { porDone := true }
              regs := [(R.DEV.SURV, 0xFFFFFFFB), (R.H.POWN 0x00C, 0), (R.KMAP.LIVE_TOWN0, 0o100)]
              drn := List.replicate 2 {} ++ { jobs := [unwrittenJob] } :: List.replicate 13 {} } }

/-- The control core's write of GO = 1 and WHEN = 0 to CMT. -/
def commitNow : RegWr := { who := .cc, ofs := 0xC800, val := 1 }

/-- The model holds against a commit the job in flight of a surviving tile alone (R169, reason 6): that of the disabled tile does not make
it illegal. -/
theorem mapWhy_of_disabledTile : disabledTileState.chip.tileBusy 2 = true ∧ disabledTileState.chip.mapWhy = 0 := by decide +kernel

/-- The commit gives the tile to K0 and resets its drain unit, which writes the row already read (R171, R580). -/
theorem byte_of_commit : (disabledTileState.chip.regWriteOut .cc 0xC800 1).mem.byte 0 = 5 := by decide +kernel

/-- Refutes O43: a legal commit does not leave all memory as it is. Where it takes a disabled tile from its kennel while a drain job of the
tile is in flight, the reset of the drain unit writes the rows that the job has read (R171, R580). -/
theorem not_theKennelMapIsCommittedAndKennelsFreezeAndReset : ¬ Obligations.TheKennelMapIsCommittedAndKennelsFreezeAndReset := by
  unfold Obligations.TheKennelMapIsCommittedAndKennelsFreezeAndReset
  intro h
  obtain ⟨hcommit, -⟩ := h disabledTileState commitNow 0 0
  have htakes : disabledTileState.chip.takes commitNow = true := by decide +kernel
  have hunlocked : disabledTileState.chip.rwlOk commitNow.who 0x00C = true := by decide +kernel
  have hpend : disabledTileState.chip.rb R.KMAP.CSTAT 0 = false := by decide +kernel
  obtain ⟨-, hnow, -⟩ := hcommit htakes rfl (by decide) hunlocked hpend rfl rfl
  have hrun := hnow (by decide) mapWhy_of_disabledTile.2
  obtain ⟨-, -, -, -, -, -, hmem⟩ := hrun.post_of_on (f := fun c => c.regWriteOut .cc 0xC800 1) rfl
  rw [Chip.mem_afterCmd] at hmem
  have hbyte := byte_of_commit
  rw [hmem] at hbyte
  exact absurd hbyte (by decide)

end Sys2Proof.Machine
end

section
/-!
PROOFS. The slip log: the state in which a read of its first word changes a register beside SLOGN.
-/
namespace Sys2Proof.Machine

/-- A device with a 1 in the stored word of tile 2's SLOG0. A read of SLOG0 gives the head of the slip log and not this word, and no
command writes the word, so that only a state chosen freely holds it. -/
def strayWordState : State :=
  { chip := { coreUp := true, pwr := { porDone := true }, regs := [(R.DEV.SURV, 0x4), (R.TILE.SLOG0 2, 0x1)] } }

/-- The control core's read of tile 2's SLOG0. -/
def slogRead : RegRd := { who := .cc, ofs := 0x102344 }

/-- SLOG0 is a register of RC fields, which the read clears in the stored word (R14, R239). -/
theorem slog0_of_strayWord : (strayWordState.chip.regReadOut .cc 0x102344).r (R.TILE.SLOG0 2) = 0 := by decide +kernel

/-- Refutes O44: a read of the slip log does not leave every register but SLOGN as it is. It clears the RC fields of SLOG0, so where
the stored word of SLOG0 is not 0 the word changes (R14, R239). -/
theorem not_tilesAreConfiguredAndTheirRingsAndCoresStart : ¬ Obligations.TilesAreConfiguredAndTheirRingsAndCoresStart := by
  unfold Obligations.TilesAreConfiguredAndTheirRingsAndCoresStart
  intro h
  obtain ⟨-, -, -, -, hslip, -⟩ := h strayWordState { who := .cc, ofs := 0, val := 0 } slogRead 2 0 false
  have hgives : strayWordState.chip.gives slogRead = true := by decide +kernel
  have hpwr : strayWordState.chip.pagePwr (slotTile 2) = 0 := by decide +kernel
  have hrst : strayWordState.chip.inSrst (slotTile 2) = false := by decide +kernel
  have hrun := hslip hgives rfl rfl hpwr hrst (by decide +kernel)
  obtain ⟨-, -, honly⟩ := hrun.post_of_on (f := fun c => c.regReadOut .cc 0x102344) rfl
  have hkept := honly.regs (R.TILE.SLOG0 2) (by decide)
  rw [Chip.r_afterCmd, slog0_of_strayWord] at hkept
  exact absurd hkept (by decide +kernel)

end Sys2Proof.Machine
end

section
/-!
PROOFS. Slot rings: what PUT and FREE do to a command-advanced ring, at once or by waiting on it; and the bundle of a core that is one of
them.
-/
namespace Sys2Proof.Machine

namespace Chip

/-! ### Scratchpads and rings after updates -/

theorem scratch_modSp (c : Chip) (t u : Nat) (f : Scratch → Scratch) :
    (c.modSp t f).scratch u = if u = t ∧ t < c.sp.length then f (c.scratch t) else c.scratch u := nth_modNth _ _ _ _ _

@[simp] theorem ring_w (c : Chip) (k t x : Nat) (v : BitVec 32) : (c.w k v).ring t x = c.ring t x := rfl
@[simp] theorem ring_wb (c : Chip) (k t x i : Nat) (b : Bool) : (c.wb k i b).ring t x = c.ring t x := rfl
@[simp] theorem ring_wf (c : Chip) (k t x hi lo v : Nat) : (c.wf k hi lo v).ring t x = c.ring t x := rfl
@[simp] theorem ring_modCore (c : Chip) (k t x : Nat) (f : Core → Core) : (c.modCore k f).ring t x = c.ring t x := rfl
@[simp] theorem r_modRing (c : Chip) (t x j : Nat) (f : Ring → Ring) : (c.modRing t x f).r j = c.r j := r_modSp _ _ _ _

/-- A ring context after one has been changed. -/
theorem ring_modRing (c : Chip) (t x u y : Nat) (f : Ring → Ring) :
    (c.modRing t x f).ring u y =
      if u = t ∧ t < c.sp.length ∧ y = x ∧ x < (c.scratch t).rings.length then f (c.ring t x) else c.ring u y := by
  unfold ring modRing
  rw [scratch_modSp]
  by_cases ht : u = t ∧ t < c.sp.length
  · obtain ⟨rfl, hlt⟩ := ht
    rw [if_pos ⟨rfl, hlt⟩]
    simp only [nth_modNth, hlt, true_and]
  · rw [if_neg ht, if_neg (fun h => ht ⟨h.1, h.2.1⟩)]

@[simp] theorem length_sp_modRing (c : Chip) (t x : Nat) (f : Ring → Ring) : (c.modRing t x f).sp.length = c.sp.length :=
  length_modNth _ _ _

@[simp] theorem length_rings_modRing (c : Chip) (t x u : Nat) (f : Ring → Ring) :
    ((c.modRing t x f).scratch u).rings.length = (c.scratch u).rings.length := by
  unfold modRing
  rw [scratch_modSp]
  split
  · next h => rw [h.1]; exact length_modNth _ _ _
  · rfl

/-- A context changed in nothing but who waits on it. -/
theorem ring_modRing_stalls (c : Chip) (t x u y : Nat) (f : Ring → List (Agent × Nat)) :
    { (c.modRing t x fun r => { r with stalls := f r }).ring u y with stalls := [] } = { c.ring u y with stalls := [] } := by
  rw [ring_modRing]
  split
  · next h => rw [h.1, h.2.2.1]
  · rfl

/-! ### A ring command that is performed (R211, R212) -/

/-- The position of the side that gives a command: the consumer's for FREE, the producer's for PUT. -/
def slotPos (c : Chip) (t x : Nat) (free : Bool) : Nat := if free then c.cp t x else c.pp t x

/-- A port is the side of a ring that gives a command. -/
def sidePort (r : Ring) (free : Bool) : Nat := if free then r.cside else r.pside

/-- From `c` to `d` a PUT fills, or a FREE empties, the slot at its side's position of ring `x` of tile `t`, and the position moves on. -/
structure RingMoves (c d : Chip) (t x : Nat) (free : Bool) : Prop where
  rest : d = { c with regs := d.regs, sp := d.sp }
  regs : ∀ key, key ≠ R.TILE.RPOS t x → d.r key = c.r key
  slot : d.full t x (c.slotPos t x free) = !free
  slots : ∀ j, j < 16 → j ≠ c.slotPos t x free → d.full t x j = c.full t x j
  pos : d.slotPos t x free = (c.slotPos t x free + 1) % (c.ring t x).nslot
  other : d.slotPos t x (!free) = c.slotPos t x (!free)
  gen : free = false → nth 0 (d.ring t x).gen (c.pp t x) = (nth 0 (c.ring t x).gen (c.pp t x) + 1) % 0x10000

theorem rpos_ne_rst (t x y : Nat) : R.TILE.RPOS t x ≠ R.TILE.RST t y := by unfold R.TILE.RPOS R.TILE.RST; omega
theorem rpos_ne_rcnt (t x y : Nat) : R.TILE.RPOS t x ≠ R.TILE.RCNT t y := by unfold R.TILE.RPOS R.TILE.RCNT; omega
theorem rst_ne_rcnt (t x y : Nat) : R.TILE.RST t x ≠ R.TILE.RCNT t y := by unfold R.TILE.RST R.TILE.RCNT; omega

theorem full_of_rpos {c d : Chip} {t x : Nat} (h : d.r (R.TILE.RPOS t x) = c.r (R.TILE.RPOS t x)) (j : Nat) : d.full t x j = c.full t x j :=
  congrArg (fun v => bit v (16 + j)) h

theorem slotPos_of_rpos {c d : Chip} {t x : Nat} (h : d.r (R.TILE.RPOS t x) = c.r (R.TILE.RPOS t x)) (free : Bool) :
    d.slotPos t x free = c.slotPos t x free := by
  cases free
  · exact congrArg (fun v => fld v 3 0) h
  · exact congrArg (fun v => fld v 7 4) h

/-- RPOS after a slot's tag and a side's position have been set. -/
theorem posWord_fields (v : BitVec 32) (free : Bool) (slot next : Nat) (hs : slot < 16) (hn : next < 16) :
    let w := setFld (setBit v (16 + slot) (!free)) (if free then 7 else 3) (if free then 4 else 0) next
    (∀ j, j < 16 → bit w (16 + j) = if j = slot then !free else bit v (16 + j)) ∧
      fld w 3 0 = (if free then fld v 3 0 else next) ∧ fld w 7 4 = (if free then next else fld v 7 4) := by
  refine ⟨fun j hj => ?_, ?_, ?_⟩
  · rw [bit_setFld_ne _ _ _ _ _ (by split <;> decide) (by split <;> decide) (by split <;> omega), bit_setBit _ _ _ _ (by omega)]
    simp
  · cases free
    · exact (fld_setFld _ _ _ _ (by decide) (by decide)).trans (Nat.mod_eq_of_lt hn)
    · exact (fld_setFld_ne _ _ _ _ _ _ (by decide) (by decide) (by decide) (by decide)).trans
        (fld_setBit_ne _ _ _ _ _ (by omega) (by decide) (by omega))
  · cases free
    · exact (fld_setFld_ne _ _ _ _ _ _ (by decide) (by decide) (by decide) (by decide)).trans
        (fld_setBit_ne _ _ _ _ _ (by omega) (by decide) (by omega))
    · exact (fld_setFld _ _ _ _ (by decide) (by decide)).trans (Nat.mod_eq_of_lt hn)

/-- A requester that waits on no ring of a tile has nothing to leave. -/
theorem ringUnstall_none {c : Chip} {t : Nat} (ag : Agent) (h : ∀ y, y < 16 → (c.ring t y).stalls = []) : c.ringUnstall t ag = c := by
  have hnone : (List.range 16).filter (fun x => (c.ring t x).stalls.any (fun s => s.1 == ag)) = [] := by
    rw [List.filter_eq_nil_iff]
    intro y hy
    simp [h y (List.mem_range.1 hy)]
  unfold ringUnstall
  rw [hnone]
  rfl

/-- The device after a PUT or a FREE that is performed. -/
def ringDone (c : Chip) (t x : Nat) (free : Bool) : Chip :=
  let slot := c.slotPos t x free
  let d := c.wb (R.TILE.RPOS t x) (16 + slot) (!free)
  if free then d.wf (R.TILE.RPOS t x) 7 4 ((slot + 1) % (c.ring t x).nslot)
  else (d.modRing t x fun r => { r with gen := modNth (fun g => (g + 1) % 0x10000) r.gen slot }).wf (R.TILE.RPOS t x) 3 0
    ((slot + 1) % (c.ring t x).nslot)

theorem ringDone_rest (c : Chip) (t x : Nat) (free : Bool) :
    c.ringDone t x free = { c with regs := (c.ringDone t x free).regs, sp := (c.ringDone t x free).sp } := by cases free <;> rfl

@[simp] theorem cores_ringDone (c : Chip) (t x : Nat) (free : Bool) : (c.ringDone t x free).cores = c.cores := by cases free <;> rfl
@[simp] theorem dbg_ringDone (c : Chip) (t x : Nat) (free : Bool) : (c.ringDone t x free).dbg = c.dbg := by cases free <;> rfl
@[simp] theorem pwr_ringDone (c : Chip) (t x : Nat) (free : Bool) : (c.ringDone t x free).pwr = c.pwr := by cases free <;> rfl
@[simp] theorem cust_ringDone (c : Chip) (t x : Nat) (free : Bool) : (c.ringDone t x free).cust = c.cust := by cases free <;> rfl
@[simp] theorem core_ringDone (c : Chip) (t x : Nat) (free : Bool) (k : Nat) : (c.ringDone t x free).core k = c.core k :=
  core_of_cores (cores_ringDone c t x free) k

theorem r_ringDone (c : Chip) (t x : Nat) (free : Bool) (key : Nat) :
    (c.ringDone t x free).r key =
      if key = R.TILE.RPOS t x then
        setFld (setBit (c.r (R.TILE.RPOS t x)) (16 + c.slotPos t x free) (!free)) (if free then 7 else 3) (if free then 4 else 0)
          ((c.slotPos t x free + 1) % (c.ring t x).nslot)
      else c.r key := by
  unfold ringDone
  cases free <;> by_cases h : key = R.TILE.RPOS t x <;> simp [h]

/-- A ring command meets a command-advanced ring whose slot stands the other way, and no one waits on the tile's rings. -/
structure RingReady (c : Chip) (t x side : Nat) (free : Bool) : Prop where
  stalls : ∀ y, y < 16 → (c.ring t y).stalls = []
  active : (c.ring t x).active = true
  adv : (c.ring t x).adv = false
  side : sidePort (c.ring t x) free = side
  full : c.full t x (c.slotPos t x free) = free

/-- The cores have no part in whether a ring is ready. -/
theorem RingReady.modCore {c : Chip} {t x side : Nat} {free : Bool} (h : RingReady c t x side free) (k : Nat) (f : Core → Core) :
    RingReady (c.modCore k f) t x side free := ⟨h.stalls, h.active, h.adv, h.side, h.full⟩

/-- A ring that is ready performs the command. -/
theorem ringCmd_performed {c : Chip} {t x side : Nat} {free : Bool} (ag : Agent) (b : Nat) (h : RingReady c t x side free) :
    c.ringCmd t x free side ag b = (.ok, c.ringDone t x free) := by
  have hgo : (!(c.ring t x).active || (c.ring t x).adv || sidePort (c.ring t x) free != side) = false := by
    simp [h.active, h.adv, h.side]
  have hon : (c.full t x (c.slotPos t x free) == !free) = false := by rw [h.full]; cases free <;> rfl
  unfold ringCmd
  rw [ringUnstall_none ag h.stalls]
  simp only [sidePort, slotPos] at hgo hon
  simp only [hgo, hon, Bool.false_and, Bool.false_eq_true, if_false]
  cases free <;> rfl

theorem ringMoves_ringDone {c : Chip} {t x : Nat} {free : Bool} (ht : t < c.sp.length) (hx : x < (c.scratch t).rings.length)
    (hlo : 2 ≤ (c.ring t x).nslot) (hhi : (c.ring t x).nslot ≤ 16) (hgen : (c.ring t x).gen.length = 16)
    (hpos : c.slotPos t x free < (c.ring t x).nslot) : RingMoves c (c.ringDone t x free) t x free := by
  have hword := (c.r_ringDone t x free (R.TILE.RPOS t x)).trans (if_pos rfl)
  have hnext := Nat.mod_lt (c.slotPos t x free + 1) (show 0 < (c.ring t x).nslot by omega)
  obtain ⟨hbits, hpp, hcp⟩ := posWord_fields (c.r (R.TILE.RPOS t x)) free (c.slotPos t x free)
    ((c.slotPos t x free + 1) % (c.ring t x).nslot) (by omega) (by omega)
  rw [← hword] at hbits hpp hcp
  refine ⟨c.ringDone_rest t x free, fun key hkey => (c.r_ringDone t x free key).trans (if_neg hkey), ?_, fun j hj hne => ?_, ?_, ?_, ?_⟩
  · exact (hbits _ (by omega)).trans (if_pos rfl)
  · exact (hbits j hj).trans (if_neg hne)
  · cases free
    · exact hpp
    · exact hcp
  · cases free
    · exact hcp
    · exact hpp
  · rintro rfl
    have hring : (c.ringDone t x false).ring t x =
        { c.ring t x with gen := modNth (fun g => (g + 1) % 0x10000) (c.ring t x).gen (c.pp t x) } :=
      (ring_w _ _ _ _ _).trans ((ring_modRing _ _ _ _ _ _).trans (if_pos ⟨rfl, ht, rfl, hx⟩))
    have hlt : c.pp t x < (c.ring t x).nslot := hpos
    rw [hring]
    exact (nth_modNth _ _ _ _ _).trans (if_pos ⟨rfl, by omega⟩)

/-! ### A ring command that waits (R215) -/

/-- From `c` to `d` nothing differs but who waits on the rings of tile `t`, with the status and counts that show it. -/
structure WaitsOnly (c d : Chip) (t : Nat) : Prop where
  rest : d = { c with regs := d.regs, sp := d.sp }
  regs : ∀ key, (∀ y, key ≠ R.TILE.RST t y ∧ key ≠ R.TILE.RCNT t y) → d.r key = c.r key
  tiles : d.sp.length = c.sp.length
  ctxs : (d.scratch t).rings.length = (c.scratch t).rings.length
  rings : ∀ y, { d.ring t y with stalls := [] } = { c.ring t y with stalls := [] }

namespace WaitsOnly

theorem refl (c : Chip) (t : Nat) : WaitsOnly c c t := ⟨rfl, fun _ _ => rfl, rfl, rfl, fun _ => rfl⟩

theorem trans {c d e : Chip} {t : Nat} (h : WaitsOnly c d t) (h' : WaitsOnly d e t) : WaitsOnly c e t := by
  refine ⟨?_, fun k hk => (h'.regs k hk).trans (h.regs k hk), h'.tiles.trans h.tiles, h'.ctxs.trans h.ctxs,
    fun y => (h'.rings y).trans (h.rings y)⟩
  have a := h'.rest
  have b := h.rest
  rw [a, b]

theorem modRing (c : Chip) (t x : Nat) (f : Ring → List (Agent × Nat)) : WaitsOnly c (c.modRing t x fun r => { r with stalls := f r }) t :=
  ⟨rfl, fun _ _ => r_modRing _ _ _ _ _, length_sp_modRing _ _ _ _, length_rings_modRing _ _ _ _ _, fun _ => ring_modRing_stalls _ _ _ _ _ _⟩

theorem w (c : Chip) (t : Nat) {k : Nat} (v : BitVec 32) (h : ∃ y, k = R.TILE.RST t y ∨ k = R.TILE.RCNT t y) : WaitsOnly c (c.w k v) t := by
  refine ⟨rfl, fun key hkey => ?_, rfl, rfl, fun _ => rfl⟩
  obtain ⟨y, hy⟩ := h
  rw [r_w, if_neg]
  rintro rfl
  exact hy.elim (hkey y).1 (hkey y).2

theorem ringStall (c : Chip) (t x : Nat) (ag : Agent) : WaitsOnly c (c.ringStall t x ag) t := by
  unfold Chip.ringStall
  split
  · exact .refl _ _
  · exact ((modRing c t x _).trans (w _ t _ ⟨x, .inl rfl⟩)).trans (w _ t _ ⟨x, .inr rfl⟩)

theorem ringUnstall (c : Chip) (t : Nat) (ag : Agent) : WaitsOnly c (c.ringUnstall t ag) t := by
  unfold Chip.ringUnstall
  dsimp only
  generalize (List.range 16).filter _ = hits
  induction hits generalizing c with
  | nil => exact .refl _ _
  | cons y ys ih => exact ((modRing c t y _).trans (w _ t _ ⟨y, .inl rfl⟩)).trans (ih _)

/-- A ring stands as it stood, but for who waits on it. -/
theorem ring_eq {c d : Chip} {t : Nat} (h : WaitsOnly c d t) (y : Nat) : d.ring t y = { c.ring t y with stalls := (d.ring t y).stalls } :=
  congrArg (fun r : Ring => { r with stalls := (d.ring t y).stalls }) (h.rings y)

theorem rpos {c d : Chip} {t : Nat} (h : WaitsOnly c d t) (x : Nat) : d.r (R.TILE.RPOS t x) = c.r (R.TILE.RPOS t x) :=
  h.regs _ fun y => ⟨rpos_ne_rst t x y, rpos_ne_rcnt t x y⟩

end WaitsOnly

/-- A ring command meets a tagged ring whose slot stands as the command would leave it. -/
structure RingBlocked (c : Chip) (t x side : Nat) (free : Bool) : Prop where
  active : (c.ring t x).active = true
  adv : (c.ring t x).adv = false
  side : sidePort (c.ring t x) free = side
  tag : (c.ring t x).tag = true
  full : c.full t x (c.slotPos t x free) = !free

/-- The cores have no part in whether a ring is blocked. -/
theorem RingBlocked.modCore {c : Chip} {t x side : Nat} {free : Bool} (h : RingBlocked c t x side free) (k : Nat) (f : Core → Core) :
    RingBlocked (c.modCore k f) t x side free := ⟨h.active, h.adv, h.side, h.tag, h.full⟩

/-- A tagged ring whose slot stands as the command would leave it makes the requester wait. -/
theorem ringCmd_waits {c : Chip} {t x side : Nat} {free : Bool} (ag : Agent) (b : Nat) (h : RingBlocked c t x side free) :
    c.ringCmd t x free side ag b = (.stall t x, c.ringStall t x ag) := by
  have hgo : (!(c.ring t x).active || (c.ring t x).adv || sidePort (c.ring t x) free != side) = false := by
    simp [h.active, h.adv, h.side]
  have hoff : (c.full t x (c.slotPos t x free) == !free) = true := by rw [h.full]; exact beq_self_eq_true _
  simp only [sidePort, slotPos] at hgo hoff
  unfold ringCmd
  simp only [hgo, hoff, h.tag, Bool.and_self, Bool.false_eq_true, if_false, if_true]

/-- Who waits on a ring has no part in whether a command meets it blocked. -/
theorem RingBlocked.of_waits {c d : Chip} {t x side : Nat} {free : Bool} (h : RingBlocked c t x side free) (hw : WaitsOnly c d t) :
    RingBlocked d t x side free := by
  have hr := hw.ring_eq x
  have hp := hw.rpos x
  refine ⟨?_, ?_, ?_, ?_, ?_⟩
  · rw [hr]; exact h.active
  · rw [hr]; exact h.adv
  · rw [hr]; exact h.side
  · rw [hr]; exact h.tag
  · have hf := h.full
    rw [slotPos_of_rpos hp, full_of_rpos hp]
    exact hf

/-- A requester that a ring does not list yet comes last in its list, and no other ring of the tile changes. -/
theorem ring_ringStall {c : Chip} {t x : Nat} (ag : Agent) (ht : t < c.sp.length) (hx : x < (c.scratch t).rings.length)
    (h : ¬(c.ring t x).stalls.any (fun s => s.1 == ag) = true) (y : Nat) :
    (c.ringStall t x ag).ring t y =
      if y = x then { c.ring t x with stalls := (c.ring t x).stalls ++ [(ag, c.now)] } else c.ring t y := by
  unfold ringStall
  rw [if_neg h]
  dsimp only
  rw [cnt, ring_wf, ring_wb, ring_modRing]
  simp [ht, hx]

/-- A requester that waits on a ring is among those that the ring lists. -/
theorem ringStall_listed (c : Chip) {t x : Nat} (ag : Agent) (ht : t < c.sp.length) (hx : x < (c.scratch t).rings.length) :
    ((c.ringStall t x ag).ring t x).stalls.any (fun s => s.1 == ag) = true := by
  by_cases h : (c.ring t x).stalls.any (fun s => s.1 == ag) = true
  · unfold ringStall
    rw [if_pos h]
    exact h
  · rw [ring_ringStall ag ht hx h, if_pos rfl]
    simp

/-- The first requester to wait on a ring: the ring lists it from now on, and RST shows it. -/
theorem ringStall_first {c : Chip} {t x : Nat} (ag : Agent) (ht : t < c.sp.length) (hx : x < (c.scratch t).rings.length)
    (h : (c.ring t x).stalls = []) :
    ((c.ringStall t x ag).ring t x).stalls = [(ag, c.now)] ∧ (c.ringStall t x ag).rb (R.TILE.RST t x) 1 = true ∧
      ∀ y, y ≠ x → (c.ringStall t x ag).ring t y = c.ring t y := by
  have hany : ¬(c.ring t x).stalls.any (fun s => s.1 == ag) = true := by simp [h]
  refine ⟨?_, ?_, fun y hy => ?_⟩
  · rw [ring_ringStall ag ht hx hany, if_pos rfl, h]
    rfl
  · unfold ringStall
    rw [if_neg hany]
    dsimp only
    rw [rb_eq, cnt, r_wf, if_neg (rst_ne_rcnt t x x), r_wb, if_pos rfl, bit_setBit _ _ _ _ (by decide), if_pos rfl]
  · rw [ring_ringStall ag ht hx hany, if_neg hy]

/-! ### The bundle of one ring command -/

/-- PUT or FREE as the one syllable of its bundle. -/
def ringRec (h : Syl) (free : Bool) (x : Nat) : SylRec := { slot := slotNum h.slot, ran := true, effs := [.ring free x] }

/-- The device with a ring command as the whole bundle of core `k`. -/
def takesRing (c : Chip) (k : Nat) (h : Syl) (free : Bool) (x : Nat) : Chip := c.modCore k fun y => { y with bundle := [ringRec h free x] }

theorem core_takesRing (c : Chip) {k : Nat} (h : Syl) (free : Bool) (x : Nat) (hk : k < c.cores.length) :
    (c.takesRing k h free x).core k = { c.core k with bundle := [ringRec h free x] } := by
  unfold takesRing
  rw [core_modCore, if_pos ⟨rfl, hk⟩]

theorem core_takesRing_ne (c : Chip) {k j : Nat} (h : Syl) (free : Bool) (x : Nat) (hj : j ≠ k) :
    (c.takesRing k h free x).core j = c.core j := by
  unfold takesRing
  rw [core_modCore, if_neg (fun hh => hj hh.1)]

/-- Core `k` holds a bundle of one ring command inside its program, and nothing else is in flight. -/
structure HoldsRing (c : Chip) (k x : Nat) (free : Bool) : Prop where
  bundle : ∃ h, (c.core k).bundle = [ringRec h free x]
  prog : c.inProgram k (c.core k).pc = true
  loads : (c.core k).loads = []
  posted : (c.core k).posted = []
  takenBr : (c.core k).takenBr = false
  target : (c.core k).target = none
  repst : (c.core k).repst = 0

/-- A bundle of one ring command makes that command, and then ends or is held. -/
theorem closeBundle_ring {c : Chip} {k x : Nat} {free : Bool} (h : HoldsRing c k x free) :
    c.closeBundle k = match c.ringCmd k x free 1 (.core k) (c.core k).pc.toNat with
      | (.stall t y, _) => (c.ringStall t y (.core k)).holdCore k
      | (_, d) => d.endBundle k 0 [.ring free x] := by
  obtain ⟨sy, hb⟩ := h.bundle
  have hexc : c.bundleExc k = none := bundleExc_one (r := ringRec sy free x) h.prog hb rfl rfl rfl h.takenBr h.target h.repst
  have heffs : bundleEffs (c.core k) = [.ring free x] := bundleEffs_one hb (by show slotNum sy.slot < 4; cases sy.slot <;> decide) rfl
  have hacc : c.doAccesses k [.ring free x] = c.doAccess k (.ring free x) := by
    show (c.doAccess k (.ring free x) >>= pure) >>= _ = _
    cases c.doAccess k (.ring free x) <;> rfl
  unfold closeBundle
  rw [hexc]
  dsimp only
  rw [heffs, h.posted, hacc, h.loads]
  simp only [doAccess]
  generalize c.ringCmd k x free 1 (.core k) (c.core k).pc.toNat = out
  obtain ⟨res, d⟩ := out
  cases res <;> rfl

/-- At its end a ring command has no more effect than a bundle of none. -/
theorem endBundle_ring (c : Chip) (k x : Nat) (free : Bool) : c.endBundle k 0 [.ring free x] = c.endBundle k 0 [] := rfl

/-- A quiet core puts a ring command into its bundle. -/
theorem holdsRing_of_quiet {c : Chip} {k x : Nat} {free : Bool} (q : Quiet c k) (h : Syl) :
    HoldsRing (c.takesRing k h free x) k x free := by
  have hcore := c.core_takesRing h free x (show k < c.cores.length by rw [q.len]; exact q.lt)
  refine ⟨⟨h, by rw [hcore]⟩, ?_, ?_, ?_, ?_, ?_, ?_⟩
  · rw [hcore]; exact (inProgram_of_regs rfl k _).trans q.prog
  · rw [hcore]; exact q.loads
  · rw [hcore]; exact q.posted
  · rw [hcore]; exact q.takenBr
  · rw [hcore]; exact q.target
  · rw [hcore]; exact q.repst

/-- A ring command alone in its bundle closes the bundle (R408, R409). -/
theorem syl_ring {c : Chip} {h : Syl} {x : Nat} {free : Bool} (ha : c.alone h [.m] = true) (hk : h.core.val < 16) :
    c.syl h [.m] false (fun _ => { effs := [.ring free x] }) =
      ((c.takesRing h.core.val h free x).closeBundle h.core.val).settle := by
  unfold alone at ha
  simp only [Bool.and_eq_true, List.isEmpty_iff] at ha
  obtain ⟨⟨⟨⟨⟨⟨hq, hsl⟩, hrsv⟩, hlast⟩, hup⟩, hg⟩, hrun⟩ := ha
  have q := (quiet_iff c h.core.val h.core.isLt).1 hq
  have hlegal : sylLegal h [.m] false ({ effs := [.ring free x] } : Body) = true := by
    unfold sylLegal
    simp only [hsl, hrsv, hg, Bool.and_true, Bool.true_and, Bool.or_false, bne_iff_ne]
    omega
  have hguard : sylGuard (c.core h.core.val) h = true := hrun
  have hrec : sylRec (c.core h.core.val) h [.m] false { effs := [.ring free x] } = ringRec h free x := by
    simp [sylRec, sylExc, hlegal, hguard, ringRec]
  have hjoin : (c.modCore h.core.val fun y => joined y (ringRec h free x) h.upset) = c.takesRing h.core.val h free x := by
    apply modCore_congr
    simp [joined, q.bundle, hup]
  unfold syl
  dsimp only
  rw [q.surv, boundary_quiet q, issues_quiet q, hlast, hrec, hjoin]
  rfl

/-! ### A performed command ends its bundle -/

/-- A freeze does not depend on a ring's positions. -/
theorem coreFrz_of_rpos {c d : Chip} {t x : Nat} (hp : d.pwr = c.pwr) (hd : d.dbg = c.dbg)
    (hr : ∀ key, key ≠ R.TILE.RPOS t x → d.r key = c.r key) (k : Nat) : d.coreFrz k = c.coreFrz k := by
  have hlow : ∀ key, key < 0x100244 → d.r key = c.r key := fun key hkey => hr key (by unfold R.TILE.RPOS; omega)
  have howner : ∀ t, d.owner t = c.owner t := fun t => by
    unfold owner
    simp only [rf_eq, hlow R.KMAP.LIVE_TOWN0 (by decide), hlow R.KMAP.LIVE_TOWN1 (by decide)]
  have hlt : c.owner k < 8 := by
    unfold owner rf fld
    split
    · rw [show 3 * k + 2 + 1 - 3 * k = 3 by omega]; omega
    · rw [show 3 * (k - 8) + 2 + 1 - 3 * (k - 8) = 3 by omega]; omega
  have hstate : d.r (R.KMAP.KSTAT (c.owner k)) = c.r (R.KMAP.KSTAT (c.owner k)) := hlow _ (by unfold R.KMAP.KSTAT; omega)
  have hdefer : d.r (R.ELG.KST (c.owner k)) = c.r (R.ELG.KST (c.owner k)) := hlow _ (by unfold R.ELG.KST; omega)
  have hpctl : d.r (R.H.PCTL (slotTile k)) = c.r (R.H.PCTL (slotTile k)) := hr _ (by unfold R.H.PCTL slotTile R.TILE.RPOS; omega)
  unfold coreFrz kstate deferred
  simp only [howner, rb_eq, rf_eq, hstate, hdefer, hpctl, hp, hd]

/-- A ring command that is performed on a quiet core: its bundle ends, and the core goes on to the next. -/
theorem closeBundle_performed {c : Chip} {k x : Nat} {free : Bool} (q : Quiet c k) (h : Syl) (hr : RingReady c k x 1 free) :
    let d := (c.takesRing k h free x).ringDone k x free
    let e := (c.takesRing k h free x).closeBundle k
    Moved d e k ∧ (e.core k).arch = (c.core k).next.arch ∧ (e.core k).held = false := by
  have hk : k < c.cores.length := by rw [q.len]; exact q.lt
  have hready : RingReady (c.takesRing k h free x) k x 1 free := hr.modCore k _
  have hclose : (c.takesRing k h free x).closeBundle k = ((c.takesRing k h free x).ringDone k x free).endBundle k 0 [] := by
    rw [closeBundle_ring (holdsRing_of_quiet q h), ringCmd_performed _ _ hready]
    exact endBundle_ring _ _ _ _
  have hregs : ∀ key, key ≠ R.TILE.RPOS k x → ((c.takesRing k h free x).ringDone k x free).r key = c.r key := fun key hkey =>
    (r_ringDone _ k x free key).trans (if_neg hkey)
  have hcore : ((c.takesRing k h free x).ringDone k x free).core k = { c.core k with bundle := [ringRec h free x] } :=
    (core_ringDone _ _ _ _ _).trans (c.core_takesRing h free x hk)
  have hlen : k < ((c.takesRing k h free x).ringDone k x free).cores.length := by
    rw [cores_ringDone, takesRing, length_cores_modCore]
    exact hk
  have hfrz : ((c.takesRing k h free x).ringDone k x free).coreFrz k = false :=
    (coreFrz_of_rpos (pwr_ringDone _ _ _ _) (dbg_ringDone _ _ _ _) hregs k).trans q.frz
  have htrc : ((c.takesRing k h free x).ringDone k x free).rf (R.TRC.TCFG k) 1 0 ≠ 2 := by
    have : k < 17 := q.lt
    rw [rf_eq, hregs _ (by unfold R.TRC.TCFG R.TILE.RPOS; omega)]
    exact q.trc
  dsimp only
  rw [hclose]
  obtain ⟨_, hmoved, harch, hheld⟩ := endBundle_plain (effs := []) hlen (.inl (by rw [hcore]; rfl)) (by rw [hcore]; exact q.run)
    (by rw [hcore]; exact q.loads) (by rw [hcore]; exact q.badPar) (by rw [hcore]; exact q.stopReq) hfrz
    (by rw [dbg_ringDone]; exact q.step) htrc (by simp)
  refine ⟨hmoved, harch.trans ?_, hheld⟩
  rw [hcore]
  exact nextPc_seq [] (c.core k).arch (by simp) q.target q.repst q.loopDue

/-! ### A blocked command holds its bundle -/

theorem WaitsOnly.cores {c d : Chip} {t : Nat} (h : WaitsOnly c d t) : d.cores = c.cores := by rw [h.rest]

/-- Who waits on the rings has no part in what a core holds. -/
theorem HoldsRing.of_waits {c d : Chip} {k x : Nat} {free : Bool} (h : HoldsRing c k x free) (hw : WaitsOnly c d k) :
    HoldsRing d k x free := by
  have hcore : d.core k = c.core k := core_of_cores hw.cores k
  have hprog : d.inProgram k (c.core k).pc = c.inProgram k (c.core k).pc := by
    have hlo := hw.regs (R.TILE.PBASE_LO k) fun y => by unfold R.TILE.PBASE_LO R.TILE.RST R.TILE.RCNT; omega
    have hhi := hw.regs (R.TILE.PBASE_LO k + 4) fun y => by unfold R.TILE.PBASE_LO R.TILE.RST R.TILE.RCNT; omega
    have hlen := hw.regs (R.TILE.PLEN k) fun y => by unfold R.TILE.PLEN R.TILE.RST R.TILE.RCNT; omega
    unfold inProgram r64
    rw [rf_eq, rf_eq, hlo, hhi, hlen]
  refine ⟨?_, ?_, ?_, ?_, ?_, ?_, ?_⟩ <;> rw [hcore]
  · exact h.bundle
  · exact hprog.trans h.prog
  · exact h.loads
  · exact h.posted
  · exact h.takenBr
  · exact h.target
  · exact h.repst

/-- Nor has whether the core runs or is held. -/
theorem HoldsRing.of_run {c : Chip} {k x : Nat} {free : Bool} (h : HoldsRing c k x free) (st : CoreRun) (held : Bool)
    (hk : k < c.cores.length) : HoldsRing (c.modCore k fun y => { y with run := st, held := held }) k x free := by
  have hcore : (c.modCore k fun y => { y with run := st, held := held }).core k = { c.core k with run := st, held := held } := by
    rw [core_modCore, if_pos ⟨rfl, hk⟩]
  refine ⟨?_, ?_, ?_, ?_, ?_, ?_, ?_⟩ <;> rw [hcore]
  · exact h.bundle
  · exact (inProgram_of_regs rfl k _).trans h.prog
  · exact h.loads
  · exact h.posted
  · exact h.takenBr
  · exact h.target
  · exact h.repst

/-- A blocked command makes its core hold the bundle and wait on the ring. -/
theorem closeBundle_waits {c : Chip} {k x : Nat} {free : Bool} (h : HoldsRing c k x free) (hb : RingBlocked c k x 1 free) :
    c.closeBundle k = (c.ringStall k x (.core k)).holdCore k := by
  rw [closeBundle_ring h, ringCmd_waits _ _ hb]

theorem core_holdCore (c : Chip) {k : Nat} (hk : k < c.cores.length) :
    (c.holdCore k).core k = { c.core k with held := true, run := .stalled } := by
  unfold holdCore
  rw [core_modCore, if_pos ⟨rfl, hk⟩]

/-- The core then is held, and the ring lists it. -/
theorem closeBundle_waits_listed {c : Chip} {k x : Nat} {free : Bool} (hk : k < c.cores.length) (h : HoldsRing c k x free)
    (hb : RingBlocked c k x 1 free) (ht : k < c.sp.length) (hx : x < (c.scratch k).rings.length) :
    ((c.closeBundle k).core k).held = true ∧ ((c.closeBundle k).ring k x).stalls.any (fun s => s.1 == .core k) = true := by
  rw [closeBundle_waits h hb]
  refine ⟨?_, ?_⟩
  · rw [core_holdCore _ (by rw [(WaitsOnly.ringStall c k x (.core k)).cores]; exact hk)]
  · rw [holdCore, ring_modCore]
    exact ringStall_listed c _ ht hx

/-- A bundle that waits on a ring is tried again and meets the same ring: it goes on waiting as it did (R215). -/
theorem settle_waits {c : Chip} {k x : Nat} {free : Bool} (hk : k < c.cores.length) (hh : HoldsRing c k x free)
    (hb : RingBlocked c k x 1 free) (hheld : (c.core k).held = true) (hrun : (c.core k).run = .stalled)
    (ht : k < c.sp.length) (hx : x < (c.scratch k).rings.length) (hx16 : x < 16)
    (hlisted : (c.ring k x).stalls.any (fun s => s.1 == .core k) = true) (honly : ∀ y, y < 16 → y ≠ x → (c.ring k y).stalls = [])
    (hothers : ∀ j, j < 17 → j ≠ k → (c.core j).held = false)
    (hcust : ∀ t, t < 16 → (c.custSt t).queue = [] ∧ (c.custSt t).ntf = []) : c.settle = c := by
  have hfind : (List.range 16).find? (fun y => (c.ring k y).stalls.any (fun s => s.1 == .core k)) = some x := by
    cases hf : (List.range 16).find? (fun y => (c.ring k y).stalls.any (fun s => s.1 == .core k)) with
    | none => exact absurd hlisted (List.find?_eq_none.1 hf x (List.mem_range.2 hx16))
    | some y =>
      by_cases hy : y = x
      · rw [hy]
      · have hempty := honly y (List.mem_range.1 (List.mem_of_find?_eq_some hf)) hy
        have hsome := List.find?_some hf
        simp [hempty] at hsome
  have hw := WaitsOnly.ringUnstall c k (.core k)
  obtain ⟨hagain, hstill⟩ := closeBundle_waits_listed
    (c := (c.ringUnstall k (.core k)).modCore k fun x => { x with run := .run, held := false })
    (by rw [length_cores_modCore, hw.cores]; exact hk) ((hh.of_waits hw).of_run .run false (by rw [hw.cores]; exact hk))
    ((hb.of_waits hw).modCore _ _) (hw.tiles.symm ▸ ht) (hw.ctxs.symm ▸ hx)
  unfold settle
  have hidle : forN 16 (fun t c => c.custRun t) c = c := forN_id _ _ _ (fun t ht => custRun_idle (hcust t ht).1 (hcust t ht).2)
  dsimp only
  rw [hidle]
  apply forN_id
  intro j hj
  by_cases hjk : j = k
  · rw [hjk, hheld, hrun, hfind]
    simp only [hagain, hstill, beq_self_eq_true, Bool.and_self, if_true]
  · simp [hothers j hj hjk]

/-! ### Commands -/

theorem cores_afterCmd (c d : Chip) : (c.afterCmd d).cores = d.cores := by obtain ⟨_, h⟩ := afterCmd_eq c d; rw [h]
theorem sp_afterCmd (c d : Chip) : (c.afterCmd d).sp = d.sp := by obtain ⟨_, h⟩ := afterCmd_eq c d; rw [h]
theorem regs_afterCmd (c d : Chip) : (c.afterCmd d).regs = d.regs := by obtain ⟨_, h⟩ := afterCmd_eq c d; rw [h]
@[simp] theorem core_afterCmd (c d : Chip) (k : Nat) : (c.afterCmd d).core k = d.core k := core_of_cores (cores_afterCmd c d) k

theorem ring_of_sp {c d : Chip} (h : d.sp = c.sp) (t x : Nat) : d.ring t x = c.ring t x := by simp only [ring, scratch, h]

/-- What a ring and its positions read follows from the register file and the scratchpads alone. -/
theorem RingMoves.of_eq {c m d : Chip} {t x : Nat} {free : Bool} (h : RingMoves c m t x free) (hs : d.sp = m.sp) (hr : d.regs = m.regs) :
    d.full t x (c.slotPos t x free) = (!free) ∧ d.slotPos t x free = (c.slotPos t x free + 1) % (c.ring t x).nslot ∧
      d.slotPos t x (!free) = c.slotPos t x (!free) ∧ (∀ j, j < 16 → j ≠ c.slotPos t x free → d.full t x j = c.full t x j) ∧
      (free = false → nth 0 (d.ring t x).gen (c.pp t x) = (nth 0 (c.ring t x).gen (c.pp t x) + 1) % 0x10000) := by
  have hrpos := r_of_regs hr (R.TILE.RPOS t x)
  rw [slotPos_of_rpos hrpos, slotPos_of_rpos hrpos, full_of_rpos hrpos, ring_of_sp hs]
  exact ⟨h.slot, h.pos, h.other, fun j hj hne => (full_of_rpos hrpos j).trans (h.slots j hj hne), h.gen⟩

theorem Quiet.awake {c : Chip} {k : Nat} (q : Quiet c k) : c.awake = true := by
  unfold Chip.awake
  rw [q.up, q.deep]
  rfl

/-- On a quiet core a ring command that is performed ends its bundle, and nothing is tried again after it. -/
theorem syl_performed {c : Chip} {h : Syl} {x : Nat} {free : Bool} (ha : c.alone h [.m] = true) (q : Quiet c h.core.val)
    (hk : h.core.val < 16) (hr : RingReady c h.core.val x 1 free) :
    let e := c.syl h [.m] false fun _ => { effs := [.ring free x] }
    Moved ((c.takesRing h.core.val h free x).ringDone h.core.val x free) e h.core.val ∧
      (e.core h.core.val).arch = (c.core h.core.val).next.arch := by
  obtain ⟨hmoved, harch, hheld⟩ := closeBundle_performed q h hr
  dsimp only
  rw [syl_ring ha hk, settle_quiet]
  · exact ⟨hmoved, harch⟩
  · intro j hj
    by_cases hjk : j = h.core.val
    · rw [hjk, hheld]
    · rw [hmoved.others j hjk, core_ringDone, core_takesRing_ne _ _ _ _ hjk]
      exact q.held j hj
  · intro t ht
    have hcust : ((c.takesRing h.core.val h free x).closeBundle h.core.val).cust = c.cust := by
      rw [hmoved.rest]
      exact cust_ringDone _ _ _ _
    unfold custSt
    rw [hcust]
    exact q.cust t ht

/-- On a quiet core a ring command that is blocked holds its bundle, and the bundle still waits when it has been tried again. -/
theorem syl_waits {c : Chip} {h : Syl} {x : Nat} {free : Bool} (ha : c.alone h [.m] = true) (q : Quiet c h.core.val)
    (hk : h.core.val < 16) (hx16 : x < 16) (ht : c.sp.length = 16) (hx : (c.scratch h.core.val).rings.length = 16)
    (hstalls : ∀ y, y < 16 → (c.ring h.core.val y).stalls = []) (hb : RingBlocked c h.core.val x 1 free) :
    c.syl h [.m] false (fun _ => { effs := [.ring free x] }) =
      ((c.takesRing h.core.val h free x).ringStall h.core.val x (.core h.core.val)).holdCore h.core.val := by
  have hlen : h.core.val < (c.takesRing h.core.val h free x).cores.length := by
    rw [takesRing, length_cores_modCore, q.len]
    exact q.lt
  have hhold : HoldsRing (c.takesRing h.core.val h free x) h.core.val x free := holdsRing_of_quiet q h
  have hblock : RingBlocked (c.takesRing h.core.val h free x) h.core.val x 1 free := hb.modCore _ _
  rw [syl_ring ha hk, closeBundle_waits hhold hblock]
  have hw := WaitsOnly.ringStall (c.takesRing h.core.val h free x) h.core.val x (.core h.core.val)
  obtain ⟨hlisted, -, hrest⟩ := ringStall_first (c := c.takesRing h.core.val h free x) (x := x) (.core h.core.val)
    (show h.core.val < c.sp.length by omega) (show x < (c.scratch h.core.val).rings.length by omega) (hstalls x hx16)
  have hlen' : h.core.val < ((c.takesRing h.core.val h free x).ringStall h.core.val x (.core h.core.val)).cores.length := by
    rw [hw.cores]
    exact hlen
  have hcore := core_holdCore _ hlen'
  refine settle_waits (k := h.core.val) (x := x) (free := free) ?_ ((hhold.of_waits hw).of_run _ _ hlen')
    ((hblock.of_waits hw).modCore _ _) (by rw [hcore]) (by rw [hcore]) ?_ ?_ hx16 ?_ ?_ ?_ ?_
  · rw [holdCore, length_cores_modCore]
    exact hlen'
  · exact hw.tiles.symm ▸ (show h.core.val < c.sp.length by omega)
  · exact hw.ctxs.symm ▸ (show x < (c.scratch h.core.val).rings.length by omega)
  · rw [holdCore, ring_modCore, hlisted]
    simp
  · intro y hy hne
    rw [holdCore, ring_modCore, hrest y hne]
    exact hstalls y hy
  · intro j hj hjk
    rw [holdCore, core_modCore, if_neg (fun hh => hjk hh.1), core_of_cores hw.cores, core_takesRing_ne _ _ _ _ hjk]
    exact q.held j hj
  · intro t ht
    have hcust : (((c.takesRing h.core.val h free x).ringStall h.core.val x (.core h.core.val)).holdCore h.core.val).cust = c.cust := by
      rw [holdCore, modCore_cust, hw.rest]
      rfl
    unfold custSt
    rw [hcust]
    exact q.cust t ht

end Chip

/-- PUT or FREE of a ring that is ready: the ring moves, the core goes on, and nothing else changes. -/
theorem runs_ringPerformed {s : State} {i : Instr} {h : Syl} {x : Nat} {free : Bool}
    (hi : exec i s = s.up fun c => c.syl h [.m] false fun _ => { effs := [.ring free x] }) (ha : s.chip.alone h [.m] = true)
    (hk : h.core.val < 16) (hr : Chip.RingReady s.chip h.core.val x 1 free) :
    Runs i s fun d => d.sp = (s.chip.ringDone h.core.val x free).sp ∧ d.regs = (s.chip.ringDone h.core.val x free).regs ∧
      Issued s.chip d h.core.val Core.next (keys [R.TILE.RPOS h.core.val x]) fun d => { d with sp := s.chip.sp } := by
  have q := quiet_of_alone ha
  obtain ⟨hmoved, harch⟩ := Chip.syl_performed ha q hk hr
  refine runs_of_up hi q.awake ?_
  generalize s.chip.syl h [.m] false (fun _ => { effs := [.ring free x] }) = e at hmoved harch ⊢
  have hsp : e.sp = (s.chip.ringDone h.core.val x free).sp := by rw [hmoved.rest]; cases free <;> rfl
  have hregs : e.regs = (s.chip.ringDone h.core.val x free).regs := by rw [hmoved.rest]; cases free <;> rfl
  refine ⟨(Chip.sp_afterCmd _ _).trans hsp, (Chip.regs_afterCmd _ _).trans hregs, ?_, fun j hj => ?_, ?_, fun key hkey _ => ?_⟩
  · rw [Chip.core_afterCmd]
    exact harch
  · rw [Chip.core_afterCmd, hmoved.others j hj, Chip.core_ringDone, Chip.core_takesRing_ne _ _ _ _ hj]
  · obtain ⟨z, hz⟩ := Chip.afterCmd_eq s.chip e
    rw [hz, hmoved.rest, Chip.ringDone_rest]
    rfl
  · rw [Chip.r_afterCmd, Chip.r_of_regs hregs, Chip.r_ringDone, if_neg]
    rintro rfl
    simp [keys] at hkey

/-- PUT or FREE of a tagged ring that is blocked: the core holds the bundle and waits on the ring. -/
theorem runs_ringWaits {s : State} {i : Instr} {h : Syl} {x : Nat} {free : Bool}
    (hi : exec i s = s.up fun c => c.syl h [.m] false fun _ => { effs := [.ring free x] }) (ha : s.chip.alone h [.m] = true)
    (hk : h.core.val < 16) (hx16 : x < 16) (ht : s.chip.sp.length = 16) (hx : (s.chip.scratch h.core.val).rings.length = 16)
    (hstalls : ∀ y, y < 16 → (s.chip.ring h.core.val y).stalls = []) (hb : Chip.RingBlocked s.chip h.core.val x 1 free) :
    Runs i s fun d =>
      (d.core h.core.val).held = true ∧ (d.core h.core.val).run = .stalled ∧ (d.core h.core.val).pc = (s.chip.core h.core.val).pc ∧
      (d.ring h.core.val x).stalls = [(.core h.core.val, s.chip.now)] ∧ d.rb (R.TILE.RST h.core.val x) 1 = true ∧
      d.r (R.TILE.RPOS h.core.val x) = s.chip.r (R.TILE.RPOS h.core.val x) ∧ d.mem = s.chip.mem := by
  have q := quiet_of_alone ha
  refine runs_of_up hi q.awake ?_
  rw [Chip.syl_waits ha q hk hx16 ht hx hstalls hb]
  have hlen : h.core.val < s.chip.cores.length := by rw [q.len]; exact q.lt
  have hw := Chip.WaitsOnly.ringStall (s.chip.takesRing h.core.val h free x) h.core.val x (.core h.core.val)
  obtain ⟨hlisted, hrst, -⟩ := Chip.ringStall_first (c := s.chip.takesRing h.core.val h free x) (x := x) (.core h.core.val)
    (show h.core.val < s.chip.sp.length by omega) (show x < (s.chip.scratch h.core.val).rings.length by omega) (hstalls x hx16)
  have hcore := Chip.core_holdCore ((s.chip.takesRing h.core.val h free x).ringStall h.core.val x (.core h.core.val)) (k := h.core.val)
    (by rw [hw.cores, Chip.takesRing, Chip.length_cores_modCore]; exact hlen)
  rw [Chip.core_of_cores hw.cores, Chip.core_takesRing _ _ _ _ hlen] at hcore
  refine ⟨?_, ?_, ?_, ?_, ?_, ?_, ?_⟩
  · rw [Chip.core_afterCmd, hcore]
  · rw [Chip.core_afterCmd, hcore]
  · rw [Chip.core_afterCmd, hcore]
  · rw [Chip.ring_of_sp (Chip.sp_afterCmd _ _), Chip.holdCore, Chip.ring_modCore, hlisted]
    rfl
  · rw [Chip.rb_afterCmd]
    exact hrst
  · rw [Chip.r_afterCmd]
    exact hw.rpos x
  · rw [Chip.mem_afterCmd, Chip.holdCore, Chip.modCore_mem, hw.rest]
    rfl

/-- Settles O21: PUT and FREE are one ring command, performed when the slot stands the other way and made to wait when it does not. -/
theorem ringSyllablesMoveTheRing : Obligations.RingSyllablesMoveTheRing := by
  unfold Obligations.RingSyllablesMoveTheRing
  intro s h ctx c k x r own ha hk hstalls hrings hsp hact hadv hlo hhi hgen hpp hcp
  have hx16 : x < 16 := ctx.isLt
  refine ⟨fun hside => ⟨fun hempty => ?_, fun hfull htag => ?_⟩, fun hside => ⟨fun hfull => ?_, fun hempty htag => ?_⟩⟩
  · obtain ⟨t, ht, hpend, hsp', hregs, hissued⟩ :=
      runs_ringPerformed (i := .rput h ctx) (free := false) rfl ha hk ⟨hstalls, hact, hadv, hside, hempty⟩
    obtain ⟨hslot, hpos, hother, hslots, hgens⟩ := (Chip.ringMoves_ringDone (c := c) (t := k) (x := x) (free := false) (by omega) (by omega)
      hlo hhi hgen hpp).of_eq hsp' hregs
    exact ⟨t, ht, hpend, hslot, hpos, hother, hslots, hgens rfl, hissued⟩
  · exact runs_ringWaits (free := false) rfl ha hk hx16 hsp hrings hstalls ⟨hact, hadv, hside, htag, hfull⟩
  · obtain ⟨t, ht, hpend, hsp', hregs, hissued⟩ :=
      runs_ringPerformed (i := .rfree h ctx) (free := true) rfl ha hk ⟨hstalls, hact, hadv, hside, hfull⟩
    obtain ⟨hslot, hpos, hother, hslots, -⟩ := (Chip.ringMoves_ringDone (c := c) (t := k) (x := x) (free := true) (by omega) (by omega)
      hlo hhi hgen hcp).of_eq hsp' hregs
    exact ⟨t, ht, hpend, hslot, hpos, hother, hslots, hissued⟩
  · obtain ⟨t, ht, hpend, hheld, hrun, hpc, hlist, -, hrest⟩ :=
      runs_ringWaits (i := .rfree h ctx) (free := true) rfl ha hk hx16 hsp hrings hstalls ⟨hact, hadv, hside, htag, hempty⟩
    exact ⟨t, ht, hpend, hheld, hrun, hpc, hlist, hrest⟩

end Sys2Proof.Machine
end
